-- ==== Sys2Proof/Word.lean ====
section
/-! DEFINITION. The word types and the fixed-length tables every block of the part is built from. -/

namespace Sys2Proof

/-- A byte of the control link or of the panel bus. -/
abbrev Byte := BitVec 8

/-- A stamp of the free-running 32-bit microsecond time base (chapter 0, Time). -/
abbrev Stamp := BitVec 32

/-- A reading of the 48-bit millisecond count (chapter 0, Time). -/
abbrev MsCount := BitVec 48

/-- A table of `n` entries. -/
abbrev Tab (α : Type) (n : Nat) := Vector α n

/-- Twenty characters: a caption or a line of the text display (R12, R185). -/
abbrev Text20 := Tab Byte 20

/-- The entry at index `i`. -/
def tget {α : Type} {n : Nat} (t : Tab α n) (i : Fin n) : α := t.toList.get ⟨i.val, by simp⟩

/-- The table with the entry at index `i` replaced. -/
def tset {α : Type} {n : Nat} (t : Tab α n) (i : Fin n) (a : α) : Tab α n :=
  ⟨(t.toList.set i.val a).toArray, by simp⟩

/-- The table with the entry at index `i` changed by `f`. -/
def tupd {α : Type} {n : Nat} (t : Tab α n) (i : Fin n) (f : α → α) : Tab α n :=
  tset t i (f (tget t i))

/-- A table whose entries are all `a`. -/
def tfill {α : Type} (n : Nat) (a : α) : Tab α n := ⟨(List.replicate n a).toArray, by simp⟩

/-- The indices 0 to `n - 1` in rising order. -/
def indices (n : Nat) : List (Fin n) := List.finRange n

/-- A table computed entry by entry. -/
def tgen {α : Type} (n : Nat) (f : Fin n → α) : Tab α n :=
  ⟨((indices n).map f).toArray, by simp [indices]⟩

/-- The index `k` of a table of `n`, where there is one. -/
def index? (n k : Nat) : Option (Fin n) := if h : k < n then some ⟨k, h⟩ else none

/-- The character code of a space. -/
def space : Byte := 0x20#8

/-- Characters padded on the right with spaces to 20 (R12, R185). -/
def padTo20 (l : List Byte) : Text20 :=
  ⟨((l ++ List.replicate 20 space).take 20).toArray, by simp⟩

/-- Twenty spaces. -/
def blankText : Text20 := padTo20 []

/-- The list with `a` at its tail, unless it already holds `a`. -/
def joinTail {α : Type} [DecidableEq α] (l : List α) (a : α) : List α :=
  if a ∈ l then l else l ++ [a]

end Sys2Proof
end

