-- ==== Sys2Proof/Syntax.lean ====
section
/-! DEFINITION. The named values of the manual, the request bodies as they are sent, and the commands of the
operation table: one constructor of `Instr` per row of spec/opcode_table.json. -/

namespace Sys2Proof

/-! ## Named values -/

/-- An end of a block: END_0 or END_1 (R4). -/
inductive Side | e0 | e1
  deriving DecidableEq, Repr

/-- The other end of a block. -/
def Side.other : Side → Side
  | .e0 => .e1
  | .e1 => .e0

/-- A leg of a point (R5). -/
inductive Leg | toe | normal | reverse
  deriving DecidableEq, Repr

/-- A lie a point can be driven to (R68). -/
inductive Lie | normal | reverse
  deriving DecidableEq, Repr

/-- The opposite lie. -/
def Lie.other : Lie → Lie
  | .normal => .reverse
  | .reverse => .normal

/-- The leg by which a point in this lie joins its TOE. -/
def Lie.leg : Lie → Leg
  | .normal => .normal
  | .reverse => .reverse

/-- An end of the deck (R140). -/
inductive DeckEnd | a | b
  deriving DecidableEq, Repr

/-- The end a TURN names (R143). -/
inductive DeckAsk | a | b | any
  deriving DecidableEq, Repr

/-- A feed's kill mode (R4). -/
inductive KillMode | auto | latch
  deriving DecidableEq, Repr

/-- A point's feedback mode (R5). -/
inductive Feedback | none | hold | confirm
  deriving DecidableEq, Repr

/-- A point's home lie (R5). -/
inductive HomeLie | normal | reverse | asFound
  deriving DecidableEq, Repr

/-- A panel module's type (R9). -/
inductive ModuleType | lamp | keys | mimic | text
  deriving DecidableEq, Repr

/-- What an LED shows (R10). -/
inductive LedKind | blockOcc | blockRes | pointN | pointR | signalProceed | road | showing
  deriving DecidableEq, Repr

/-- The route state a WAIT_ROUTE waits for (R11). -/
inductive RouteTarget | isSet | isFree
  deriving DecidableEq, Repr

/-- The fourteen parameters, in the order of R13. -/
inductive ParamName
  | stackTimeout | approachLock | overlapRelease | adoptionWindow | coolTime | tripWindow | tripsToLatch
  | restartStagger | showHoldOff | keyPollPeriod | lampProvePeriod | speedHold | scaleDivisor | displayTrap
  deriving DecidableEq, Repr

/-- The tables ERASE can name (R3), in the order R203 numbers them. -/
inductive EraseTable
  | block | point | group | signal | route | turntable | road | trap | panel | key | led | cue | showing | everything
  deriving DecidableEq, Repr

/-! ## Request bodies as they are sent

A numeric field holds the number sent. A field that may be left out or that names one of a list of values is a
`Sent`: left out, a value, or a number beyond the end of the list (R203, R204). -/

/-- A field as it was sent. -/
inductive Sent (α : Type)
  | omitted             -- left to its default
  | value (a : α)
  | unlisted            -- a choice beyond the end of its list (R204)
  deriving DecidableEq, Repr

/-- The payload of a request: its fields, or a length other than the one its kind calls for (R204). -/
inductive Body (α : Type)
  | wrongLength
  | fields (a : α)
  deriving DecidableEq, Repr

/-- A link as sent (R4, R203). -/
inductive RawLink
  | noLink
  | blockEnd (b : Nat) (e : Sent Side)
  | pointLeg (p : Nat) (g : Sent Leg)
  | unlisted
  deriving DecidableEq, Repr

/-- A block kind as sent (R4). -/
inductive RawKind
  | plain
  | stop (guarded : Nat)
  | deck
  deriving DecidableEq, Repr

/-- DEFINE_BLOCK (R4). -/
structure DefBlock where
  index : Nat
  kind : Sent RawKind
  link0 : RawLink
  link1 : RawLink
  threshold : Sent Nat
  hysteresis : Sent Nat
  dwellOn : Sent Nat
  dwellOff : Sent Nat
  kill : Sent KillMode
  restartGroup : Sent Nat
  deriving DecidableEq, Repr

/-- DEFINE_POINT (R5). -/
structure DefPoint where
  index : Nat
  toe : RawLink
  normal : RawLink
  reverse : RawLink
  group : Nat
  feedback : Sent Feedback
  home : Sent HomeLie
  deriving DecidableEq, Repr

/-- DEFINE_GROUP (R5). -/
structure DefGroup where
  index : Nat
  setup : Sent Nat
  pulse : Sent Nat
  recovery : Sent Nat
  window : Sent Nat
  deriving DecidableEq, Repr

/-- DEFINE_SIGNAL (R6). -/
structure DefSignal where
  index : Nat
  block : Nat
  stands : Sent Side
  aspects : Nat
  lampModule : Nat
  firstOutput : Nat
  deriving DecidableEq, Repr

/-- One entry of a route's point list as sent (R7). -/
structure RawPointReq where
  point : Nat
  lie : Sent Lie
  release : Nat
  deriving DecidableEq, Repr

/-- One entry of a route's flank list as sent (R7). -/
structure RawFlankReq where
  point : Nat
  lie : Sent Lie
  deriving DecidableEq, Repr

/-- A turntable requirement as sent (R7). -/
structure RawDeckReq where
  road : Nat
  side : Sent DeckEnd
  deriving DecidableEq, Repr

/-- Approach control as sent (R7). -/
structure RawApproach where
  limit : Nat
  trap : Nat
  release : Nat
  deriving DecidableEq, Repr

/-- DEFINE_ROUTE (R7). An exit of none is NONE; an optional part left out is `omitted`. -/
structure DefRoute where
  index : Nat
  entrance : Nat
  exit : Option Nat
  path : List Nat
  points : List RawPointReq
  flank : List RawFlankReq
  overlap : List Nat
  turntable : Sent RawDeckReq
  approach : Sent RawApproach
  visitor : Sent Bool
  deriving DecidableEq, Repr

/-- DEFINE_TURNTABLE (R8). -/
structure DefTurntable where
  index : Nat
  r : Nat
  vMin : Nat
  vMax : Nat
  increment : Nat
  barrier : Sent Bool
  tolerance : Nat
  homeAtStart : Sent Bool
  settle : Sent Nat
  bolt : Sent Nat
  deadtime : Sent Nat
  deckBlock : Nat
  deriving DecidableEq, Repr

/-- DEFINE_ROAD (R8). -/
structure DefRoad where
  index : Nat
  position : Nat
  block : Nat
  deriving DecidableEq, Repr

/-- DEFINE_TRAP (R9). -/
structure DefTrap where
  index : Nat
  distance : Nat
  edges : Sent Nat
  quiet : Sent Nat
  block : Nat
  abEnd : Sent Side
  deriving DecidableEq, Repr

/-- DEFINE_MODULE (R9). -/
structure DefModule where
  index : Nat
  address : Nat
  type : Sent ModuleType
  deriving DecidableEq, Repr

/-- A key action as sent (R10). -/
inductive RawAction
  | startShow (i : Nat)
  | visitorRoute (r : Nat)
  | emergency
  | none
  deriving DecidableEq, Repr

/-- DEFINE_KEY (R10). -/
structure DefKey where
  index : Nat
  panel : Nat
  key : Nat
  action : Sent RawAction
  deriving DecidableEq, Repr

/-- DEFINE_LED, named by its LED number (R10). -/
structure DefLed where
  number : Nat
  kind : Sent LedKind
  index : Nat
  deriving DecidableEq, Repr

/-- A cue selector as sent; NONE is the default (R10). -/
inductive RawSelector
  | blockOccupied (b : Nat)
  | blockCleared (b : Nat)
  | trapResult (t : Nat)
  | turntableAligned
  | routeEntered (r : Nat)
  | routeFreed (r : Nat)
  | key (panel k : Nat)
  deriving DecidableEq, Repr

/-- DEFINE_CUE (R10). -/
structure DefCue where
  index : Nat
  selector : Sent RawSelector
  deriving DecidableEq, Repr

/-- A show step as sent (R11, R191, R192). -/
inductive RawStep
  | route (r : Nat)
  | turn (road : Nat) (side : Sent DeckAsk)
  | waitRoute (r : Nat) (target : Sent RouteTarget) (timeout : Nat)
  | waitTurntable (timeout : Nat)
  | waitCue (c timeout : Nat)
  | pause (ms : Nat)
  | clearCue (c : Nat)
  | caption (k : Nat)
  | cancel (r : Nat)
  | finish
  deriving DecidableEq, Repr

/-- DEFINE_STEP (R11). -/
structure DefStep where
  showNo : Nat
  position : Nat
  step : Sent RawStep
  deriving DecidableEq, Repr

/-- ERASE: a table and an index, or none for ALL (R3). -/
structure EraseReq where
  table : Sent EraseTable
  index : Option Nat
  deriving DecidableEq, Repr

/-- SET_PARAM (R13). -/
structure ParamReq where
  param : Sent ParamName
  value : Nat
  deriving DecidableEq, Repr

/-- SET_CAPTION (R12). -/
structure CaptionReq where
  index : Nat
  codes : List Byte
  deriving DecidableEq, Repr

/-- ISOLATE_FEED (R41). -/
structure IsolateReq where
  block : Nat
  on : Sent Bool
  deriving DecidableEq, Repr

/-- PLACE_TRAIN (R61). -/
structure PlaceReq where
  number : Nat
  block : Nat
  leading : Sent Side
  deriving DecidableEq, Repr

/-- THROW_POINT (R79). -/
structure ThrowReq where
  point : Nat
  lie : Sent Lie
  deriving DecidableEq, Repr

/-- TURN from the host (R143). -/
structure TurnReq where
  road : Nat
  side : Sent DeckAsk
  deriving DecidableEq, Repr

/-- QUERY (R209): a subject's code and index. -/
structure QueryReq where
  code : Nat
  index : Nat
  deriving DecidableEq, Repr

/-- The cause of a panel bus transaction's failure (R167). -/
inductive BusCause | noAck | stretch | stuck
  deriving DecidableEq, Repr

/-- The outcome of a panel bus write (R167). -/
inductive WriteOutcome
  | success
  | failed (c : BusCause)
  deriving DecidableEq, Repr

/-- The outcome of a panel bus read of two bytes at index 16 (R169): on SUCCESS it carries them, the first byte in
the upper half. -/
inductive ReadOutcome
  | success (bytes : BitVec 16)
  | failed (c : BusCause)
  deriving DecidableEq, Repr

/-! ## The commands

`dt` is the time in µs since the command before (log entry 1). A request also carries its tag and its body. -/

/-- The commands of the part: one constructor per row of the operation table. -/
inductive Instr
  /-- POWER_ON (R1). -/
  | powerOn (dt : Nat)
  /-- DEFINE_BLOCK (R2, R4). -/
  | defineBlock (dt : Nat) (tag : Byte) (body : Body DefBlock)
  /-- DEFINE_POINT (R2, R5). -/
  | definePoint (dt : Nat) (tag : Byte) (body : Body DefPoint)
  /-- DEFINE_GROUP (R2, R5). -/
  | defineGroup (dt : Nat) (tag : Byte) (body : Body DefGroup)
  /-- DEFINE_SIGNAL (R2, R6). -/
  | defineSignal (dt : Nat) (tag : Byte) (body : Body DefSignal)
  /-- DEFINE_ROUTE (R2, R7). -/
  | defineRoute (dt : Nat) (tag : Byte) (body : Body DefRoute)
  /-- DEFINE_TURNTABLE (R2, R8). -/
  | defineTurntable (dt : Nat) (tag : Byte) (body : Body DefTurntable)
  /-- DEFINE_ROAD (R2, R8). -/
  | defineRoad (dt : Nat) (tag : Byte) (body : Body DefRoad)
  /-- DEFINE_TRAP (R2, R9). -/
  | defineTrap (dt : Nat) (tag : Byte) (body : Body DefTrap)
  /-- DEFINE_MODULE (R2, R9). -/
  | defineModule (dt : Nat) (tag : Byte) (body : Body DefModule)
  /-- DEFINE_KEY (R2, R10). -/
  | defineKey (dt : Nat) (tag : Byte) (body : Body DefKey)
  /-- DEFINE_LED (R2, R10). -/
  | defineLed (dt : Nat) (tag : Byte) (body : Body DefLed)
  /-- DEFINE_CUE (R2, R10). -/
  | defineCue (dt : Nat) (tag : Byte) (body : Body DefCue)
  /-- DEFINE_STEP (R11). -/
  | defineStep (dt : Nat) (tag : Byte) (body : Body DefStep)
  /-- ERASE (R3). -/
  | erase (dt : Nat) (tag : Byte) (body : Body EraseReq)
  /-- SET_PARAM (R13). -/
  | setParam (dt : Nat) (tag : Byte) (body : Body ParamReq)
  /-- SET_CAPTION (R12). -/
  | setCaption (dt : Nat) (tag : Byte) (body : Body CaptionReq)
  /-- START_RUN (R15, R20). -/
  | startRun (dt : Nat) (tag : Byte) (body : Body Unit)
  /-- STOP_RUN (R23, R210). -/
  | stopRun (dt : Nat) (tag : Byte) (body : Body Unit)
  /-- HALT_LAYOUT (R21). -/
  | haltLayout (dt : Nat) (tag : Byte) (body : Body Unit)
  /-- RESUME (R22). -/
  | resume (dt : Nat) (tag : Byte) (body : Body Unit)
  /-- RESET: the ACK is queued (R24, R210). -/
  | reset (dt : Nat) (tag : Byte) (body : Body Unit)
  /-- RESET_TAKES_EFFECT: the last byte of its ACK has been sent (R210). -/
  | resetTakesEffect (dt : Nat)
  /-- ISOLATE_FEED (R41). -/
  | isolateFeed (dt : Nat) (tag : Byte) (body : Body IsolateReq)
  /-- RESTORE_FEED (R42). -/
  | restoreFeed (dt : Nat) (tag : Byte) (body : Body Nat)
  /-- PLACE_TRAIN (R61). -/
  | placeTrain (dt : Nat) (tag : Byte) (body : Body PlaceReq)
  /-- REMOVE_TRAIN (R62). -/
  | removeTrain (dt : Nat) (tag : Byte) (body : Body Nat)
  /-- THROW_POINT (R79). -/
  | throwPoint (dt : Nat) (tag : Byte) (body : Body ThrowReq)
  /-- REQUEST_ROUTE from the host (R87). -/
  | requestRoute (dt : Nat) (tag : Byte) (body : Body Nat)
  /-- CANCEL_ROUTE (R101). -/
  | cancelRoute (dt : Nat) (tag : Byte) (body : Body Nat)
  /-- FORCE_RELEASE (R103). -/
  | forceRelease (dt : Nat) (tag : Byte) (body : Body Nat)
  /-- TURN from the host (R143, R144). -/
  | turn (dt : Nat) (tag : Byte) (body : Body TurnReq)
  /-- HOME (R157). -/
  | home (dt : Nat) (tag : Byte) (body : Body Unit)
  /-- STOP_TURNTABLE (R159). -/
  | stopTurntable (dt : Nat) (tag : Byte) (body : Body Unit)
  /-- START_SHOW from the host (R189). -/
  | startShow (dt : Nat) (tag : Byte) (body : Body Nat)
  /-- STOP_SHOW (R190). -/
  | stopShow (dt : Nat) (tag : Byte) (body : Body Nat)
  /-- SET_CUE (R196). -/
  | setCue (dt : Nat) (tag : Byte) (body : Body Nat)
  /-- CLEAR_CUE (R196). -/
  | clearCue (dt : Nat) (tag : Byte) (body : Body Nat)
  /-- SET_TEXT (R185). -/
  | setText (dt : Nat) (tag : Byte) (body : Body (List Byte))
  /-- QUERY (R209). -/
  | query (dt : Nat) (tag : Byte) (body : Body QueryReq)
  /-- UNKNOWN_KIND: a complete frame whose kind is not in the request table (R204). -/
  | unknownKind (dt : Nat) (tag : Byte) (kind : Byte)
  /-- BAD_CHECK_FRAME (R202). -/
  | badCheckFrame (dt : Nat)
  /-- FRAMING_ERROR: a byte with its stop bit low (R202). -/
  | framingError (dt : Nat)
  /-- FRAME_GAP_TIMEOUT (R202). -/
  | frameGapTimeout (dt : Nat)
  /-- FRAME_SENT: the last byte of the frame on the line has left (R206). -/
  | frameSent (dt : Nat)
  /-- SEND_REPORT (R208). -/
  | sendReport (dt : Nat)
  /-- LEVEL_SAMPLE: a LEVEL sense record with its index, value and check nibble (R25 to R31). -/
  | levelSample (dt : Nat) (index : BitVec 7) (value : Byte) (check : BitVec 4)
  /-- CONTACT_READING: a CONTACT sense record (R25, R34). -/
  | contactReading (dt : Nat) (index : BitVec 7) (value : Byte) (check : BitVec 4)
  /-- CHANNEL_STALE (R32). -/
  | channelStale (dt : Nat) (b : Fin 48)
  /-- CONTACT_STALE (R34). -/
  | contactStale (dt : Nat) (p : Fin 64)
  /-- FEED_COOL_EXPIRY (R40). -/
  | feedCoolExpiry (dt : Nat) (b : Fin 48)
  /-- RESTART_DUE (R43). -/
  | restartDue (dt : Nat) (b : Fin 48)
  /-- SETUP_END (R71). -/
  | setupEnd (dt : Nat) (g : Fin 8)
  /-- PULSE_TIME_END (R71 to R73). -/
  | pulseTimeEnd (dt : Nat) (g : Fin 8)
  /-- FEEDBACK_WINDOW_END (R72). -/
  | feedbackWindowEnd (dt : Nat) (g : Fin 8)
  /-- CONFIRM_WAIT_END (R73). -/
  | confirmWaitEnd (dt : Nat) (g : Fin 8)
  /-- RECOVERY_END (R74). -/
  | recoveryEnd (dt : Nat) (g : Fin 8)
  /-- STACK_TIMEOUT_EXPIRY (R87). -/
  | stackTimeoutExpiry (dt : Nat) (r : Fin 64)
  /-- OVERLAP_TIMER_EXPIRY (R99). -/
  | overlapTimerExpiry (dt : Nat) (r : Fin 64)
  /-- APPROACH_LOCK_EXPIRY (R102). -/
  | approachLockExpiry (dt : Nat) (r : Fin 64)
  /-- APPROACH_TIMER_EXPIRY (R118). -/
  | approachTimerExpiry (dt : Nat) (g : Fin 32)
  /-- GATE_EDGE (R126, R128): a change of the level of gate `g`'s input, to `level`. Its stamp is the time base as it stands
  then. -/
  | gateEdge (dt : Nat) (g : Fin 8) (level : Bool)
  /-- QUIET_TIMER_EXPIRY (R129). -/
  | quietTimerExpiry (dt : Nat) (g : Fin 8)
  /-- TRAP_TIMEOUT (R133). -/
  | trapTimeout (dt : Nat) (t : Fin 4)
  /-- BOLT_OUT_CONTACT: the contact's new level, closed or open (R141, R150). -/
  | boltOutContact (dt : Nat) (closed : Bool)
  /-- BOLT_IN_CONTACT: the contact's new level, closed or open (R141, R153, R161). -/
  | boltInContact (dt : Nat) (closed : Bool)
  /-- BOLT_TIMER_EXPIRY (R150, R153, R158). -/
  | boltTimerExpiry (dt : Nat)
  /-- DEADTIME_EXPIRY (R151, R158). -/
  | deadtimeExpiry (dt : Nat)
  /-- STEP_COMPLETE: a ramp step's interval has run out (R149). -/
  | stepComplete (dt : Nat)
  /-- REVERSAL_END (R156). -/
  | reversalEnd (dt : Nat)
  /-- CREEP_STEP_COMPLETE (R156). -/
  | creepStepComplete (dt : Nat)
  /-- HOMING_STEP_COMPLETE (R158). -/
  | homingStepComplete (dt : Nat)
  /-- INDEX_EDGE (R155, R158). -/
  | indexEdge (dt : Nat)
  /-- SETTLE_TIME_EXPIRY (R152). -/
  | settleTimeExpiry (dt : Nat)
  /-- RELAY_DEADTIME_EXPIRY (R152). -/
  | relayDeadtimeExpiry (dt : Nat)
  /-- START_TRANSACTION, with whether both bus lines read high before the START (R170, R177). -/
  | startTransaction (dt : Nat) (linesHigh : Bool)
  /-- CLOCK_STRETCH_TIMEOUT (R170). -/
  | clockStretchTimeout (dt : Nat)
  /-- BUS_RECOVERY_END (R170). -/
  | busRecoveryEnd (dt : Nat)
  /-- GENERAL_CALL_END (R171). -/
  | generalCallEnd (dt : Nat) (o : WriteOutcome)
  /-- PART_WRITE_END (R174). -/
  | partWriteEnd (dt : Nat) (o : WriteOutcome)
  /-- PROBE_END (R179). -/
  | probeEnd (dt : Nat) (o : WriteOutcome)
  /-- READ_BACK_END (R180). -/
  | readBackEnd (dt : Nat) (o : ReadOutcome)
  /-- KEY_POLL_END (R182). -/
  | keyPollEnd (dt : Nat) (o : ReadOutcome)
  /-- PROVE_TIMER_EXPIRY (R176). -/
  | proveTimerExpiry (dt : Nat) (m : Fin 24)
  /-- POLL_TIMER_EXPIRY (R176). -/
  | pollTimerExpiry (dt : Nat) (m : Fin 24)
  /-- PROBE_TIMER_EXPIRY (R176). -/
  | probeTimerExpiry (dt : Nat) (m : Fin 24)
  /-- SPEED_HOLD_EXPIRY (R186). -/
  | speedHoldExpiry (dt : Nat)
  /-- WAIT_TIMER_EXPIRY of a show (R192). -/
  | waitTimerExpiry (dt : Nat) (i : Fin 8)
  /-- HOLD_OFF_EXPIRY of a key binding (R197). -/
  | holdOffExpiry (dt : Nat) (k : Fin 64)
  /-- RECEIVED_BYTE (R202). -/
  | receivedByte (dt : Nat) (b : Byte)
  deriving DecidableEq, Repr

end Sys2Proof
end

