-- ==== Sys2Proof/Decode.lean ====
section
/-! DEFINITION. The words of the operation table. No row of spec/opcode_table.json gives any bits, so no word spells a
command (log entry 23). -/

namespace Sys2Proof

/-- The command that a word spells by the table's bits: none, as the table gives no row any bits. -/
def decodeTableWord (_nbits _w : Nat) : Option Instr := none

end Sys2Proof
end

