-- ==== Sys2Proof/Config.lean ====
section
/-! DEFINITION. What the part fixes: the fixed times and limits of the manual, and the power-on values
that it leaves open. No rule of the manual leaves the result of a command undefined, so there is no free value. -/

namespace Sys2Proof.Config

/-- The time after which a channel or a contact without a record is stale (R32, R34), in ms. -/
def staleMs : Nat := 500

/-- The longest gap within a frame (R202), in µs. -/
def frameGapUs : Nat := 20000

/-- The timeout of a trap (R133), in µs. -/
def trapTimeoutUs : Nat := 10000000

/-- The period of the probe timer (R176), in ms. -/
def probeMs : Nat := 1000

/-- The room of the reply FIFO (R206). -/
def fifoRoom : Nat := 8

/-- The number of replies at which HOLD is asserted (R206). -/
def holdAt : Nat := 6

/-- The room of the route request queue, and its room for visitor requests (R86). -/
def queueRoom : Nat := 16
/-- See `queueRoom`. -/
def visitorRoom : Nat := 4

/-- The room of the show queue (R188). -/
def showQueueRoom : Nat := 4

/-- The longest block list of a train (R46). -/
def trainRoom : Nat := 8

/-- The entries of a trip log (R35). -/
def tripLogRoom : Nat := 5

/-- The step store's entries (R11), and the most steps one show may hold in service (R19). -/
def stepStore : Nat := 128
/-- See `stepStore`. -/
def showSteps : Nat := 24

/-- The points that a walk may pass (R17, R48). -/
def walkPoints : Nat := 8

/-- The most points of one drive group (R16). -/
def groupRoom : Nat := 16

/-- The consecutive failures at which a module goes OFFLINE (R178), and the attempts of a general call (R171). -/
def failureLimit : Nat := 3

/-- The time base at power-on. DESIGN CHOICE (unsafe): the manual gives none; log entry 4. -/
def timeBaseAtPowerOn : Stamp := 0

/-- The level of each bolt contact at power-on. DESIGN CHOICE (unsafe): an input's level is the pit's; log entry 5. -/
def boltContactAtPowerOn : Bool := false

/-- A bound on the rounds in which one command's consequences come to rest: every round examines the route queue
or carries a show on by at least one step, and a command runs each show at most once (R192, R194). -/
def rounds : Nat := 512

end Sys2Proof.Config
end

