-- ==== Sys2Proof/Machine/State.lean ====
section
/-! DEFINITION. The state of the part: the tables, the parameter set, and what each of its twelve blocks holds. -/

namespace Sys2Proof.Machine

/-- A timer: stopped, or running with the reading of `Clock.us` at which it expires. -/
abbrev Timer := Option Nat

/-- No command of the part stops it (INVENTORY, Faults), so there is no fault. -/
inductive Fault
  deriving DecidableEq, Repr

/-- Why a command has no meaning. -/
inductive Refusal
  /-- Raised by an arm of `exec` for a row not modelled yet; safe. No arm raises it. -/
  | notModelled (mnemonic : String)
  deriving DecidableEq, Repr

/-! ## Tables (chapter 1) -/

/-- A link beyond a block end or a point leg (R4, R5). -/
inductive Link
  | noLink
  | blockEnd (b : Fin 48) (e : Side)
  | pointLeg (p : Fin 64) (g : Leg)
  deriving DecidableEq, Repr

/-- A block's kind (R4). -/
inductive BlockKind
  | plain
  | stop (guarded : Fin 32)
  | deck
  deriving DecidableEq, Repr

/-- A block entry (R4). -/
structure BlockDef where
  kind : BlockKind
  link0 : Link
  link1 : Link
  threshold : Nat
  hysteresis : Nat
  dwellOn : Nat
  dwellOff : Nat
  kill : KillMode
  restartGroup : Nat
  deriving DecidableEq, Repr

/-- A point entry (R5). -/
structure PointDef where
  toe : Link
  normal : Link
  reverse : Link
  group : Fin 8
  feedback : Feedback
  home : HomeLie
  deriving DecidableEq, Repr

/-- A drive group's timing profile (R5), in ms. -/
structure GroupDef where
  setup : Nat
  pulse : Nat
  recovery : Nat
  window : Nat
  deriving DecidableEq, Repr

/-- The default profile (R5). -/
def GroupDef.default : GroupDef := ⟨20, 100, 400, 1000⟩

/-- A signal entry (R6). -/
structure SignalDef where
  block : Fin 48
  stands : Side
  aspects : Nat
  lampModule : Fin 24
  firstOutput : Nat
  deriving DecidableEq, Repr

/-- An entry of a point list (R7). -/
structure PointReq where
  point : Fin 64
  lie : Lie
  release : Nat
  deriving DecidableEq, Repr

/-- An entry of a flank list (R7). -/
structure FlankReq where
  point : Fin 64
  lie : Lie
  deriving DecidableEq, Repr

/-- A turntable requirement (R7). -/
structure DeckReq where
  road : Fin 24
  side : DeckEnd
  deriving DecidableEq, Repr

/-- Approach control (R7): limit in tenths km/h, release time in s. -/
structure ApproachDef where
  limit : Nat
  trap : Fin 4
  release : Nat
  deriving DecidableEq, Repr

/-- A route entry (R7). -/
structure RouteDef where
  entrance : Fin 32
  exit : Option (Fin 32)
  path : List (Fin 48)
  points : List PointReq
  flank : List FlankReq
  overlap : List (Fin 48)
  turntable : Option DeckReq
  approach : Option ApproachDef
  visitor : Bool
  deriving DecidableEq, Repr

/-- The turntable entry (R8): rates in steps/s, times in ms. -/
structure TurntableDef where
  r : Nat
  vMin : Nat
  vMax : Nat
  increment : Nat
  barrier : Bool
  tolerance : Nat
  homeAtStart : Bool
  settle : Nat
  bolt : Nat
  deadtime : Nat
  deckBlock : Fin 48
  deriving DecidableEq, Repr

/-- A road entry (R8). -/
structure RoadDef where
  position : Nat
  block : Fin 48
  deriving DecidableEq, Repr

/-- A trap entry (R9): distance in mm, quiet time in ms. -/
structure TrapDef where
  distance : Nat
  edges : Nat
  quiet : Nat
  block : Fin 48
  abEnd : Side
  deriving DecidableEq, Repr

/-- A module entry (R9). -/
structure ModuleDef where
  address : Nat
  type : ModuleType
  deriving DecidableEq, Repr

/-- What a key does (R10). -/
inductive KeyAction
  | startShow (i : Fin 8)
  | visitorRoute (r : Fin 64)
  | emergency
  | none
  deriving DecidableEq, Repr

/-- A key binding (R10). -/
structure KeyDef where
  panel : Fin 24
  key : Fin 16
  action : KeyAction
  deriving DecidableEq, Repr

/-- What a mimic LED shows: its kind and index (R10). -/
inductive LedDef
  | blockOcc (b : Fin 48)
  | blockRes (b : Fin 48)
  | pointN (p : Fin 64)
  | pointR (p : Fin 64)
  | signalProceed (g : Fin 32)
  | road (r : Fin 24)
  | showing (i : Fin 8)
  deriving DecidableEq, Repr

/-- A cue selector (R10). -/
inductive Selector
  | none
  | blockOccupied (b : Fin 48)
  | blockCleared (b : Fin 48)
  | trapResult (t : Fin 4)
  | turntableAligned
  | routeEntered (r : Fin 64)
  | routeFreed (r : Fin 64)
  | key (panel : Fin 24) (k : Fin 16)
  deriving DecidableEq, Repr

/-- A show step (R11, R191, R192): timeouts in s, a pause in ms. -/
inductive Step
  | route (r : Fin 64)
  | turn (road : Fin 24) (side : DeckAsk)
  | waitRoute (r : Fin 64) (target : RouteTarget) (timeout : Nat)
  | waitTurntable (timeout : Nat)
  | waitCue (c : Fin 16) (timeout : Nat)
  | pause (ms : Nat)
  | clearCue (c : Fin 16)
  | caption (k : Fin 16)
  | cancel (r : Fin 64)
  | finish
  deriving DecidableEq, Repr

/-- The thirteen tables (chapter 1). The LED table is the list of its defined slots in rising LED number. -/
structure Tables where
  blocks : Tab (Option BlockDef) 48
  points : Tab (Option PointDef) 64
  groups : Tab GroupDef 8
  signals : Tab (Option SignalDef) 32
  routes : Tab (Option RouteDef) 64
  turntable : Option TurntableDef
  roads : Tab (Option RoadDef) 24
  traps : Tab (Option TrapDef) 4
  modules : Tab (Option ModuleDef) 24
  keys : Tab (Option KeyDef) 64
  leds : List (Nat × LedDef)
  cues : Tab Selector 16
  shows : Tab (List Step) 8
  deriving DecidableEq, Repr

/-- The tables at power-on (R1). -/
def Tables.empty : Tables :=
  { blocks := tfill 48 none, points := tfill 64 none, groups := tfill 8 GroupDef.default,
    signals := tfill 32 none, routes := tfill 64 none, turntable := none, roads := tfill 24 none,
    traps := tfill 4 none, modules := tfill 24 none, keys := tfill 64 none, leds := [],
    cues := tfill 16 .none, shows := tfill 8 [] }

/-- The parameter set (R13); a display trap of none is NONE. -/
structure Params where
  stackTimeout : Nat
  approachLock : Nat
  overlapRelease : Nat
  adoptionWindow : Nat
  coolTime : Nat
  tripWindow : Nat
  tripsToLatch : Nat
  restartStagger : Nat
  showHoldOff : Nat
  keyPollPeriod : Nat
  lampProvePeriod : Nat
  speedHold : Nat
  scaleDivisor : Nat
  displayTrap : Option (Fin 4)
  deriving DecidableEq, Repr

/-- The default parameters (R13). -/
def Params.default : Params :=
  ⟨120, 30, 15, 10, 2000, 10, 3, 100, 60, 40, 250, 30, 87, none⟩

/-- What halted the layout (R1). -/
inductive HaltCause | host | key
  deriving DecidableEq, Repr

/-- The layout mode record (R1): the halt cause is present only in HALT. -/
inductive Mode
  | config
  | run
  | halt (cause : HaltCause)
  deriving DecidableEq, Repr

/-- Whether the mode is HALT, whatever its cause. -/
def Mode.isHalt : Mode → Bool
  | .halt _ => true
  | _ => false

/-- The clock (chapter 0, Time): µs since the millisecond count started, and the 32-bit time base. -/
structure Clock where
  us : Nat
  base : Stamp
  deriving DecidableEq, Repr

/-! ## Detection and feeds (chapter 2) -/

/-- A detection channel (R27). -/
structure Channel where
  occupied : Bool
  count : Nat
  held : Bool
  stale : Bool
  timer : Timer
  deriving DecidableEq, Repr

/-- A contact reading (R34). -/
inductive Reading | neither | normal | reverse
  deriving DecidableEq, Repr

/-- A point's contact as the Detection Unit keeps it (R34). -/
structure Contact where
  reading : Reading
  stale : Bool
  timer : Timer
  deriving DecidableEq, Repr

/-- A feed's state (R35). -/
inductive FeedState | on | off | tripped | cooling | latched
  deriving DecidableEq, Repr

/-- A feed (R35). -/
structure Feed where
  state : FeedState
  isolated : Bool
  log : List MsCount
  cool : Timer
  restart : Timer
  deferred : Bool
  deriving DecidableEq, Repr

/-! ## The Train Register (chapter 3) -/

/-- An entry of a block list: a block and its front end (R46). -/
structure TrainBlock where
  block : Fin 48
  front : Side
  deriving DecidableEq, Repr

/-- Where a LOST train was last seen (R46). -/
structure LastSeen where
  block : Fin 48
  front : Side
  time : MsCount
  deriving DecidableEq, Repr

/-- A train record (R46): each state with the fields it has. The list is head first. -/
inductive Train
  | free
  | active (number : Nat) (blocks : List TrainBlock) (speed : Option Nat) (overlong : Bool)
  | lost (number : Nat) (seen : LastSeen) (speed : Option Nat) (overlong : Bool)
  deriving DecidableEq, Repr

/-- Why a block is stray (R47). -/
inductive StrayReason | noTrain | ambiguous | overlong | removed
  deriving DecidableEq, Repr

/-- A block's flags in the Train Register (R47). -/
structure BlockFlags where
  stray : Option StrayReason
  bridged : Bool
  deriving DecidableEq, Repr

/-! ## The Point Drive (chapter 4) -/

/-- Where a point lies; none is UNKNOWN (R65). -/
abbrev KnownLie := Option Lie

/-- A point record (R65). The targets and the motion are read from the group's record (`movingTarget`,
`queuedTarget`). -/
structure PointRec where
  lie : KnownLie
  failed : Bool
  asFound : Bool
  disagree : Nat
  locks : Nat
  deriving DecidableEq, Repr

/-- A drive group's phase (R67). -/
inductive GroupPhase | idle | setup | pulse | recovery
  deriving DecidableEq, Repr

/-- A group's current move (R67). -/
structure Move where
  point : Fin 64
  target : Lie
  phaseAt : Nat
  pulseAt : Option Nat
  deriving DecidableEq, Repr

/-- How a move was decided (R67). -/
inductive MoveOutcome | isSet | failed
  deriving DecidableEq, Repr

/-- A drive group (R67). The move is decided when `outcome` is present. `phaseTimer` runs in SETUP, PULSE and RECOVERY
for the phase's time and is stopped once that time is over; `windowTimer` is the feedback window of a HOLD pulse or the
confirm wait of a CONFIRM move. -/
structure GroupRec where
  phase : GroupPhase
  current : Option Move
  outcome : Option MoveOutcome
  queue : List (Fin 64 × Lie)
  paused : Bool
  phaseTimer : Timer
  windowTimer : Timer
  deriving DecidableEq, Repr

/-! ## The Route Interlock (chapter 5) -/

/-- The reason of a FREE route (R84). -/
inductive FreeReason | none | released | cancelled | forced | expired | pointFailed | turntable | halted
  deriving DecidableEq, Repr

/-- The class of a route request (R84). -/
inductive RouteClass | host | visitor
  deriving DecidableEq, Repr

/-- The overlap timer of an ENTERED route (R84). -/
inductive OverlapTimer
  | stopped
  | running (expiry : Nat)
  | expired
  deriving DecidableEq, Repr

/-- The released marks of a route that holds elements: one per path block and one for the overlap (R84). -/
structure Marks where
  path : List Bool
  overlap : Bool
  deriving DecidableEq, Repr

/-- A route record (R84): each state with the fields present in it. -/
inductive RouteRec
  | free (reason : FreeReason)
  | queued (cls : RouteClass) (since : MsCount)
  | setting (turnAsked : Bool) (marks : Marks)
  | isSet (proof disturbed : Bool) (marks : Marks)
  | entered (atDanger : Bool) (overlapTimer : OverlapTimer) (marks : Marks)
  | cancelling (expiry : Nat) (marks : Marks)
  deriving DecidableEq, Repr

/-! ## The Aspect Unit (chapter 6) -/

/-- A signal aspect (R110). -/
inductive Aspect | dark | danger | caution | prelim | clear
  deriving DecidableEq, Repr

/-- A signal record (R110); `release` is the approach release flag, present while the controlling route is SET and has
approach control. -/
structure SignalRec where
  aspect : Aspect
  control : Option (Fin 64)
  cleared : Bool
  release : Option Bool
  timer : Timer
  overspeeds : Byte
  lastOverspeed : Option Nat
  deriving DecidableEq, Repr

/-! ## The Gate Timer (chapter 7) -/

/-- A gate filter (R127); the quiet timer's expiry is a stamp. -/
inductive Filter
  | quiet
  | counting (count : Nat) (expiry : Stamp)
  | spent (expiry : Stamp)
  deriving DecidableEq, Repr

/-- The direction a trap is timing (R130). -/
inductive TrapDir | ab | ba
  deriving DecidableEq, Repr

/-- A trap's state (R130); the timeout's expiry is a stamp. -/
inductive TrapState
  | idle
  | timing (dir : TrapDir) (t0 : Stamp) (overwritten : Bool) (timeout : Stamp)
  | holdoff
  deriving DecidableEq, Repr

/-- A result record (R136). -/
structure TrapResult where
  speed : Nat
  toward : Side
  t : Nat
  overwritten : Bool
  count : Byte
  deriving DecidableEq, Repr

/-- A trap's last outcome (R130). -/
inductive TrapOutcome | result | timeout
  deriving DecidableEq, Repr

/-- A trap record (R130). -/
structure TrapRec where
  state : TrapState
  last : Option TrapResult
  results : Byte
  timeouts : Byte
  outcome : Option TrapOutcome
  deriving DecidableEq, Repr

/-! ## The Turntable Drive (chapter 8) -/

/-- A stepping direction (R140). -/
inductive StepDir | forward | reverse
  deriving DecidableEq, Repr

/-- The opposite direction. -/
def StepDir.other : StepDir → StepDir
  | .forward => .reverse
  | .reverse => .forward

/-- Who asked for a move (R142). -/
inductive TurnOrigin
  | host
  | route (r : Fin 64)
  | showing (i : Fin 8)
  deriving DecidableEq, Repr

/-- A move record (R142). The remaining distance is derived from X and T; the phase, the creep count and the rate and
interval in progress stand in the deck's state. -/
structure MoveRec where
  origin : TurnOrigin
  road : Fin 24
  side : DeckEnd
  target : Nat
  dir : StepDir
  distance : Nat
  steps : Nat
  deriving DecidableEq, Repr

/-- The phase of a MOVING deck (R142), each with what runs in it. -/
inductive MovePhase
  | deadtime (expiry : Nat)
  | ramp (rate interval : Nat) (expiry : Nat)
  | reversal (creep : Nat) (expiry : Nat)
  | creep (creep : Nat) (expiry : Nat)
  deriving DecidableEq, Repr

/-- The parts of a homing (R158). -/
inductive HomePart
  | bolt (expiry : Nat)
  | deadtime (expiry : Nat)
  | search (expiry : Nat)
  deriving DecidableEq, Repr

/-- The parts of SETTLING (R152). -/
inductive SettlePart
  | settle (expiry : Nat)
  | relay (expiry : Nat)
  deriving DecidableEq, Repr

/-- A turntable fault (R140). -/
inductive FaultCause | boltOutTimeout | boltInTimeout | indexError | indexNotFound
  deriving DecidableEq, Repr

/-- The deck's state (R140) with what each state holds. -/
inductive DeckState
  | unhomed
  | homing (known : Bool) (steps : Nat) (part : HomePart)
  | idle
  | unlocking (m : MoveRec) (expiry : Nat)
  | moving (m : MoveRec) (phase : MovePhase)
  | settling (m : MoveRec) (part : SettlePart)
  | locking (m : MoveRec) (expiry : Nat)
  | stopped
  | faulted (cause : FaultCause)
  deriving DecidableEq, Repr

/-- How a move ended (R154). -/
inductive TurnOutcome | aligned | stopped | fault
  deriving DecidableEq, Repr

/-- The bolt drive (R141). -/
inductive BoltDrive | off | driveOut | driveIn
  deriving DecidableEq, Repr

/-- The polarity relays: both open, or the one that is closed (R141 never closes both). -/
inductive Relay | bothOpen | normal | reverse
  deriving DecidableEq, Repr

/-- The deck record and the pit's outputs and inputs (R140, R141). -/
structure Deck where
  state : DeckState
  pos : Option Nat
  align : Option DeckReq
  locked : Bool
  lastDir : Option StepDir
  lastOutcome : Option (TurnOutcome × TurnOrigin)
  corrections : Byte
  lastCorrection : Option Int
  stepDir : StepDir
  bolt : BoltDrive
  relay : Relay
  boltOut : Bool
  boltIn : Bool
  deriving DecidableEq, Repr

/-! ## The Panel Bus Master (chapter 9) -/

/-- A module's state (R173). -/
inductive ModuleState | unknown | online | offline
  deriving DecidableEq, Repr

/-- A module's last failure cause (R173). -/
inductive FailCause | noAck | stretch | stuck | mismatch
  deriving DecidableEq, Repr

/-- An image part of a module: its content and pending mark (R174). -/
structure Part where
  content : List Byte
  pending : Bool
  deriving DecidableEq, Repr

/-- A key's debounced state (R173). -/
structure KeyState where
  down : Bool
  count : Nat
  deriving DecidableEq, Repr

/-- A module record (R173). -/
structure ModuleRec where
  state : ModuleState
  consecutive : Nat
  total : Byte
  cause : Option FailCause
  parts : List Part
  lastSent : Option (BitVec 16)
  readBackDue : Bool
  pollDue : Bool
  probeDue : Bool
  proveTimer : Timer
  pollTimer : Timer
  probeTimer : Timer
  keys : Tab KeyState 16
  deriving DecidableEq, Repr

/-- A general call command (R171). -/
inductive GeneralCall | resetOutputs | dangerAll
  deriving DecidableEq, Repr

/-- The service classes in rank order (R176, R177). -/
inductive BusClass | safety | prove | keys | mimic | text
  deriving DecidableEq, Repr

/-- A transaction under way (R168 to R171), with the content that a part write carries; a probe of a MIMIC or TEXT module is such
a write (R179), and any other probe carries none. -/
inductive Transaction
  | call (c : GeneralCall)
  | write (m : Fin 24) (part : Nat) (content : List Byte)
  | probe (m : Fin 24) (content : List Byte)
  | readBack (m : Fin 24)
  | poll (m : Fin 24)
  deriving DecidableEq, Repr

/-- What the bus is doing; a recovery knows whether it was made before a START (R170). -/
inductive BusState
  | free
  | busy (t : Transaction)
  | recovery (beforeStart : Bool)
  deriving DecidableEq, Repr

/-- The bus, the general call list with its attempt counts (R171), and the pending list of each class (R177), by module
index. -/
structure Bus where
  state : BusState
  recovered : Bool
  calls : List (GeneralCall × Nat)
  safety : List (Fin 24)
  prove : List (Fin 24)
  keys : List (Fin 24)
  mimic : List (Fin 24)
  text : List (Fin 24)
  deriving DecidableEq, Repr

/-- The text display (R185, R186). -/
structure TextRec where
  line1 : Text20
  line2 : Text20
  hold : Timer
  deriving DecidableEq, Repr

/-! ## The Show Sequencer (chapter 10) -/

/-- Who started a show (R188). -/
inductive ShowOrigin
  | host
  | key (k : Fin 64)
  deriving DecidableEq, Repr

/-- What a run waits for (R188). -/
inductive WaitKind | none | route | turntable | cue | pause
  deriving DecidableEq, Repr

/-- A run of a show (R188). -/
structure Run where
  origin : ShowOrigin
  step : Nat
  wait : WaitKind
  timer : Timer
  routes : List (Fin 64)
  turnPending : Bool
  deriving DecidableEq, Repr

/-- The refusal reasons (R205). -/
inductive Reason
  | unknownKind | badLength | badValue | wrongMode | notDefined | tableFull | duplicate | busy | locked | occupied
  | queueFull | notEligible | notHomed | invalidLayout
  deriving DecidableEq, Repr

/-- Why a run was aborted (R193). -/
inductive AbortCause
  | refused (r : Reason)
  | timeout
  | routeFreed
  | turntable
  | stopped
  | halted
  deriving DecidableEq, Repr

/-- How the last run ended (R188). -/
inductive LastEnd
  | completed
  | aborted (step : Nat) (cause : AbortCause)
  deriving DecidableEq, Repr

/-- A show's state (R188). -/
inductive ShowState
  | idle
  | queued (origin : ShowOrigin)
  | running (run : Run)
  | aborted
  deriving DecidableEq, Repr

/-- A show record (R188). -/
structure ShowRec where
  state : ShowState
  last : Option LastEnd
  runs : Byte
  deriving DecidableEq, Repr

/-- The last action of a bound key (R183). -/
inductive KeyAct | pressed | released
  deriving DecidableEq, Repr

/-- What a press came to (R195). -/
inductive KeyResult
  | done
  | refused (r : Reason)
  | heldOff
  | none
  deriving DecidableEq, Repr

/-- What the part holds for a key binding (R183, R195, R197). -/
structure KeyRec where
  last : Option KeyAct
  presses : Byte
  result : Option KeyResult
  holdOff : Timer
  deriving DecidableEq, Repr

/-- A key lamp's state (R198). -/
inductive KeyLamp | dark | lit | flashing
  deriving DecidableEq, Repr

/-! ## The Link Port (chapter 11) -/

/-- The tables an INVALID_LAYOUT names (R205). -/
inductive CheckTable | block | point | signal | route | turntable | road | trap | panel | key | led | showing | cue
  deriving DecidableEq, Repr

/-- The body of a reply (R205). -/
inductive Reply
  | ack (payload : List Byte)
  | accepted
  | refused (r : Reason)
  | invalid (t : CheckTable) (index : Nat)
  deriving DecidableEq, Repr

/-- A reply frame in the FIFO (R205, R206). -/
structure ReplyFrame where
  tag : Byte
  reply : Reply
  deriving DecidableEq, Repr

/-- A report subject (R207). -/
inductive Subject
  | layout
  | block (b : Fin 48)
  | point (p : Fin 64)
  | signal (g : Fin 32)
  | route (r : Fin 64)
  | train (t : Fin 24)
  | trap (t : Fin 4)
  | turntable
  | panel (m : Fin 24)
  | showing (i : Fin 8)
  | key (k : Fin 64)
  deriving DecidableEq, Repr

/-- The receive assembler (R202): the bytes of BODY in the order received, the running check, and when the last byte
came. -/
inductive Rx
  | hunt
  | length (lastAt : Nat)
  | body (len : Nat) (got : List Byte) (check : Byte) (lastAt : Nat)
  | check (got : List Byte) (check : Byte) (lastAt : Nat)
  deriving DecidableEq, Repr

/-- The transmitter (R206, R208). The reply being sent is the oldest of the FIFO. -/
inductive Tx
  | free
  | reply
  | report (payload : List Byte)
  deriving DecidableEq, Repr

/-- The Link Port (R202, R206, R207, R210). -/
structure LinkPort where
  rx : Rx
  fifo : List ReplyFrame
  tx : Tx
  reports : List Subject
  resetting : Bool
  deriving DecidableEq, Repr

/-! ## The whole part -/

/-- What a resolved wait of the running show calls for (R192, R193). -/
inductive Wake
  | goOn (i : Fin 8)
  | abort (i : Fin 8) (cause : AbortCause)
  deriving DecidableEq, Repr

/-- The MODEL's own notes on the command in hand, empty between commands: a queue examination is called for (R88), the
running show's wait is resolved (R192, R193), an entry into RUN is in hand (R37). -/
structure Work where
  examine : Bool
  wake : Option Wake
  entering : Bool
  deriving DecidableEq, Repr

/-- The state of the part, and the queue of waiting commands (the MODEL's own). -/
structure State where
  clock : Clock
  mode : Mode
  tables : Tables
  params : Params
  captions : Tab Text20 16
  channels : Tab Channel 48
  contacts : Tab Contact 64
  feeds : Tab Feed 48
  trains : Tab Train 24
  blockFlags : Tab BlockFlags 48
  points : Tab PointRec 64
  groups : Tab GroupRec 8
  routes : Tab RouteRec 64
  queue : List (Fin 64)
  reservers : Tab (Option (Fin 64)) 48
  signals : Tab SignalRec 32
  filters : Tab Filter 8
  traps : Tab TrapRec 4
  deck : Deck
  bus : Bus
  modules : Tab ModuleRec 24
  text : TextRec
  shows : Tab ShowRec 8
  showQueue : List (Fin 8)
  cues : Tab Bool 16
  keys : Tab KeyRec 64
  link : LinkPort
  work : Work
  pending : List Instr
  deriving DecidableEq, Repr

/-! ## Power-on values -/

/-- A channel at power-on (R27). -/
def Channel.initial : Channel := ⟨false, 0, false, false, none⟩

/-- A contact at power-on (R34). -/
def Contact.initial : Contact := ⟨.neither, true, none⟩

/-- A feed at power-on (R35). -/
def Feed.initial : Feed := ⟨.off, false, [], none, none, false⟩

/-- A block's flags at power-on (R47). -/
def BlockFlags.initial : BlockFlags := ⟨none, false⟩

/-- A point at power-on (R65). -/
def PointRec.initial : PointRec := ⟨none, false, false, 0, 0⟩

/-- A drive group at power-on (R67). -/
def GroupRec.initial : GroupRec := ⟨.idle, none, none, [], false, none, none⟩

/-- A signal at power-on (R110). -/
def SignalRec.initial : SignalRec := ⟨.dark, none, false, none, none, 0, none⟩

/-- A trap at power-on (R130). -/
def TrapRec.initial : TrapRec := ⟨.idle, none, 0, 0, none⟩

/-- The deck at power-on (R140); the direction output and the contact levels are log entry 5's. -/
def Deck.initial : Deck :=
  { state := .unhomed, pos := none, align := none, locked := false, lastDir := none, lastOutcome := none,
    corrections := 0, lastCorrection := none, stepDir := .forward, bolt := .off, relay := .bothOpen,
    boltOut := Config.boltContactAtPowerOn, boltIn := Config.boltContactAtPowerOn }

/-- The bus at power-on (R173). -/
def Bus.initial : Bus := ⟨.free, false, [], [], [], [], [], []⟩

/-- A key reading UP (R173). -/
def KeyState.up : KeyState := ⟨false, 0⟩

/-- A module at power-on (R173). -/
def ModuleRec.initial : ModuleRec :=
  { state := .unknown, consecutive := 0, total := 0, cause := none, parts := [], lastSent := none,
    readBackDue := false, pollDue := false, probeDue := false, proveTimer := none, pollTimer := none,
    probeTimer := none, keys := tfill 16 KeyState.up }

/-- The text display at power-on (R185, R186). -/
def TextRec.initial : TextRec := ⟨blankText, blankText, none⟩

/-- A show at power-on (R188). -/
def ShowRec.initial : ShowRec := ⟨.idle, none, 0⟩

/-- A key binding's record at power-on (R183, R195, R197). -/
def KeyRec.initial : KeyRec := ⟨none, 0, none, none⟩

/-- The Link Port at power-on: the report list holds LAYOUT alone (R210). -/
def LinkPort.initial : LinkPort := ⟨.hunt, [], .free, [.layout], false⟩

/-- The work notes between commands. -/
def Work.none : Work := ⟨false, .none, false⟩

/-- The part right after power-on or RESET (R1, R24), with no command waiting. -/
def State.reset : State :=
  { clock := ⟨0, Config.timeBaseAtPowerOn⟩, mode := .config, tables := Tables.empty, params := Params.default,
    captions := tfill 16 blankText, channels := tfill 48 Channel.initial, contacts := tfill 64 Contact.initial,
    feeds := tfill 48 Feed.initial, trains := tfill 24 Train.free, blockFlags := tfill 48 BlockFlags.initial,
    points := tfill 64 PointRec.initial, groups := tfill 8 GroupRec.initial, routes := tfill 64 (.free .none),
    queue := [], reservers := tfill 48 none, signals := tfill 32 SignalRec.initial, filters := tfill 8 Filter.quiet,
    traps := tfill 4 TrapRec.initial, deck := Deck.initial, bus := Bus.initial,
    modules := tfill 24 ModuleRec.initial, text := TextRec.initial, shows := tfill 8 ShowRec.initial,
    showQueue := [], cues := tfill 16 false, keys := tfill 64 KeyRec.initial, link := LinkPort.initial,
    work := Work.none, pending := [] }

end Sys2Proof.Machine
end

