-- ==== Sys2Proof/Machine/Operands.lean ====
section
/-! DEFINITION. The operand forms: reading the fields of a request as it was sent into the values of the manual. Each
reader answers none where the field lies outside its range, which its request refuses with BAD_VALUE (R2, R204). -/

namespace Sys2Proof.Machine

/-- A required field that names one of a list. -/
def Sent.required {α : Type} : Sent α → Option α
  | .value a => some a
  | _ => none

/-- A field that takes a default when it is left out (R2). -/
def Sent.orDefault {α : Type} (d : α) : Sent α → Option α
  | .omitted => some d
  | .value a => some a
  | .unlisted => none

/-- A number within a range. -/
def inRange (lo hi n : Nat) : Option Nat := if lo ≤ n ∧ n ≤ hi then some n else none

/-- A number with a default, within a range (R2). -/
def Sent.inRangeOr (d lo hi : Nat) (x : Sent Nat) : Option Nat := do
  let n ← Sent.orDefault d x
  inRange lo hi n

/-- An optional part: absent, or present and read by `f` (R203). -/
def Sent.optional {α β : Type} (f : α → Option β) : Sent α → Option (Option β)
  | .omitted => some none
  | .value a => (f a).map some
  | .unlisted => none

/-- Every entry of a list, read by `f`. -/
def readAll {α β : Type} (f : α → Option β) : List α → Option (List β)
  | [] => some []
  | a :: l => do
    let b ← f a
    let bs ← readAll f l
    some (b :: bs)

/-- A list of at most `n` entries, read by `f` (R7). -/
def readList {α β : Type} (lo n : Nat) (f : α → Option β) (l : List α) : Option (List β) :=
  if lo ≤ l.length ∧ l.length ≤ n then readAll f l else none

/-- A link (R4, R5). -/
def readLink : RawLink → Option Link
  | .noLink => some .noLink
  | .blockEnd b e => do return .blockEnd (← index? 48 b) (← Sent.required e)
  | .pointLeg p g => do return .pointLeg (← index? 64 p) (← Sent.required g)
  | .unlisted => none

/-- A block kind (R4). -/
def readKind : RawKind → Option BlockKind
  | .plain => some .plain
  | .stop g => (index? 32 g).map .stop
  | .deck => some .deck

/-- The fields of a block entry (R4). -/
def readBlock (d : DefBlock) : Option BlockDef := do
  let kind ← (← Sent.required d.kind) |> readKind
  let link0 ← readLink d.link0
  let link1 ← readLink d.link1
  let threshold ← Sent.inRangeOr 40 1 254 d.threshold
  let hysteresis ← Sent.inRangeOr 8 0 63 d.hysteresis
  let dwellOn ← Sent.inRangeOr 3 1 15 d.dwellOn
  let dwellOff ← Sent.inRangeOr 12 1 63 d.dwellOff
  let kill ← Sent.orDefault .auto d.kill
  let restartGroup ← Sent.inRangeOr 0 0 7 d.restartGroup
  return { kind, link0, link1, threshold, hysteresis, dwellOn, dwellOff, kill, restartGroup }

/-- The fields of a point entry (R5). -/
def readPoint (d : DefPoint) : Option PointDef := do
  let toe ← readLink d.toe
  let normal ← readLink d.normal
  let reverse ← readLink d.reverse
  let group ← index? 8 d.group
  let feedback ← Sent.orDefault .none d.feedback
  let home ← Sent.orDefault .asFound d.home
  return { toe, normal, reverse, group, feedback, home }

/-- The fields of a group profile (R5). -/
def readGroup (d : DefGroup) : Option GroupDef := do
  let setup ← Sent.inRangeOr 20 0 250 d.setup
  let pulse ← Sent.inRangeOr 100 10 1000 d.pulse
  let recovery ← Sent.inRangeOr 400 0 5000 d.recovery
  let window ← Sent.inRangeOr 1000 100 5000 d.window
  return { setup, pulse, recovery, window }

/-- The fields of a signal entry (R6): the first output is a multiple of 4 up to 12. -/
def readSignal (d : DefSignal) : Option SignalDef := do
  let block ← index? 48 d.block
  let stands ← Sent.required d.stands
  let aspects ← inRange 2 4 d.aspects
  let lampModule ← index? 24 d.lampModule
  let firstOutput ← inRange 0 12 d.firstOutput
  if firstOutput % 4 = 0 then return { block, stands, aspects, lampModule, firstOutput } else none

/-- An entry of a point list of a route with `n` path blocks: the release index is less than `n` (R7). -/
def readPointReq (n : Nat) (d : RawPointReq) : Option PointReq := do
  let point ← index? 64 d.point
  let lie ← Sent.required d.lie
  if d.release < n ∧ d.release ≤ 7 then return { point, lie, release := d.release } else none

/-- An entry of a flank list (R7). -/
def readFlankReq (d : RawFlankReq) : Option FlankReq := do
  let point ← index? 64 d.point
  let lie ← Sent.required d.lie
  return { point, lie }

/-- A turntable requirement (R7). -/
def readDeckReq (d : RawDeckReq) : Option DeckReq := do
  let road ← index? 24 d.road
  let side ← Sent.required d.side
  return { road, side }

/-- Approach control (R7). -/
def readApproach (d : RawApproach) : Option ApproachDef := do
  let limit ← inRange 1 9999 d.limit
  let trap ← index? 4 d.trap
  let release ← inRange 1 240 d.release
  return { limit, trap, release }

/-- The fields of a route entry (R7). -/
def readRoute (d : DefRoute) : Option RouteDef := do
  let entrance ← index? 32 d.entrance
  let exit ← match d.exit with
    | none => some none
    | some n => (index? 32 n).map some
  let path ← readList 1 8 (index? 48) d.path
  let points ← readList 0 8 (readPointReq d.path.length) d.points
  let flank ← readList 0 4 readFlankReq d.flank
  let overlap ← readList 0 2 (index? 48) d.overlap
  let turntable ← Sent.optional readDeckReq d.turntable
  let approach ← Sent.optional readApproach d.approach
  let visitor ← Sent.orDefault false d.visitor
  return { entrance, exit, path, points, flank, overlap, turntable, approach, visitor }

/-- The fields of the turntable entry (R8): R is even and v_max is not below v_min. -/
def readTurntable (d : DefTurntable) : Option TurntableDef := do
  let r ← inRange 1600 64000 d.r
  let vMin ← inRange 16 2000 d.vMin
  let vMax ← inRange vMin 20000 d.vMax
  let increment ← inRange 1 500 d.increment
  let barrier ← Sent.orDefault false d.barrier
  let tolerance ← inRange 0 255 d.tolerance
  let homeAtStart ← Sent.orDefault false d.homeAtStart
  let settle ← Sent.inRangeOr 300 0 2000 d.settle
  let bolt ← Sent.inRangeOr 1500 100 5000 d.bolt
  let deadtime ← Sent.inRangeOr 100 10 500 d.deadtime
  let deckBlock ← index? 48 d.deckBlock
  if r % 2 = 0 then
    return { r, vMin, vMax, increment, barrier, tolerance, homeAtStart, settle, bolt, deadtime, deckBlock }
  else none

/-- The fields of a road entry (R8). -/
def readRoad (d : DefRoad) : Option RoadDef := do
  let position ← inRange 0 64000 d.position
  let block ← index? 48 d.block
  return { position, block }

/-- The fields of a trap entry (R9). -/
def readTrap (d : DefTrap) : Option TrapDef := do
  let distance ← inRange 10 2000 d.distance
  let edges ← Sent.inRangeOr 1 1 8 d.edges
  let quiet ← Sent.inRangeOr 50 5 500 d.quiet
  let block ← index? 48 d.block
  let abEnd ← Sent.required d.abEnd
  return { distance, edges, quiet, block, abEnd }

/-- The fields of a module entry (R9). -/
def readModule (d : DefModule) : Option ModuleDef := do
  let address ← inRange 8 119 d.address
  let type ← Sent.required d.type
  return { address, type }

/-- A key action (R10). -/
def readAction : RawAction → Option KeyAction
  | .startShow i => (index? 8 i).map .startShow
  | .visitorRoute r => (index? 64 r).map .visitorRoute
  | .emergency => some .emergency
  | .none => some .none

/-- The fields of a key binding (R10). -/
def readKey (d : DefKey) : Option KeyDef := do
  let panel ← index? 24 d.panel
  let key ← index? 16 d.key
  let action ← (← Sent.required d.action) |> readAction
  return { panel, key, action }

/-- The fields of an LED slot: the index lies in its kind's range (R10). -/
def readLed (d : DefLed) : Option LedDef := do
  match ← Sent.required d.kind with
  | .blockOcc => (index? 48 d.index).map .blockOcc
  | .blockRes => (index? 48 d.index).map .blockRes
  | .pointN => (index? 64 d.index).map .pointN
  | .pointR => (index? 64 d.index).map .pointR
  | .signalProceed => (index? 32 d.index).map .signalProceed
  | .road => (index? 24 d.index).map .road
  | .showing => (index? 8 d.index).map .showing

/-- A cue selector other than NONE (R10). -/
def readSelector : RawSelector → Option Selector
  | .blockOccupied b => (index? 48 b).map .blockOccupied
  | .blockCleared b => (index? 48 b).map .blockCleared
  | .trapResult t => (index? 4 t).map .trapResult
  | .turntableAligned => some .turntableAligned
  | .routeEntered r => (index? 64 r).map .routeEntered
  | .routeFreed r => (index? 64 r).map .routeFreed
  | .key m k => do return .key (← index? 24 m) (← index? 16 k)

/-- The field of a cue entry; left out, it is NONE (R10). -/
def readCue (d : DefCue) : Option Selector :=
  match d.selector with
  | .omitted => some .none
  | .value x => readSelector x
  | .unlisted => none

/-- A show step, its operands in the ranges of R11. -/
def readStep : RawStep → Option Step
  | .route r => (index? 64 r).map .route
  | .turn road e => do return .turn (← index? 24 road) (← Sent.required e)
  | .waitRoute r t timeout => do
    return .waitRoute (← index? 64 r) (← Sent.required t) (← inRange 0 600 timeout)
  | .waitTurntable timeout => (inRange 0 600 timeout).map .waitTurntable
  | .waitCue c timeout => do return .waitCue (← index? 16 c) (← inRange 0 600 timeout)
  | .pause ms => (inRange 1 60000 ms).map .pause
  | .clearCue c => (index? 16 c).map .clearCue
  | .caption k => (index? 16 k).map .caption
  | .cancel r => (index? 64 r).map .cancel
  | .finish => some .finish

/-- A value clamped to a range (R13). -/
def clampTo (lo hi n : Nat) : Nat := max lo (min hi n)

/-- The range of a parameter (R13); the display trap is treated apart. -/
def ParamName.range : ParamName → Nat × Nat
  | .stackTimeout => (0, 600)
  | .approachLock => (1, 240)
  | .overlapRelease => (1, 60)
  | .adoptionWindow => (1, 60)
  | .coolTime => (500, 10000)
  | .tripWindow => (1, 60)
  | .tripsToLatch => (1, 5)
  | .restartStagger => (20, 1000)
  | .showHoldOff => (0, 600)
  | .keyPollPeriod => (20, 200)
  | .lampProvePeriod => (100, 1000)
  | .speedHold => (5, 120)
  | .scaleDivisor => (1, 220)
  | .displayTrap => (0, 3)

/-- The value of NONE for the display trap as it is sent (R205). -/
def displayTrapNone : Nat := 0xFFFF

/-- The parameter set with one parameter replaced by the value used, and that value (R13). -/
def Params.put (p : Params) (x : ParamName) (value : Nat) : Params × Nat :=
  let v := clampTo (ParamName.range x).1 (ParamName.range x).2 value
  match x with
  | .stackTimeout => ({ p with stackTimeout := v }, v)
  | .approachLock => ({ p with approachLock := v }, v)
  | .overlapRelease => ({ p with overlapRelease := v }, v)
  | .adoptionWindow => ({ p with adoptionWindow := v }, v)
  | .coolTime => ({ p with coolTime := v }, v)
  | .tripWindow => ({ p with tripWindow := v }, v)
  | .tripsToLatch => ({ p with tripsToLatch := v }, v)
  | .restartStagger => ({ p with restartStagger := v }, v)
  | .showHoldOff => ({ p with showHoldOff := v }, v)
  | .keyPollPeriod => ({ p with keyPollPeriod := v }, v)
  | .lampProvePeriod => ({ p with lampProvePeriod := v }, v)
  | .speedHold => ({ p with speedHold := v }, v)
  | .scaleDivisor => ({ p with scaleDivisor := v }, v)
  | .displayTrap =>
    match index? 4 value with
    | some t => ({ p with displayTrap := some t }, value)
    | none => ({ p with displayTrap := none }, displayTrapNone)

/-- Whether every code is a printable character, 0x20 to 0x7E (R12, R185). -/
def printable (l : List Byte) : Bool := l.all fun c => 0x20 ≤ c.toNat && c.toNat ≤ 0x7E

/-- The lie a contact value names; any value outside 0–2 is taken as NEITHER (R25). -/
def readContact (v : Byte) : Reading :=
  if v = 1 then .normal else if v = 2 then .reverse else .neither

/-- The reading that a lie gives on a contact. -/
def Lie.reading : Lie → Reading
  | .normal => .normal
  | .reverse => .reverse

/-- The lie a reading names, NEITHER naming none. -/
def Reading.lie : Reading → Option Lie
  | .neither => none
  | .normal => some .normal
  | .reverse => some .reverse

end Sys2Proof.Machine
end

