-- ==== Sys2Proof/Machine/Ops.lean ====
section
/-! DEFINITION. The shared operations on the state: the clock, the updates of one record, marking a subject, and
queueing a reply. -/

namespace Sys2Proof.Machine

/-! ## The clock (chapter 0, Time) -/

/-- Time passes by `dt` µs. -/
def State.advance (s : State) (dt : Nat) : State :=
  { s with clock := ⟨s.clock.us + dt, s.clock.base + BitVec.ofNat 32 dt⟩ }

/-- Time passes up to the clock reading `t`, where it has not passed it already: the command in hand reports a timer's
expiry at `t` (log entry 1). -/
def State.advanceTo (s : State) (t : Nat) : State := s.advance (t - s.clock.us)

/-- Time passes up to the stamp `t` of the time base, where `t` lies ahead (within half the base's range). -/
def State.advanceToStamp (s : State) (t : Stamp) : State :=
  let d := (t - s.clock.base).toNat
  if d < 2 ^ 31 then s.advance d else s

/-- The reading of the 48-bit millisecond count. -/
def State.ms (s : State) : MsCount := BitVec.ofNat 48 (s.clock.us / 1000)

/-- The age of a recorded reading, in ms: "the present reading less a recorded one". -/
def State.ageOf (s : State) (t : MsCount) : Nat := (s.ms - t).toNat

/-- The expiry of a timer of `ms` that starts now. -/
def State.after (s : State) (ms : Nat) : Nat := s.clock.us + 1000 * ms

/-- The expiry of a timer of `us` µs that starts now. -/
def State.afterUs (s : State) (us : Nat) : Nat := s.clock.us + us

/-- The ms left of a timer that expires at `t`, as a report carries them: a part of a ms is dropped (log entry 28, DESIGN
CHOICE). -/
def State.remaining (s : State) (t : Nat) : Nat := (t - s.clock.us) / 1000

/-! ## Updates of one record -/

/-- Change one detection channel. -/
def State.updChannel (s : State) (b : Fin 48) (f : Channel → Channel) : State :=
  { s with channels := tupd s.channels b f }

/-- Change one contact. -/
def State.updContact (s : State) (p : Fin 64) (f : Contact → Contact) : State :=
  { s with contacts := tupd s.contacts p f }

/-- Change one feed. -/
def State.updFeed (s : State) (b : Fin 48) (f : Feed → Feed) : State :=
  { s with feeds := tupd s.feeds b f }

/-- Replace one train record. -/
def State.putTrain (s : State) (t : Fin 24) (x : Train) : State :=
  { s with trains := tset s.trains t x }

/-- Change one block's flags. -/
def State.updFlags (s : State) (b : Fin 48) (f : BlockFlags → BlockFlags) : State :=
  { s with blockFlags := tupd s.blockFlags b f }

/-- Change one point record. -/
def State.updPoint (s : State) (p : Fin 64) (f : PointRec → PointRec) : State :=
  { s with points := tupd s.points p f }

/-- Change one drive group. -/
def State.updGroup (s : State) (g : Fin 8) (f : GroupRec → GroupRec) : State :=
  { s with groups := tupd s.groups g f }

/-- Replace one route record. -/
def State.putRoute (s : State) (r : Fin 64) (x : RouteRec) : State :=
  { s with routes := tset s.routes r x }

/-- Replace one block's reserver. -/
def State.putReserver (s : State) (b : Fin 48) (x : Option (Fin 64)) : State :=
  { s with reservers := tset s.reservers b x }

/-- Change one signal record. -/
def State.updSignal (s : State) (g : Fin 32) (f : SignalRec → SignalRec) : State :=
  { s with signals := tupd s.signals g f }

/-- Replace one gate filter. -/
def State.putFilter (s : State) (g : Fin 8) (x : Filter) : State :=
  { s with filters := tset s.filters g x }

/-- Change one trap record. -/
def State.updTrap (s : State) (t : Fin 4) (f : TrapRec → TrapRec) : State :=
  { s with traps := tupd s.traps t f }

/-- Change the deck record. -/
def State.updDeck (s : State) (f : Deck → Deck) : State := { s with deck := f s.deck }

/-- Change the bus. -/
def State.updBus (s : State) (f : Bus → Bus) : State := { s with bus := f s.bus }

/-- Change one module record. -/
def State.updModule (s : State) (m : Fin 24) (f : ModuleRec → ModuleRec) : State :=
  { s with modules := tupd s.modules m f }

/-- Change one show record. -/
def State.updShow (s : State) (i : Fin 8) (f : ShowRec → ShowRec) : State :=
  { s with shows := tupd s.shows i f }

/-- Change one key binding's record. -/
def State.updKey (s : State) (k : Fin 64) (f : KeyRec → KeyRec) : State :=
  { s with keys := tupd s.keys k f }

/-- Change the Link Port. -/
def State.updLink (s : State) (f : LinkPort → LinkPort) : State := { s with link := f s.link }

/-- Change the work notes. -/
def State.updWork (s : State) (f : Work → Work) : State := { s with work := f s.work }

/-- Call for a queue examination (R88). -/
def State.callExamine (s : State) : State := s.updWork fun w => { w with examine := true }

/-! ## Marks (R207) -/

/-- Mark a subject: it joins the report list at the tail, or keeps its place. -/
def State.mark (s : State) (x : Subject) : State :=
  s.updLink fun l => { l with reports := joinTail l.reports x }

/-- Mark several subjects in order. -/
def State.markAll (s : State) (xs : List Subject) : State := xs.foldl State.mark s

/-- Take a subject out of the report list (R209). -/
def State.unmark (s : State) (x : Subject) : State :=
  s.updLink fun l => { l with reports := l.reports.filter fun y => y != x }

/-! ## Replies (R204 to R206) -/

/-- The transmitter, when free, takes up the oldest reply (R206). -/
def LinkPort.startReply (l : LinkPort) : LinkPort :=
  match l.tx, l.fifo with
  | .free, _ :: _ => { l with tx := .reply }
  | _, _ => l

/-- Queue a reply at the tail of the FIFO (R204, R206). -/
def State.pushReply (s : State) (tag : Byte) (r : Reply) : State :=
  s.updLink fun l => LinkPort.startReply { l with fifo := l.fifo ++ [⟨tag, r⟩] }

/-- The empty ACK. -/
def Reply.done : Reply := .ack []

/-- A complete frame takes the receive assembler back to HUNT (R202). -/
def State.frameTaken (s : State) : State := s.updLink fun l => { l with rx := .hunt }

/-- Whether a complete frame is discarded unexamined: the FIFO is full (R204), or a RESET waits to take effect (R210). -/
def State.discards (s : State) : Bool :=
  s.link.resetting || decide (Config.fifoRoom ≤ s.link.fifo.length)

/-- The examination of a complete frame of a kind in the request table (R204): it is discarded, refused for its length or
its tag, or handed to the block that owns it, whose reply is queued in the same event. -/
def State.examineBody {α : Type} (s : State) (tag : Byte) (body : Body α) (take : α → State → State × Reply) : State :=
  if s.discards then s
  else
    match body with
    | .wrongLength => s.pushReply tag (.refused .badLength)
    | .fields a =>
      if tag = 0 then s.pushReply tag (.refused .badValue)
      else
        let x := take a s
        x.1.pushReply tag x.2

/-- A request as a command: time passes, and its frame is complete (log entry 12). -/
def State.request {α : Type} (s : State) (dt : Nat) (tag : Byte) (body : Body α)
    (take : α → State → State × Reply) : Host.Outcome State Fault Refusal :=
  .next ((s.advance dt).frameTaken.examineBody tag body take)

/-- A refusal: the block's state is as it was (R205). -/
def State.refuse (s : State) (r : Reason) : State × Reply := (s, .refused r)

end Sys2Proof.Machine
end

