-- ==== Sys2Proof/Machine/Flags.lean ====
section
/-! DEFINITION. The derived conditions of the manual, each computed from the standing state: what a table entry is,
whether a block is clear, a point proved, the deck joined, a feed demanded, HOLD asserted; and the walk that resolves
a block end. -/

namespace Sys2Proof.Machine

/-! ## Table entries -/

/-- The block entry. -/
def State.blockDef (s : State) (b : Fin 48) : Option BlockDef := tget s.tables.blocks b
/-- The point entry. -/
def State.pointDef (s : State) (p : Fin 64) : Option PointDef := tget s.tables.points p
/-- The signal entry. -/
def State.signalDef (s : State) (g : Fin 32) : Option SignalDef := tget s.tables.signals g
/-- The route entry. -/
def State.routeDef (s : State) (r : Fin 64) : Option RouteDef := tget s.tables.routes r
/-- The road entry. -/
def State.roadDef (s : State) (r : Fin 24) : Option RoadDef := tget s.tables.roads r
/-- The trap entry. -/
def State.trapDef (s : State) (t : Fin 4) : Option TrapDef := tget s.tables.traps t
/-- The module entry. -/
def State.moduleDef (s : State) (m : Fin 24) : Option ModuleDef := tget s.tables.modules m
/-- The key binding entry. -/
def State.keyDef (s : State) (k : Fin 64) : Option KeyDef := tget s.tables.keys k
/-- The steps of a show; a show with none is undefined (R11). -/
def State.showSteps (s : State) (i : Fin 8) : List Step := tget s.tables.shows i
/-- Whether a show is defined (R11). -/
def State.showDefined (s : State) (i : Fin 8) : Bool := !(s.showSteps i).isEmpty

/-- The link at an end of a block. -/
def BlockDef.link (d : BlockDef) : Side → Link
  | .e0 => d.link0
  | .e1 => d.link1

/-- The link at a leg of a point. -/
def PointDef.link (d : PointDef) : Leg → Link
  | .toe => d.toe
  | .normal => d.normal
  | .reverse => d.reverse

/-- The pit end of a road block: END_0 when that end's link is NONE, otherwise END_1 (R8). -/
def BlockDef.pitEnd (d : BlockDef) : Side := if d.link0 = .noLink then .e0 else .e1

/-- The leg blocks of a point (R78). -/
def PointDef.legBlocks (d : PointDef) : List (Fin 48) :=
  [d.toe, d.normal, d.reverse].filterMap fun l =>
    match l with
    | .blockEnd b _ => some b
    | _ => none

/-! ## Detection, trains, clear -/

/-- Whether a block's channel reads OCCUPIED. -/
def State.occupied (s : State) (b : Fin 48) : Bool := (tget s.channels b).occupied

/-- Whether a block's channel reads OCCUPIED or is held (R51, R97, R103). -/
def State.occupiedOrHeld (s : State) (b : Fin 48) : Bool :=
  (tget s.channels b).occupied || (tget s.channels b).held

/-- The block list of a train record; empty unless ACTIVE (R46). -/
def Train.blocks : Train → List TrainBlock
  | .active _ l _ _ => l
  | _ => []

/-- The number of a train record that is not FREE (R46). -/
def Train.number : Train → Option Nat
  | .free => none
  | .active n _ _ _ => some n
  | .lost n _ _ _ => some n

/-- The slot whose block list contains the block (R47). -/
def State.holder (s : State) (b : Fin 48) : Option (Fin 24) :=
  (indices 24).find? fun t => (Train.blocks (tget s.trains t)).any fun x => x.block == b

/-- Whether a block is clear: its channel reads CLEAR, it is in no train's list, and it is not stray (R47). -/
def State.isClear (s : State) (b : Fin 48) : Bool :=
  !s.occupied b && (s.holder b).isNone && (tget s.blockFlags b).stray.isNone

/-! ## Points -/

/-- The feedback mode of a point; NONE while it is undefined. -/
def State.feedback (s : State) (p : Fin 64) : Feedback :=
  match s.pointDef p with
  | some d => d.feedback
  | none => .none

/-- The lie a point's group is moving it to, until that move is decided (R65). -/
def State.movingTarget (s : State) (p : Fin 64) : Option Lie :=
  match s.pointDef p with
  | none => none
  | some d =>
    let g := tget s.groups d.group
    match g.current with
    | some m => if m.point = p ∧ g.outcome = none then some m.target else none
    | none => none

/-- The target of a point's entry in its group's move queue (R65). -/
def State.queuedTarget (s : State) (p : Fin 64) : Option Lie :=
  match s.pointDef p with
  | none => none
  | some d => ((tget s.groups d.group).queue.find? fun e => e.1 == p).map (·.2)

/-- Whether a point is at rest: its motion is not MOVING (R65). -/
def State.atRest (s : State) (p : Fin 64) : Bool := (s.movingTarget p).isNone

/-- Whether a contact reads a lie: its latest reading is that lie and it is not stale (R66). -/
def State.contactReads (s : State) (p : Fin 64) (l : Lie) : Bool :=
  let c := tget s.contacts p
  !c.stale && c.reading == Lie.reading l

/-- Whether a point is proved in a lie (R77). -/
def State.provedIn (s : State) (p : Fin 64) (l : Lie) : Bool :=
  let r := tget s.points p
  r.lie == some l && s.atRest p && !r.failed && (s.feedback p == .none || s.contactReads p l)

/-- The proof status of a point: PROVED_NORMAL, PROVED_REVERSE, or none for UNPROVED (R77). -/
def State.proof (s : State) (p : Fin 64) : Option Lie :=
  if s.provedIn p .normal then some .normal else if s.provedIn p .reverse then some .reverse else none

/-- Whether a point must change lie for a route that requires `l` (R89). -/
def State.mustChange (s : State) (p : Fin 64) (l : Lie) : Bool :=
  (tget s.points p).lie != some l || s.movingTarget p == some (Lie.other l) || s.queuedTarget p == some (Lie.other l)

/-- Whether every leg block of a point is clear (R79, R89). -/
def State.legsClear (s : State) (p : Fin 64) : Bool :=
  match s.pointDef p with
  | none => true
  | some d => d.legBlocks.all s.isClear

/-! ## Routes -/

/-- Whether a route record holds elements (R85). -/
def RouteRec.holds : RouteRec → Bool
  | .setting .. => true
  | .isSet .. => true
  | .entered .. => true
  | .cancelling .. => true
  | _ => false

/-- Whether a route record is FREE. -/
def RouteRec.isFree : RouteRec → Bool
  | .free _ => true
  | _ => false

/-- The released marks of a route that holds elements (R84). -/
def RouteRec.marks : RouteRec → Option Marks
  | .setting _ m => some m
  | .isSet _ _ m => some m
  | .entered _ _ m => some m
  | .cancelling _ m => some m
  | _ => none

/-- The blocks a route reserves: its path blocks, then its overlap blocks (R85). -/
def RouteDef.blocks (d : RouteDef) : List (Fin 48) := d.path ++ d.overlap

/-- The points a route locks with the lie it requires: its point list, then its flank list (R85). -/
def RouteDef.locks (d : RouteDef) : List (Fin 64 × Lie) :=
  d.points.map (fun x => (x.point, x.lie)) ++ d.flank.map (fun x => (x.point, x.lie))

/-- Whether path block `k` is released. -/
def Marks.released (m : Marks) (k : Nat) : Bool := m.path.getD k true

/-- Whether the last path block is released. -/
def Marks.lastReleased (m : Marks) : Bool := m.path.getLastD true

/-- Whether everything a route holds is released (R100). -/
def Marks.all (m : Marks) : Bool := m.path.all id && m.overlap

/-- The points a route with these marks still locks: a point of the point list until its release index's block is
released, a flank point until the last path block is (R98, R103). -/
def RouteDef.stillLocked (d : RouteDef) (m : Marks) : List (Fin 64 × Lie) :=
  (d.points.filter fun x => !m.released x.release).map (fun x => (x.point, x.lie)) ++
    (if m.lastReleased then [] else d.flank.map fun x => (x.point, x.lie))

/-- The points, with their required lies, that route `r` locks at this moment (R85). -/
def State.lockedBy (s : State) (r : Fin 64) : List (Fin 64 × Lie) :=
  match s.routeDef r, (tget s.routes r).marks with
  | some d, some m => d.stillLocked m
  | _, _ => []

/-- The class of a QUEUED route. -/
def State.queuedClass (s : State) (r : Fin 64) : Option RouteClass :=
  match tget s.routes r with
  | .queued c _ => some c
  | _ => none

/-! ## The turntable -/

/-- The block on the deck, while the turntable is defined (R8). -/
def State.deckBlock (s : State) : Option (Fin 48) := s.tables.turntable.map (·.deckBlock)

/-- The road opposite a road: the one, if any, at (P + R/2) mod R (R8). Where several roads stand there, which R18 refuses only
after the routes are checked, the one of lowest index (log entry 27, DESIGN CHOICE). -/
def Tables.opposite (t : Tables) (road : Fin 24) : Option (Fin 24) :=
  match t.turntable, tget t.roads road with
  | some tt, some d =>
    (indices 24).find? fun q =>
      match tget t.roads q with
      | some e => e.position == (d.position + tt.r / 2) % tt.r
      | none => false
  | _, _ => none

/-- The road that an end of the deck faces while it is aligned with a road and end (R49). -/
def Tables.facedRoad (t : Tables) (al : DeckReq) (e : DeckEnd) : Option (Fin 24) :=
  if al.side = e then (tget t.roads al.road).map fun _ => al.road else t.opposite al.road

/-- The deck end at an end of the deck block: END_0 is end A, END_1 is end B (R49). -/
def Side.deckEnd : Side → DeckEnd
  | .e0 => .a
  | .e1 => .b

/-- The end of the deck block at an end of the deck. -/
def DeckEnd.side : DeckEnd → Side
  | .a => .e0
  | .b => .e1

/-- Beyond an end of the deck block, for an alignment: the road block the end faces, entered by its pit end (R49). -/
def Tables.fromDeck (t : Tables) (al : DeckReq) (e : Side) : Option (Fin 48 × Side) := do
  let q ← t.facedRoad al (Side.deckEnd e)
  let road ← tget t.roads q
  let d ← tget t.blocks road.block
  return (road.block, d.pitEnd)

/-- The road whose road block's pit end this is (R8). Where several roads name one road block, which R18 refuses only after the
routes are checked, the one of lowest index (log entry 27, DESIGN CHOICE). -/
def Tables.pitRoad (t : Tables) (b : Fin 48) (e : Side) : Option (Fin 24) :=
  (indices 24).find? fun q =>
    match tget t.roads q, tget t.blocks b with
    | some road, some d => road.block == b && d.pitEnd == e
    | _, _ => false

/-- Beyond the pit end of road `q`'s block, for an alignment: the deck block, entered by the end that faces the road
(R49). -/
def Tables.toDeck (t : Tables) (al : DeckReq) (q : Fin 24) : Option (Fin 48 × Side) := do
  let tt ← t.turntable
  if t.facedRoad al .a = some q then return (tt.deckBlock, .e0)
  else if t.facedRoad al .b = some q then return (tt.deckBlock, .e1)
  else none

/-- The alignment while the deck is joined: IDLE, aligned and locked (R49). -/
def Deck.joined (d : Deck) : Option DeckReq :=
  match d.state with
  | .idle => if d.locked then d.align else none
  | _ => none

/-- Whether the deck is IDLE, aligned with this road and end, and locked (R90, R92). -/
def Deck.at' (d : Deck) (q : DeckReq) : Bool := d.joined == some q

/-! ## The walk (R48, R49) -/

/-- Follow a link through at most `n` points, `exit` giving the leg by which a point entered by a leg is left. -/
def Tables.follow (t : Tables) (exit : Fin 64 → Leg → Option Leg) : Nat → Link → Option (Fin 48 × Side)
  | _, .noLink => none
  | _, .blockEnd b e => some (b, e)
  | 0, .pointLeg _ _ => none
  | n + 1, .pointLeg p g => do
    let d ← tget t.points p
    let out ← exit p g
    t.follow exit n (d.link out)

/-- The leg by which a point in a lie is left when entered by a leg (R17, R48). -/
def Lie.through (l : Lie) (g : Leg) : Option Leg :=
  if g = .toe then some (Lie.leg l) else if g = Lie.leg l then some .toe else none

/-- The leg by which a point is left as it now lies: none while it is MOVING, UNKNOWN or failed (R48). -/
def State.pointExit (s : State) (p : Fin 64) (g : Leg) : Option Leg :=
  let r := tget s.points p
  if !s.atRest p || r.failed then none
  else
    match r.lie with
    | some l => Lie.through l g
    | none => none

/-- The neighbour across an end of a block, and the end by which it is entered (R48, R49). -/
def State.neighbour (s : State) (b : Fin 48) (e : Side) : Option (Fin 48 × Side) :=
  if s.deckBlock = some b then (s.deck.joined).bind fun al => s.tables.fromDeck al e
  else
    match s.tables.pitRoad b e with
    | some q => (s.deck.joined).bind fun al => s.tables.toDeck al q
    | none =>
      match s.blockDef b with
      | some d => s.tables.follow s.pointExit Config.walkPoints (d.link e)
      | none => none

/-! ## Signals and feeds -/

/-- Whether an aspect is a proceed aspect. -/
def Aspect.proceed : Aspect → Bool
  | .caution => true
  | .prelim => true
  | .clear => true
  | _ => false

/-- Whether a module is ONLINE. -/
def State.online (s : State) (m : Fin 24) : Bool := (tget s.modules m).state == .online

/-- Whether a feed state holds its channel (R29). -/
def FeedState.holds : FeedState → Bool
  | .tripped => true
  | .cooling => true
  | .latched => true
  | _ => false

/-- The stop demand of a signal (R121). -/
def State.stopDemand (s : State) (g : Fin 32) : Bool := (tget s.signals g).aspect.proceed

/-- The deck demand (R36, R166). -/
def State.deckDemand (s : State) : Bool := s.deck.joined.isSome

/-- Whether a feed is demanded ON (R36). -/
def State.feedDemand (s : State) (b : Fin 48) : Bool :=
  s.mode == .run && !(tget s.feeds b).isolated &&
    match s.blockDef b with
    | none => false
    | some d =>
      match d.kind with
      | .plain => true
      | .stop g => s.stopDemand g
      | .deck => s.deckDemand

/-! ## Shows and keys -/

/-- The RUNNING show and its run (R188: at most one). -/
def State.runningShow (s : State) : Option (Fin 8 × Run) :=
  (indices 8).findSome? fun i =>
    match (tget s.shows i).state with
    | .running r => some (i, r)
    | _ => none

/-- The step a run stands at. -/
def State.currentStep (s : State) (i : Fin 8) (r : Run) : Option Step := (s.showSteps i)[r.step]?

/-- A key binding's lamp (R198). R198 keeps a lamp state for defined bindings only; a binding that is not defined answers DARK
(log entry 29, DESIGN CHOICE). -/
def State.keyLamp (s : State) (k : Fin 64) : KeyLamp :=
  match s.keyDef k with
  | none => .dark
  | some d =>
    if s.mode = .config then .dark
    else
      match d.action with
      | .startShow i =>
        if (tget s.keys k).holdOff.isSome then .dark
        else if s.mode.isHalt then .dark
        else
          match (tget s.shows i).state with
          | .running _ => .flashing
          | .queued _ => .flashing
          | _ => .lit
      | .visitorRoute r =>
        if s.mode.isHalt then .dark
        else
          match tget s.routes r with
          | .queued .. => .flashing
          | .setting .. => .flashing
          | _ => .lit
      | .emergency => if s.mode.isHalt then .flashing else .lit
      | .none => .dark

/-! ## The link -/

/-- The HOLD line (R206). -/
def State.hold (s : State) : Bool := decide (Config.holdAt ≤ s.link.fifo.length)

/-- A group's coil strobe: energised only in PULSE, toward the current move's target (R67). -/
def GroupRec.strobe (g : GroupRec) : Option (Fin 64 × Lie) :=
  match g.phase, g.current with
  | .pulse, some m => some (m.point, m.target)
  | _, _ => none

end Sys2Proof.Machine
end

