-- ==== Sys2Proof/Machine/Images.lean ====
section
/-! DEFINITION. What the panel shows (chapter 9): the contents of the image parts, their pending marks, and the pending lists
brought up to the work that is due. -/

namespace Sys2Proof.Machine

/-! ## Images (R120, R172, R175, R184, R185) -/

/-- The low `8 * n` bits of `v` as `n` bytes, most significant first. -/
def bigEndian (n v : Nat) : List Byte := (List.range n).map fun i => BitVec.ofNat 8 (v / 256 ^ (n - 1 - i))

/-- The four lamp outputs of a head, red lowest (R120). -/
def Aspect.lamps : Aspect → Nat
  | .dark => 0
  | .danger => 1
  | .caution => 2
  | .prelim => 6
  | .clear => 8

/-- The output image of a LAMP module: each head on its four outputs, every other output dark (R175). -/
def State.lampImage (s : State) (m : Fin 24) : Nat :=
  (indices 32).foldl
    (fun v g =>
      match s.signalDef g with
      | some d => if d.lampModule = m then v ||| (tget s.signals g).aspect.lamps <<< d.firstOutput else v
      | none => v) 0

/-- A LED's on bit (R184). -/
def State.ledOn (s : State) : LedDef → Bool
  | .blockOcc b => s.occupied b || (tget s.blockFlags b).stray.isSome
  | .blockRes b => (tget s.reservers b).isSome
  | .pointN p => (tget s.points p).lie == some .normal
  | .pointR p => (tget s.points p).lie == some .reverse
  | .signalProceed g => (tget s.signals g).aspect.proceed
  | .road r => s.deck.align.map (·.road) == some r
  | .showing i =>
    match (tget s.shows i).state with
    | .running _ => true
    | _ => false

/-- A LED's flash bit (R184). -/
def State.ledFlash (s : State) : LedDef → Bool
  | .blockOcc b => (tget s.channels b).held
  | .blockRes b =>
    match tget s.reservers b with
    | some r =>
      match tget s.routes r with
      | .setting .. => true
      | _ => false
    | none => false
  | .pointN p => s.movingTarget p == some .normal || (tget s.points p).failed
  | .pointR p => s.movingTarget p == some .reverse || (tget s.points p).failed
  | .signalProceed _ => false
  | .road r =>
    match s.deck.state with
    | .unlocking m _ => m.road == r
    | .moving m _ => m.road == r
    | .settling m _ => m.road == r
    | .locking m _ => m.road == r
    | _ => false
  | .showing i =>
    match (tget s.shows i).state with
    | .queued _ => true
    | _ => false

/-- An image of a MIMIC module: the bits of its 64 LEDs; undefined slots are clear (R184). -/
def State.mimicImage (s : State) (m : Fin 24) (bit : LedDef → Bool) : Nat :=
  s.tables.leds.foldl (fun v x => if x.1 / 64 = m.val ∧ bit x.2 = true then v ||| 1 <<< (x.1 % 64) else v) 0

/-- An image of a KEYS module's lamps: the keys whose lamp is in state `l` (R184, R198). -/
def State.keyImage (s : State) (m : Fin 24) (l : KeyLamp) : Nat :=
  (indices 64).foldl
    (fun v k =>
      match s.keyDef k with
      | some d => if d.panel = m ∧ s.keyLamp k = l then v ||| 1 <<< d.key.val else v
      | none => v) 0

/-- The 40 characters of the text image (R185). -/
def TextRec.characters (t : TextRec) : List Byte := t.line1.toList ++ t.line2.toList

/-- The contents of a module's parts, lowest index first (R172, R174). -/
def State.partContents (s : State) (m : Fin 24) (d : ModuleDef) : List (List Byte) :=
  match d.type with
  | .lamp => [bigEndian 2 (s.lampImage m)]
  | .mimic => [bigEndian 8 (s.mimicImage m s.ledOn), bigEndian 8 (s.mimicImage m s.ledFlash)]
  | .keys => [bigEndian 2 (s.keyImage m .lit), bigEndian 2 (s.keyImage m .flashing)]
  | .text => [s.text.characters.take 16, (s.text.characters.drop 16).take 16, s.text.characters.drop 32]

/-- A part takes a recomputed content; a change while the module is ONLINE sets its pending mark (R174). -/
def Part.take (online : Bool) (old : Option Part) (content : List Byte) : Part :=
  match old with
  | some p => ⟨content, p.pending || (online && p.content != content)⟩
  | none => ⟨content, false⟩

/-- The parts of a module with their contents recomputed. -/
def ModuleRec.taken (r : ModuleRec) (contents : List (List Byte)) : List Part :=
  contents.zipIdx.map fun x => Part.take (r.state == .online) (r.parts[x.2]?) x.1

/-- The contents of every part are recomputed (R174). -/
def State.recomputeParts (s : State) : State :=
  { s with
    modules := tgen 24 fun m =>
      let r := tget s.modules m
      { r with
        parts := match s.moduleDef m with
          | some d => r.taken (s.partContents m d)
          | none => [] } }

/-! ## Due work and the pending lists (R176, R177) -/

/-- The class of a module type's parts (R174). -/
def ModuleType.partClass : ModuleType → BusClass
  | .lamp => .safety
  | .mimic => .mimic
  | .keys => .mimic
  | .text => .text

/-- Whether a part of the module is pending. -/
def ModuleRec.anyPending (r : ModuleRec) : Bool := r.parts.any (·.pending)

/-- Whether a part write of module `m` is under way: the module keeps its place while its transaction runs (R177). -/
def BusState.writing (b : BusState) (m : Fin 24) : Bool :=
  match b with
  | .busy (.write m' _ _) => m' == m
  | _ => false

/-- Whether a module has due work in a class (R176). -/
def State.due (s : State) (c : BusClass) (m : Fin 24) : Bool :=
  match s.moduleDef m with
  | none => false
  | some d =>
    let r := tget s.modules m
    match c with
    | .prove => r.readBackDue || r.probeDue
    | .keys => r.pollDue
    | c => c == ModuleType.partClass d.type && (r.anyPending || s.bus.state.writing m)

/-- A pending list brought up to its due work: modules without any leave, the rest keep their places, and modules newly due
join at the tail (R177). Those that one change makes due join in ascending index (log entry 6). -/
def State.syncList (s : State) (c : BusClass) (l : List (Fin 24)) : List (Fin 24) :=
  l.filter (s.due c) ++ (indices 24).filter fun m => s.due c m && !l.contains m

/-- Every pending list brought up to its due work. -/
def State.syncLists (s : State) : State :=
  s.updBus fun b =>
    { b with
      safety := s.syncList .safety b.safety, prove := s.syncList .prove b.prove, keys := s.syncList .keys b.keys
      mimic := s.syncList .mimic b.mimic, text := s.syncList .text b.text }

/-- The panel follows one change of what it shows (R174, R177, R184): contents are recomputed, a changed one is marked pending,
and its module joins its list. Each operation that changes an input of an image makes this step at once, so a content that
changes and changes back within one event is marked, and modules join in the order of the event's changes (log entry 18). -/
def State.settlePanel (s : State) : State := s.recomputeParts.syncLists

end Sys2Proof.Machine
end

