-- ==== Sys2Proof/Machine/Feeds.lean ====
section
/-! DEFINITION. The Feed Switch (chapter 2): feed states, demand, trips, restarts. -/

namespace Sys2Proof.Machine

/-- A change of a feed's state: the BLOCK subject is marked (R35), the change is the event of R29 on the channel, which becomes
held with count 0, or is held no more, and the panel follows (R184). -/
def State.setFeedState (s : State) (b : Fin 48) (x : FeedState) : State :=
  if (tget s.feeds b).state = x then s
  else
    let s := (s.updFeed b fun f => { f with state := x }).mark (.block b)
    (s.updChannel b fun c =>
      if x.holds then { c with held := true, count := 0 } else { c with held := false }).settlePanel

/-- The feed follows a change of its demand (R37). During an entry into RUN a demand that becomes ON waits for the restart
of R43 and R44. -/
def State.feedFollow (s : State) (b : Fin 48) : State :=
  match (tget s.feeds b).state with
  | .on => if s.feedDemand b then s else s.setFeedState b .off
  | .off =>
    if s.feedDemand b && (tget s.feeds b).restart.isNone && !s.work.entering then s.setFeedState b .on else s
  | _ => s

/-- The feed goes to the state its demand calls for, ON only if no restart is pending (R40, R42). -/
def State.feedSettle (s : State) (b : Fin 48) : State :=
  s.setFeedState b (if s.feedDemand b && (tget s.feeds b).restart.isNone then .on else .off)

/-- The trips of the log that are at most the trip window old (R39). -/
def State.tripsCounted (s : State) (b : Fin 48) : Nat :=
  ((tget s.feeds b).log.filter fun t => decide (s.ageOf t ≤ 1000 * s.params.tripWindow)).length

/-- The latch decision (R39). -/
def State.latchDecision (s : State) (b : Fin 48) (k : KillMode) : State :=
  if k = .latch ∨ s.params.tripsToLatch ≤ s.tripsCounted b then s.setFeedState b .latched
  else (s.setFeedState b .cooling).updFeed b fun f => { f with cool := some (s.after s.params.coolTime) }

/-- Overload is taken by the block's feed: an ON feed trips, logs the trip and takes the latch decision; any other
discards it (R38). -/
def State.takeOverload (s : State) (b : Fin 48) (k : KillMode) : State :=
  if (tget s.feeds b).state = .on then
    let s := s.setFeedState b .tripped
    let s := s.updFeed b fun f =>
      let log := f.log ++ [s.ms]
      { f with log := log.drop (log.length - Config.tripLogRoom) }
    s.latchDecision b k
  else s

/-- The isolated flag of a feed is set or cleared, marking its BLOCK subject on a change, and the demand is evaluated again
(R41). -/
def State.isolate (s : State) (b : Fin 48) (on : Bool) : State :=
  if (tget s.feeds b).isolated = on then s
  else ((s.updFeed b fun f => { f with isolated := on }).mark (.block b)).feedFollow b

/-- A LATCHED feed is restored in RUN (R42): its log is emptied and it goes to its demand. -/
def State.restoreNow (s : State) (b : Fin 48) : State :=
  (s.updFeed b fun f => { f with log := [] }).feedSettle b

/-- A feed is restarted at an entry into RUN (R43, R44): an OFF feed demanded ON is given a due time of its restart group
times the stagger, and goes ON at once when that is no delay. -/
def State.giveRestart (s : State) (b : Fin 48) : State :=
  match s.blockDef b with
  | none => s
  | some d =>
    if (tget s.feeds b).state = .off ∧ s.feedDemand b then
      let delay := d.restartGroup * s.params.restartStagger
      if delay = 0 then s.setFeedState b .on
      else s.updFeed b fun f => { f with restart := some (s.after delay) }
    else s

/-- The restarts of an entry into RUN. -/
def State.giveRestarts (s : State) : State := (indices 48).foldl State.giveRestart s

/-- Deferred restores are carried out at entry into RUN from HALT (R44, step 1): a LATCHED feed so flagged goes OFF. -/
def State.deferredRestore (s : State) (b : Fin 48) : State :=
  let f := tget s.feeds b
  if f.state = .latched ∧ f.deferred then
    (s.updFeed b fun f => { f with deferred := false, log := [] }).setFeedState b .off
  else s

/-- Entry into HALT: every ON feed goes OFF and every pending restart is removed (R44). The mode is HALT already, so every
demand is OFF. -/
def State.feedsHalt (s : State) : State :=
  (indices 48).foldl (fun s b => (s.updFeed b fun f => { f with restart := none }).feedFollow b) s

end Sys2Proof.Machine
end

