-- ==== Sys2Proof/Machine/Cues.lean ====
section
/-! DEFINITION. What the Show Sequencer notes at the moment a neighbour hands on a change (R192, R193, R196): a cue is set
or cleared, a waiting step's condition comes to hold, or the run is to be aborted. The run itself is carried on at the end
of the neighbour's own changes (log entry 20). -/

namespace Sys2Proof.Machine

/-- A cue flag takes a value; a change marks the LAYOUT subject (R196). -/
def State.putCue (s : State) (c : Fin 16) (v : Bool) : State :=
  if tget s.cues c = v then s else ({ s with cues := tset s.cues c v }).mark .layout

/-- The record of a running show's run changes. -/
def State.updRun (s : State) (i : Fin 8) (f : Run → Run) : State :=
  s.updShow i fun x =>
    match x.state with
    | .running r => { x with state := .running (f r) }
    | _ => x

/-- The running show's wait is met: the wait timer is discarded, the wait kind becomes NONE, and the run is to go on at the
next step (R192). -/
def State.meetWait (s : State) (i : Fin 8) : State :=
  ((s.updRun i fun r => { r with wait := .none, timer := none }).mark (.showing i)).updWork fun w =>
    { w with wake := some (.goOn i) }

/-- The run is to be aborted (R193). An abort noted stands. -/
def State.noteAbort (s : State) (i : Fin 8) (c : AbortCause) : State :=
  s.updWork fun w =>
    match w.wake with
    | some (.abort ..) => w
    | _ => { w with wake := some (.abort i c) }

/-- The step that the running show waits at, while its wait is not resolved. -/
def State.waitingStep (s : State) : Option (Fin 8 × Step) :=
  match s.work.wake, s.runningShow with
  | none, some (i, r) => if r.wait = .none then none else (s.currentStep i r).map fun x => (i, x)
  | _, _ => none

/-- A cue is set (R196). A run waiting on it consumes it in the same event (R192). -/
def State.setCueFlag (s : State) (c : Fin 16) : State :=
  let s := s.putCue c true
  match s.waitingStep with
  | some (i, .waitCue c' _) => if c' = c then (s.putCue c false).meetWait i else s
  | _ => s

/-- Every cue with this selector is set (R196). -/
def State.setCuesFor (s : State) (x : Selector) : State :=
  (indices 16).foldl (fun s c => if tget s.tables.cues c = x then s.setCueFlag c else s) s

/-- A change of a route's state reaches a run waiting on the route (R192). -/
def State.noteRoute (s : State) (r : Fin 64) (x : RouteRec) : State :=
  match s.waitingStep with
  | some (i, .waitRoute r' t _) =>
    if r' = r then
      match t, x with
      | .isSet, .isSet .. => s.meetWait i
      | .isSet, .free _ => s.noteAbort i .routeFreed
      | .isFree, .free _ => s.meetWait i
      | _, _ => s
    else s
  | _ => s

/-- A change of the deck's state, alignment or lock reaches a run waiting on the turntable (R192). -/
def State.noteDeck (s : State) : State :=
  match s.waitingStep with
  | some (i, .waitTurntable _) => if s.deck.joined.isSome then s.meetWait i else s
  | _ => s

/-- An outcome for a move of origin SHOW is taken by the show while it is RUNNING with its turn pending flag set (R193). -/
def State.noteTurnOutcome (s : State) (i : Fin 8) (o : TurnOutcome) : State :=
  match (tget s.shows i).state with
  | .running r =>
    if r.turnPending then
      let s := (s.updRun i fun r => { r with turnPending := false }).mark (.showing i)
      if o = .aligned then s else s.noteAbort i .turntable
    else s
  | _ => s

end Sys2Proof.Machine
end

