-- ==== Sys2Proof/Machine/RouteCore.lean ====
section
/-! DEFINITION. The Route Interlock's own changes (chapter 5): route states, reservations and locks, the tests for SET and
for proof, failure, entry, release. Each change of a route's state is handed on within the event to the entrance signal's
record, the cues and the running show (R108). -/

namespace Sys2Proof.Machine

/-- The record of a route's entrance signal changes; a change marks the SIGNAL subject (R124). -/
def State.putSignal (s : State) (g : Fin 32) (f : SignalRec → SignalRec) : State :=
  if f (tget s.signals g) = tget s.signals g then s else (s.updSignal g f).mark (.signal g)

/-- The approach timer's start when the approach block reads OCCUPIED at the entry into SET (R117, R118). -/
def State.approachStart (s : State) (g : Fin 32) (a : ApproachDef) : Timer :=
  match s.signalDef g with
  | some d => if s.occupied d.block then some (s.after (1000 * a.release)) else none
  | none => none

/-- What the Aspect Unit does with a change of the state of a route from entrance signal `g` (R111, R116, R117, R118). -/
def State.aspectTakesRoute (s : State) (r : Fin 64) (d : RouteDef) (old new : RouteRec) : State :=
  let g := d.entrance
  let s := match old, new with
    | .isSet .., .isSet .. => s
    | .isSet .., _ => s.putSignal g fun x => { x with release := none, timer := none }
    | _, _ => s
  match new with
  | .setting .. => s.putSignal g fun x => { x with control := some r }
  | .isSet .. =>
    match old, d.approach with
    | .isSet .., _ => s
    | _, some a => s.putSignal g fun x => { x with release := some false, timer := s.approachStart g a }
    | _, none => s
  | .entered .. => s.putSignal g fun x => { x with cleared := false }
  | .free _ => if old.holds then s.putSignal g fun x => { x with control := none, cleared := false } else s
  | _ => s

/-- A route takes a new state (R84, R107, R108): the ROUTE subject is marked, the panel follows (R184, R198), and the change is
handed to the Aspect Unit, to the cues (R196) and to a run that waits on the route (R192). -/
def State.setRoute (s : State) (r : Fin 64) (new : RouteRec) : State :=
  let old := tget s.routes r
  let s := ((s.putRoute r new).mark (.route r)).settlePanel
  let s := match s.routeDef r with
    | some d => s.aspectTakesRoute r d old new
    | none => s
  let s := match new with
    | .entered .. => s.setCuesFor (.routeEntered r)
    | .free _ => if old.isFree then s else s.setCuesFor (.routeFreed r)
    | _ => s
  s.noteRoute r new

/-- A route record changes without a change of state: the ROUTE subject is marked (R107). -/
def State.touchRoute (s : State) (r : Fin 64) (new : RouteRec) : State := (s.putRoute r new).mark (.route r)

/-- A route leaves the request queue (R86). -/
def State.dequeue (s : State) (r : Fin 64) : State := { s with queue := s.queue.filter fun x => x != r }

/-! ## Reservations and locks (R85) -/

/-- A route reserves a block, and the panel follows (R85, R184). -/
def State.reserve (s : State) (r : Fin 64) (b : Fin 48) : State :=
  ((s.putReserver b (some r)).mark (.block b)).settlePanel

/-- A route's reservation of a block, where it holds one, is removed, and the panel follows: an occasion for queue examination
(R85, R88, R184). -/
def State.unreserve (s : State) (r : Fin 64) (b : Fin 48) : State :=
  if tget s.reservers b = some r then (((s.putReserver b none).mark (.block b)).settlePanel).callExamine else s

/-- A point's lock count rises by one. -/
def State.lock (s : State) (p : Fin 64) : State :=
  (s.updPoint p fun x => { x with locks := x.locks + 1 }).mark (.point p)

/-- A point's lock count falls by one: an occasion for queue examination (R85, R88). -/
def State.unlock (s : State) (p : Fin 64) : State :=
  ((s.updPoint p fun x => { x with locks := x.locks - 1 }).mark (.point p)).callExamine

/-- A route that holds elements goes to FREE: every block it still reserves and every point it still locks is given back,
and the return is an occasion for queue examination (R85, R88, R93). -/
def State.freeHolding (s : State) (r : Fin 64) (reason : FreeReason) : State :=
  let locked := s.lockedBy r
  let blocks := match s.routeDef r with
    | some d => d.blocks
    | none => []
  let s := s.setRoute r (.free reason)
  let s := blocks.foldl (fun s b => s.unreserve r b) s
  let s := locked.foldl (fun s x => s.unlock x.1) s
  s.callExamine

/-! ## Setting and proof (R92, R93, R95) -/

/-- Whether every point of a route is proved in the lie it requires, and the deck stands as it requires (R92). -/
def State.routeProved (s : State) (d : RouteDef) : Bool :=
  d.locks.all (fun x => s.provedIn x.1 x.2) &&
    match d.turntable with
    | none => true
    | some q => s.deck.at' q

/-- The test of R92 for a SETTING route, and of R95 for a SET one. -/
def State.testProof (s : State) (r : Fin 64) : State :=
  match s.routeDef r, tget s.routes r with
  | some d, .setting _ m => if s.routeProved d then s.setRoute r (.isSet true false m) else s
  | some d, .isSet proof _ m =>
    let ok := s.routeProved d
    if ok = proof then s else s.touchRoute r (.isSet ok (!ok) m)
  | _, _ => s

/-- Whether a route names a point in its point list or flank list. -/
def State.routeNames (s : State) (r : Fin 64) (p : Fin 64) : Bool :=
  match s.routeDef r with
  | some d => d.locks.any fun x => x.1 == p
  | none => false

/-- Whether a route has a turntable requirement. -/
def State.routeNeedsDeck (s : State) (r : Fin 64) : Bool :=
  match s.routeDef r with
  | some d => d.turntable.isSome
  | none => false

/-- A change of a point's proof status is handed on (R77, R109). -/
def State.routesTakeProof (s : State) (p : Fin 64) : State :=
  (indices 64).foldl (fun s r => if (tget s.routes r).holds && s.routeNames r p then s.testProof r else s) s

/-- A point's failed flag becomes set: every SETTING route that names it fails (R93). -/
def State.routesTakeFailed (s : State) (p : Fin 64) : State :=
  (indices 64).foldl
    (fun s r =>
      match tget s.routes r with
      | .setting .. => if s.routeNames r p then s.freeHolding r .pointFailed else s
      | _ => s) s

/-- A change of the deck's state, alignment or lock is handed on (R92, R95, R109). -/
def State.routesTakeDeck (s : State) : State :=
  (indices 64).foldl (fun s r => if (tget s.routes r).holds && s.routeNeedsDeck r then s.testProof r else s) s

/-- The outcome of a deck move asked by route `r` (R93): ALIGNED clears its turn asked flag, which marks no subject (R107),
STOPPED or FAULT fails it; a route not SETTING with the flag set disregards it. -/
def State.routeTakesOutcome (s : State) (r : Fin 64) (o : TurnOutcome) : State :=
  match tget s.routes r with
  | .setting true m => if o = .aligned then s.putRoute r (.setting false m) else s.freeHolding r .turntable
  | _ => s

/-! ## Entry and release (R96 to R100) -/

/-- Whether path block `k` of an ENTERED route is to be released (R97). -/
def State.releasable (s : State) (d : RouteDef) (m : Marks) (k : Nat) : Bool :=
  match d.path[k]? with
  | none => false
  | some b =>
    !m.released k && s.isClear b && (m.path.take k).all id &&
      match d.path[k + 1]? with
      | some c => s.occupiedOrHeld c
      | none => true

/-- The overlap timer's start, for the overlap release time current now (R99). -/
def State.overlapStart (s : State) : OverlapTimer := .running (s.after (1000 * s.params.overlapRelease))

/-- The overlap timer after a start: one that runs or has expired, or a route with no overlap, is left (R99). -/
def State.startOverlap (s : State) (d : RouteDef) (t : OverlapTimer) : OverlapTimer :=
  match t with
  | .stopped => if d.overlap.isEmpty then .stopped else s.overlapStart
  | t => t

/-- An ENTERED route with everything released goes to FREE (R100). -/
def State.testReleased (s : State) (r : Fin 64) : State :=
  match tget s.routes r with
  | .entered _ _ m => if m.all then (s.setRoute r (.free .released)).callExamine else s
  | _ => s

/-- Release path block `k` (R97, R98, R99): its mark, its reservation, the points unlocked with it, and at the last path
block the flank points and the overlap timer. -/
def State.releaseBlock (s : State) (r : Fin 64) (d : RouteDef) (danger : Bool) (t : OverlapTimer) (m : Marks)
    (k : Nat) (b : Fin 48) : State :=
  let last := decide (k + 1 = d.path.length)
  let t := if last then s.startOverlap d t else t
  let s := s.touchRoute r (.entered danger t { m with path := m.path.set k true })
  let s := s.unreserve r b
  let s := (d.points.filter fun x => x.release == k).foldl (fun s x => s.unlock x.point) s
  if last then d.flank.foldl (fun s x => s.unlock x.point) s else s

/-- Test path block `k`, and while blocks are released the one after it, at most `n` blocks (R97). -/
def State.releaseFrom (r : Fin 64) : Nat → Nat → State → State
  | 0, _, s => s
  | n + 1, k, s =>
    match s.routeDef r, tget s.routes r with
    | some d, .entered danger t m =>
      match d.path[k]? with
      | none => s
      | some b =>
        if s.releasable d m k then State.releaseFrom r n (k + 1) (s.releaseBlock r d danger t m k b) else s
    | _, _ => s

/-- Test path block `k` of an ENTERED route, and free the route when nothing is left (R97, R100). -/
def State.testRelease (s : State) (r : Fin 64) (k : Nat) : State :=
  (State.releaseFrom r 8 k s).testReleased r

/-- A SET or CANCELLING route is entered (R96). With one path block, that block is the last and the overlap timer starts
(R99). -/
def State.enterRoute (s : State) (r : Fin 64) (d : RouteDef) : State :=
  let t : OverlapTimer := if d.path.length = 1 then s.startOverlap d .stopped else .stopped
  match tget s.routes r with
  | .isSet _ _ m => s.setRoute r (.entered false t m)
  | .cancelling _ m => s.setRoute r (.entered true t m)
  | _ => s

/-- The overlap timer of an ENTERED route starts at the first change of its last path block to OCCUPIED (R99). -/
def State.overlapAtLast (s : State) (r : Fin 64) (d : RouteDef) (b : Fin 48) : State :=
  match tget s.routes r with
  | .entered danger .stopped m =>
    if d.path.getLast? = some b ∧ ¬ d.overlap.isEmpty then s.touchRoute r (.entered danger s.overlapStart m) else s
  | _ => s

/-- Block `b` has become OCCUPIED: entry, the start of an overlap timer, and the release test of the block before it in an
ENTERED route (R96, R97, R99). -/
def State.routeTakesOccupied (b : Fin 48) (s : State) (r : Fin 64) : State :=
  match s.routeDef r with
  | none => s
  | some d =>
    match tget s.routes r with
    | .isSet .. => if d.path.head? = some b then s.enterRoute r d else s
    | .cancelling .. => if d.path.head? = some b then s.enterRoute r d else s
    | .entered .. =>
      match d.path.findIdx? fun c => c == b with
      | some k =>
        let s := s.overlapAtLast r d b
        if k = 0 then s else s.testRelease r (k - 1)
      | none => s
    | _ => s

/-- The Route Interlock takes a change of block `b` to OCCUPIED. -/
def State.routesTakeOccupied (s : State) (b : Fin 48) : State :=
  (indices 64).foldl (State.routeTakesOccupied b) s

/-- Block `b` has become clear: the release tests, and an occasion for queue examination (R88, R97). -/
def State.routesTakeClear (s : State) (b : Fin 48) : State :=
  ((indices 64).foldl
    (fun s r =>
      match s.routeDef r, tget s.routes r with
      | some d, .entered .. =>
        match d.path.findIdx? fun c => c == b with
        | some k => s.testRelease r k
        | none => s
      | _, _ => s) s).callExamine

/-- The overlap timer of an ENTERED route expires (R99): its overlap blocks are released, and the route goes to FREE when
that was its last element (R100). -/
def State.overlapExpires (s : State) (r : Fin 64) (d : RouteDef) : State :=
  match tget s.routes r with
  | .entered danger _ m =>
    let s := s.touchRoute r (.entered danger .expired { m with overlap := true })
    let s := d.overlap.foldl (fun s b => s.unreserve r b) s
    s.testReleased r
  | _ => s

end Sys2Proof.Machine
end

