-- ==== Sys2Proof/Machine/Panel.lean ====
section
/-! DEFINITION. The Panel Bus Master (chapter 9): the arbiter, the outcomes of transactions, module states, the text display,
its mode changes, and the bytes on the bus. -/

namespace Sys2Proof.Machine

/-! ## The arbiter (R177) -/

/-- The first pending part of a module. -/
def State.firstPending (s : State) (m : Fin 24) : Option Transaction :=
  let parts := (tget s.modules m).parts
  match parts.findIdx? (·.pending) with
  | some k => (parts[k]?).map fun p => .write m k p.content
  | none => none

/-- What a probe of a module writes (R179): its first part's content as it stands, for a MIMIC or TEXT module; a probe of any
other module is a read. -/
def State.probeContent (s : State) (m : Fin 24) : List Byte :=
  match s.moduleDef m with
  | some d =>
    if d.type = .mimic ∨ d.type = .text then ((tget s.modules m).parts.map (·.content)).headD [] else []
  | none => []

/-- The PROVE work of a module: a read-back in ONLINE, a probe otherwise (R177). -/
def State.proveWork (s : State) (m : Fin 24) : Transaction :=
  if s.online m then .readBack m else .probe m (s.probeContent m)

/-- The next transaction: the head of the general call list, else the due work of the head of the first list that is not
empty (R177). -/
def State.nextWork (s : State) : Option Transaction :=
  match s.bus.calls, s.bus.safety, s.bus.prove, s.bus.keys, s.bus.mimic, s.bus.text with
  | (c, _) :: _, _, _, _, _, _ => some (.call c)
  | [], m :: _, _, _, _, _ => s.firstPending m
  | [], [], m :: _, _, _, _ => some (s.proveWork m)
  | [], [], [], m :: _, _, _ => some (.poll m)
  | [], [], [], [], m :: _, _ => s.firstPending m
  | [], [], [], [], [], m :: _ => s.firstPending m
  | [], [], [], [], [], [] => none

/-- Set or clear the pending mark of part `k` of a module. -/
def State.markPart (s : State) (m : Fin 24) (k : Nat) (v : Bool) : State :=
  s.updModule m fun r => { r with parts := r.parts.modify k fun p => { p with pending := v } }

/-! ## Module states and counting (R178, R179) -/

/-- A module enters OFFLINE (R178). -/
def State.enterOffline (s : State) (m : Fin 24) : State :=
  (s.updModule m fun r =>
    { r with
      state := .offline, consecutive := Config.failureLimit
      parts := r.parts.map fun p => { p with pending := false }
      readBackDue := false, pollDue := false, probeDue := false
      proveTimer := none, pollTimer := none, probeTimer := some (s.after Config.probeMs)
      keys := tfill 16 KeyState.up }).mark (.panel m)

/-- A failure is counted on a module (R178). -/
def State.countFailure (s : State) (m : Fin 24) (c : FailCause) : State :=
  let s := (s.updModule m fun r =>
    { r with
      consecutive := if r.state = .offline then r.consecutive else r.consecutive + 1
      total := r.total + 1, cause := some c }).mark (.panel m)
  let r := tget s.modules m
  if r.state ≠ .offline ∧ Config.failureLimit ≤ r.consecutive then s.enterOffline m else s

/-- A success is counted on a module (R178). -/
def State.countSuccess (s : State) (m : Fin 24) : State := s.updModule m fun r => { r with consecutive := 0 }

/-- A module enters ONLINE (R179). It joins the lists of its parts before its signals take their aspects. -/
def State.enterOnline (s : State) (m : Fin 24) : State :=
  let type := (s.moduleDef m).map (·.type)
  ((s.updModule m fun r =>
    { r with
      state := .online, consecutive := 0, probeTimer := none, probeDue := false
      parts := r.parts.map fun p => { p with pending := true }
      proveTimer := if type = some .lamp then some (s.after s.params.lampProvePeriod) else none
      pollTimer := if type = some .keys then some (s.after s.params.keyPollPeriod) else none
      keys := tfill 16 KeyState.up }).mark (.panel m)).syncLists

/-! ## Outcomes (R170, R171, R174, R178 to R180) -/

/-- The failure cause of an outcome. -/
def BusCause.fail : BusCause → FailCause
  | .noAck => .noAck
  | .stretch => .stretch
  | .stuck => .stuck

/-- A general call fails: its count rises, and at the third attempt it leaves the list (R171). -/
def Bus.callFailed (b : Bus) : Bus :=
  match b.calls with
  | (c, n) :: l => { b with calls := if n + 1 < Config.failureLimit then (c, n + 1) :: l else l }
  | [] => b

/-- The work of a failed transaction takes its outcome (R171, R174, R178, R179). -/
def State.workFailed (s : State) (t : Transaction) (c : BusCause) : State :=
  match t with
  | .call _ => s.updBus Bus.callFailed
  | .write m k _ => (if s.online m then s.markPart m k true else s).countFailure m (BusCause.fail c)
  | .probe m _ =>
    (s.updModule m fun r => { r with probeDue := r.probeDue && r.state != .offline }).countFailure m (BusCause.fail c)
  | .readBack m => s.countFailure m (BusCause.fail c)
  | .poll m => s.countFailure m (BusCause.fail c)

/-- The bus after a transaction that ended with a cause: a stretch brings bus recovery (R170). -/
def BusCause.leaves : BusCause → BusState
  | .stretch => .recovery false
  | _ => .free

/-- The transaction under way fails (R167, R170). -/
def State.transactionFails (s : State) (t : Transaction) (c : BusCause) : State :=
  (s.updBus fun b => { b with state := BusCause.leaves c }).workFailed t c

/-- The bus is free. -/
def State.freeBus (s : State) : State := s.updBus fun b => { b with state := .free }

/-- The lamp pattern of a general call (R171). -/
def GeneralCall.pattern : GeneralCall → BitVec 16
  | .resetOutputs => 0x0000
  | .dangerAll => 0x1111

/-- A general call succeeds (R171): every defined LAMP module's last sent image becomes its pattern, and the output image of
every ONLINE one is marked pending. -/
def State.callDone (s : State) (c : GeneralCall) : State :=
  let s := s.updBus fun b => { b with calls := b.calls.tail }
  { s with
    modules := tgen 24 fun m =>
      let r := tget s.modules m
      if (s.moduleDef m).map (·.type) = some .lamp then
        { r with
          lastSent := some c.pattern
          parts := r.parts.map fun p => { p with pending := p.pending || r.state == .online } }
      else r }

/-- The 16 outputs that two bytes carry, the first byte highest (R172). -/
def outputsOf (l : List Byte) : BitVec 16 :=
  match l with
  | [a, b] => a ++ b
  | _ => 0

/-- A part write succeeds (R174). -/
def State.writeDone (s : State) (m : Fin 24) (content : List Byte) : State :=
  let s := s.countSuccess m
  if (s.moduleDef m).map (·.type) = some .lamp then
    s.updModule m fun r => { r with lastSent := some (outputsOf content) }
  else s

/-- A read-back succeeds: its bytes are compared with the last sent image (R180). -/
def State.readBackDone (s : State) (m : Fin 24) (bytes : BitVec 16) : State :=
  let s := s.updModule m fun r => { r with readBackDue := false }
  if (tget s.modules m).lastSent = some bytes then s.countSuccess m
  else (s.markPart m 0 true).countFailure m .mismatch

/-! ## Starting (R170, R177) -/

/-- A transaction starts; a part write clears its pending mark at that moment (R174). -/
def State.begin (s : State) (t : Transaction) : State :=
  let s := s.updBus fun b => { b with state := .busy t, recovered := false }
  match t with
  | .write m k _ => s.markPart m k false
  | _ => s

/-- The arbiter acts with the bus free in RUN or HALT (R177). Lines that do not read high bring bus recovery first, and
after one fail the work with BUS_STUCK (R170). -/
def State.startNext (s : State) (linesHigh : Bool) : State :=
  if s.mode = .config then s
  else
    match s.bus.state, s.nextWork with
    | .free, some t =>
      if linesHigh then s.begin t
      else if s.bus.recovered then (s.updBus fun b => { b with recovered := false }).workFailed t .stuck
      else s.updBus fun b => { b with state := .recovery true }
    | _, _ => s

/-! ## Text (R185, R186) -/

/-- Text line 1 takes a caption text, and the panel follows (R185). -/
def State.putLine1 (s : State) (t : Text20) : State := State.settlePanel { s with text := { s.text with line1 := t } }

/-- The character of a decimal digit. -/
def digit (n : Nat) : Byte := BitVec.ofNat 8 (0x30 + n % 10)

/-- A number below 1000 right-aligned in three characters (R186). -/
def rightAligned3 (n : Nat) : List Byte :=
  [if n < 100 then space else digit (n / 100), if n < 10 then space else digit (n / 10), digit n]

/-- The characters of line 2 for a speed (R186): SPEED, the speed in km/h to one place, KM/H. -/
def speedLine (v : Nat) : Text20 :=
  padTo20 ([0x53, 0x50, 0x45, 0x45, 0x44, 0x20] ++ rightAligned3 (v / 10) ++ [0x2E, digit v] ++
    [0x20, 0x4B, 0x4D, 0x2F, 0x48])

/-- A display result fills line 2, which the panel follows, and starts the speed hold timer afresh (R186). -/
def State.displayResult (s : State) (v : Nat) : State :=
  State.settlePanel
    { s with text := { s.text with line2 := speedLine v, hold := some (s.after (1000 * s.params.speedHold)) } }

/-! ## Mode changes (R181) -/

/-- A command joins the general call list, unless it is there (R171). -/
def Bus.addCall (b : Bus) (c : GeneralCall) : Bus :=
  if b.calls.any fun x => x.1 == c then b else { b with calls := b.calls ++ [(c, 0)] }

/-- Entry into RUN from CONFIG (R181): RESET_OUTPUTS is called for and every defined module is to be probed. -/
def State.panelRun (s : State) : State :=
  let s := s.updBus fun b => b.addCall .resetOutputs
  { s with
    modules := tgen 24 fun m =>
      let r := tget s.modules m
      if (s.moduleDef m).isSome then { r with probeDue := true, probeTimer := some (s.after Config.probeMs) } else r }

/-- The bus at entry into CONFIG (R181): a transaction ends without outcome, a recovery runs to its end. -/
def BusState.atConfig : BusState → BusState
  | .recovery _ => .recovery false
  | _ => .free

/-- Entry into CONFIG (R173, R181, R186). -/
def State.panelConfig (s : State) : State :=
  { s with
    bus := { Bus.initial with state := s.bus.state.atConfig }
    modules := tgen 24 fun m =>
      { ModuleRec.initial with parts := (tget s.modules m).parts.map fun p => { p with pending := false } }
    text := { s.text with line2 := blankText, hold := none } }

/-! ## The bytes on the bus (R168, R169, R171, R172, R179) -/

/-- The register at which a part begins (R174). -/
def ModuleType.partIndex (t : ModuleType) (k : Nat) : Nat :=
  match t with
  | .lamp => 0
  | .mimic => 8 * k
  | .keys => 2 * k
  | .text => 16 * k

/-- The command byte of a general call (R172). -/
def GeneralCall.code : GeneralCall → Byte
  | .resetOutputs => 0x52
  | .dangerAll => 0x44

/-- The address byte of a write or of a read (R168, R169). -/
def addressByte (address : Nat) (read : Bool) : Byte := BitVec.ofNat 8 (2 * address + if read then 1 else 0)

/-- What the part sends to read index 16 of a module: the address and the index, and after a repeated START the address to
read from (R169). -/
def readBytes (d : ModuleDef) : List (List Byte) := [[addressByte d.address false, 16], [addressByte d.address true]]

/-- What the part sends to write content at a register of a module (R168). -/
def writeBytes (d : ModuleDef) (index : Nat) (content : List Byte) : List (List Byte) :=
  [addressByte d.address false :: BitVec.ofNat 8 index :: content]

/-- The bytes that the part sends in the transaction under way: one list behind each START, the last followed by the STOP where
every byte that must be acknowledged is (R168, R169, R171). A probe of a MIMIC or TEXT module writes the content it started
with (R174, R179). -/
def State.onTheBus (s : State) : List (List Byte) :=
  match s.bus.state with
  | .busy (.call c) => [[0, c.code]]
  | .busy (.write m k content) =>
    match s.moduleDef m with
    | some d => writeBytes d (ModuleType.partIndex d.type k) content
    | none => []
  | .busy (.probe m content) =>
    match s.moduleDef m with
    | some d => if d.type = .lamp ∨ d.type = .keys then readBytes d else writeBytes d 0 content
    | none => []
  | .busy (.readBack m) => ((s.moduleDef m).map readBytes).getD []
  | .busy (.poll m) => ((s.moduleDef m).map readBytes).getD []
  | _ => []

end Sys2Proof.Machine
end

