-- ==== Sys2Proof/Machine/Signals.lean ====
section
/-! DEFINITION. The Aspect Unit (chapter 6): the derivation of aspects, the settling of the chain, approach control and
trap results. -/

namespace Sys2Proof.Machine

/-! ## Deriving the aspect (R112, R113) -/

/-- One step above an exit signal's aspect (R113). -/
def Aspect.stepUp : Aspect → Aspect
  | .caution => .prelim
  | .prelim => .clear
  | .clear => .clear
  | _ => .caution

/-- The step-up aspect fitted to a head of `n` aspects (R113). -/
def Aspect.cap (n : Nat) (a : Aspect) : Aspect :=
  if n = 2 then .clear
  else if n = 3 then
    match a with
    | .prelim => .clear
    | a => a
  else a

/-- The controlling route of a signal, while it lets a proceed aspect show (R112, case 3), its mode aside. -/
def State.proceedRoute (s : State) (g : Fin 32) : Option RouteDef := do
  let r ← (tget s.signals g).control
  let d ← s.routeDef r
  match tget s.routes r with
  | .isSet true false _ =>
    if d.blocks.all s.isClear && (d.approach.isNone || (tget s.signals g).release == some true) then some d else none
  | _ => none

/-- The case of R112 that decides a signal's aspect. -/
inductive AspectCase
  | fixed (a : Aspect)
  | proceed (aspects : Nat) (exit : Option (Fin 32))
  deriving DecidableEq, Repr

/-- Which case of R112 applies to a signal. -/
def State.aspectCase (s : State) (g : Fin 32) : AspectCase :=
  match s.signalDef g with
  | none => .fixed .dark
  | some d =>
    if s.mode = .config ∨ s.online d.lampModule = false then .fixed .dark
    else if s.mode.isHalt then .fixed .danger
    else
      match s.proceedRoute g with
      | some r => .proceed d.aspects r.exit
      | none => .fixed .danger

/-- The aspect a case gives when the exit signals show `shown` (R112, R113). -/
def AspectCase.aspect (shown : Fin 32 → Aspect) : AspectCase → Aspect
  | .fixed a => a
  | .proceed n none => Aspect.cap n .caution
  | .proceed n (some e) => Aspect.cap n (Aspect.stepUp (shown e))

/-- The aspect derived by following exit signals for at most `n` of them. A walk past all 32 signals goes round a ring of
routes, every signal of which shows CLEAR (R115). -/
def State.deriveAspect (s : State) : Nat → Fin 32 → Aspect
  | 0, _ => .clear
  | n + 1, g => (s.aspectCase g).aspect (s.deriveAspect n)

/-- The one assignment of R115, at one signal. -/
def State.settledAspect (s : State) (g : Fin 32) : Aspect := s.deriveAspect 33 g

/-- The STOP block that a signal guards: its own approach block, where that is of kind STOP for it (R121). -/
def State.stopBlock (s : State) (g : Fin 32) : Option (Fin 48) := do
  let d ← s.signalDef g
  let b ← s.blockDef d.block
  if b.kind = .stop g then some d.block else none

/-- A signal shows a new aspect (R114, R116, R120, R121): the first proceed aspect sets cleared-since-set, the panel follows the
lamp image, and a change between proceed and not proceed hands the stop feed its demand. -/
def State.showAspect (s : State) (g : Fin 32) (a : Aspect) : State :=
  let old := (tget s.signals g).aspect
  let s := s.putSignal g fun x => { x with aspect := a, cleared := x.cleared || a.proceed }
  let s := if old = a then s else s.settlePanel
  if old.proceed = a.proceed then s
  else
    match s.stopBlock g with
    | some b => s.feedFollow b
    | none => s

/-- A defined signal takes the aspect that the inputs of `now` give it (R114). -/
def State.showSettled (now s : State) (g : Fin 32) : State :=
  if (now.signalDef g).isSome then s.showAspect g (now.settledAspect g) else s

/-- The exit signal whose change is what changes signal `g` (R115), while it has not made that change in `s`: none where the
other inputs of `g` already call for another aspect than it shows in `now`. -/
def State.frontOf (now s : State) (g : Fin 32) : Option (Fin 32) :=
  match now.aspectCase g with
  | .proceed n (some e) =>
    if (tget now.signals g).aspect = (AspectCase.proceed n (some e)).aspect (fun q => (tget now.signals q).aspect) ∧
        (tget s.signals e).aspect ≠ now.settledAspect e then some e
    else none
  | _ => none

/-- Signal `g` takes its aspect, behind the chain of at most `n` signals in front of it whose changes reach it, the foremost
first (R114, R115). -/
def State.showChain (now : State) : Nat → State → Fin 32 → State
  | 0, s, g => now.showSettled s g
  | n + 1, s, g =>
    now.showSettled (match now.frontOf s g with
      | some e => now.showChain n s e
      | none => s) g

/-- Every signal is re-evaluated and the chain settles (R114, R115): the aspects are derived from the inputs as they stand,
and each defined signal takes its own, front before rear, a change of its lamp module's state among its inputs (R123, R125). -/
def State.settleSignals (s : State) : State := (indices 32).foldl (State.showChain s 32) s

/-! ## Approach control (R117 to R119) -/

/-- The approach control of a signal whose release flag is clear, with the signal's entry (R117). -/
def State.awaitingRelease (s : State) (g : Fin 32) : Option (SignalDef × ApproachDef) :=
  match s.signalDef g, (tget s.signals g).control, (tget s.signals g).release with
  | some d, some r, some false =>
    match s.routeDef r with
    | some rd => rd.approach.map fun a => (d, a)
    | none => none
  | _, _, _ => none

/-- The approach release flag is set and the approach timer discarded (R117). -/
def State.releaseApproach (s : State) (g : Fin 32) : State :=
  s.putSignal g fun x => { x with release := some true, timer := none }

/-- A change of the channel of block `b` starts or discards the approach timers of the signals that stand there (R118). -/
def State.approachTakes (s : State) (b : Fin 48) : State :=
  (indices 32).foldl
    (fun s g =>
      match s.awaitingRelease g with
      | some (d, a) =>
        if d.block = b then
          s.putSignal g fun x => { x with timer := if s.occupied b then some (s.after (1000 * a.release)) else none }
        else s
      | none => s) s

/-- Whether a result toward end `e` of trap block `b` is toward a signal (R119). -/
def State.towardSignal (s : State) (d : SignalDef) (b : Fin 48) (e : Side) : Bool :=
  if b = d.block then e == d.stands else s.neighbour b e == some (d.block, d.stands.other)

/-- A result of trap `t`, of trap block `b`, is offered to signal `g` (R119). -/
def State.offerResult (s : State) (t : Fin 4) (b : Fin 48) (e : Side) (speed : Nat) (g : Fin 32) : State :=
  match s.awaitingRelease g with
  | some (d, a) =>
    if a.trap = t ∧ s.towardSignal d b e = true then
      if speed ≤ a.limit then s.releaseApproach g
      else
        (s.updSignal g fun x =>
          { x with overspeeds := x.overspeeds + 1, lastOverspeed := some speed }).mark (.signal g)
    else s
  | none => s

/-- A trap result is offered to every signal (R119). -/
def State.aspectTakesResult (s : State) (t : Fin 4) (b : Fin 48) (e : Side) (speed : Nat) : State :=
  (indices 32).foldl (fun s g => s.offerResult t b e speed g) s

/-! ## Mode changes (R122) -/

/-- Entry into RUN from CONFIG: every record begins from its power-on values and every defined signal is marked (R122). -/
def State.signalsRun (s : State) : State :=
  let s := { s with signals := tfill 32 SignalRec.initial }
  s.markAll (((indices 32).filter fun g => (s.signalDef g).isSome).map .signal)

end Sys2Proof.Machine
end

