-- ==== Sys2Proof/Machine/TrainRegister.lean ====
section
/-! DEFINITION. The Train Register (chapter 3): candidacies, growth, reversal, adoption, stray blocks, clearing, placing and
removing, and speeds. -/

namespace Sys2Proof.Machine

/-! ## Clear status handed on (R47) -/

/-- The blocks an occupancy change of `b` can touch: `b`, then the list of the train that holds it, head first. -/
def State.touched (s : State) (b : Fin 48) : List (Fin 48) :=
  b :: match s.holder b with
    | some t => ((Train.blocks (tget s.trains t)).map (·.block)).filter fun c => c != b
    | none => []

/-- Each block of the list that is clear in `s` and was not in `old` is handed to the Route Interlock (R47). The Aspect
Unit reads the clear status when it settles. -/
def State.handClear (old : State) (bs : List (Fin 48)) (s : State) : State :=
  bs.foldl (fun s b => if !old.isClear b && s.isClear b then s.routesTakeClear b else s) s

/-! ## A block becomes occupied (R50 to R56) -/

/-- A candidacy (R51): the train's slot, whether it is at the head, and the end across which it was found. -/
structure Candidacy where
  slot : Fin 24
  atHead : Bool
  across : Side
  deriving DecidableEq, Repr

/-- What train `t` offers to a block that it faces from block `n`, entered by end `y` (R51): a head candidacy when its head
entry is `n` with front end `y`, a tail candidacy when its tail block is `n` with trailing end `y`. -/
def State.offerOf (s : State) (e : Side) (n : Fin 48) (y : Side) (t : Fin 24) : Option Candidacy :=
  let l := Train.blocks (tget s.trains t)
  if l.head? = some ⟨n, y⟩ then some ⟨t, true, e⟩
  else if l.getLast? = some ⟨n, y.other⟩ then some ⟨t, false, e⟩
  else none

/-- The candidacies across end `e` of block `b`; they count only while the neighbour reads OCCUPIED or is held (R51). -/
def State.candidaciesAt (s : State) (b : Fin 48) (e : Side) : List Candidacy :=
  match s.neighbour b e with
  | none => []
  | some (n, y) => if s.occupiedOrHeld n then (indices 24).filterMap (s.offerOf e n y) else []

/-- The candidacies for block `b` (R51). -/
def State.candidacies (s : State) (b : Fin 48) : List Candidacy :=
  s.candidaciesAt b .e0 ++ s.candidaciesAt b .e1

/-- Block `b` becomes stray (R47). -/
def State.becomeStray (s : State) (b : Fin 48) (r : StrayReason) : State :=
  ((s.updFlags b fun f => { f with stray := some r }).mark (.block b)).settlePanel

/-- A train's list reversed, each front end changed to the other end (R53). -/
def reversed (l : List TrainBlock) : List TrainBlock := l.reverse.map fun x => ⟨x.block, x.front.other⟩

/-- The single candidacy is taken (R52, R53), unless the list is full (R54). -/
def State.growTrain (s : State) (b : Fin 48) (c : Candidacy) : State :=
  match tget s.trains c.slot with
  | .active n l speed overlong =>
    if Config.trainRoom ≤ l.length then
      ((s.becomeStray b .overlong).putTrain c.slot (.active n l speed true)).mark (.train c.slot)
    else
      let l := if c.atHead then l else reversed l
      ((s.putTrain c.slot (.active n (⟨b, c.across.other⟩ :: l) speed overlong)).mark (.train c.slot)).mark (.block b)
  | _ => s

/-- The adoption candidacies of slot `t` for block `b` (R55): the front end its single entry would have, once for its
last-seen block being `b` and once for each end across which that block is a neighbour. A record older than the window stays
LOST and offers none (R60). -/
def State.adoptionsOf (s : State) (b : Fin 48) (t : Fin 24) : List (Fin 24 × Side) :=
  match tget s.trains t with
  | .lost _ seen _ _ =>
    if s.ageOf seen.time ≤ 1000 * s.params.adoptionWindow then
      (if seen.block = b then [(t, seen.front)] else []) ++
        [Side.e0, .e1].filterMap fun e =>
          match s.neighbour b e with
          | some (n, _) => if n = seen.block then some (t, e.other) else none
          | none => none
    else []
  | _ => []

/-- A LOST train is adopted onto block `b` (R55). -/
def State.adopt (s : State) (b : Fin 48) (t : Fin 24) (front : Side) : State :=
  match tget s.trains t with
  | .lost n _ speed overlong =>
    ((s.putTrain t (.active n [⟨b, front⟩] speed overlong)).mark (.train t)).mark (.block b)
  | _ => s

/-- With no candidacy, a lost train is looked for (R55). -/
def State.seekLost (s : State) (b : Fin 48) : State :=
  match (indices 24).flatMap (s.adoptionsOf b) with
  | [] => s.becomeStray b .noTrain
  | [(t, front)] => s.adopt b t front
  | _ => s.becomeStray b .ambiguous

/-- Block `b` is sought a train (R51). -/
def State.seekTrain (s : State) (b : Fin 48) : State :=
  match s.candidacies b with
  | [] => s.seekLost b
  | [c] => s.growTrain b c
  | _ => s.becomeStray b .ambiguous

/-- The channel of `b` has changed to OCCUPIED (R50). -/
def State.registerOccupied (s : State) (b : Fin 48) : State :=
  if (tget s.blockFlags b).bridged then (s.updFlags b fun f => { f with bridged := false }).mark (.block b)
  else if (s.holder b).isSome || (tget s.blockFlags b).stray.isSome then s
  else s.seekTrain b

/-! ## A block becomes clear (R57 to R59) -/

/-- Bridged entries exposed at the front of a list are removed (R57), and returned beside what is left. -/
def State.exposed (s : State) : List TrainBlock → List (Fin 48) × List TrainBlock
  | [] => ([], [])
  | x :: l =>
    if (tget s.blockFlags x.block).bridged then
      let (gone, rest) := s.exposed l
      (x.block :: gone, rest)
    else ([], x :: l)

/-- A block that leaves a list: its bridged flag is cleared and its BLOCK subject marked (R57). -/
def State.leaveList (s : State) (b : Fin 48) : State :=
  (s.updFlags b fun f => { f with bridged := false }).mark (.block b)

/-- The head or tail entry `b` of a list of two or more leaves it, and with it any bridged entries exposed, or a middle
entry becomes bridged (R57). -/
def State.blockLeaves (s : State) (t : Fin 24) (n : Nat) (l : List TrainBlock) (speed : Option Nat) (overlong : Bool)
    (b : Fin 48) : State :=
  if l.head?.map (·.block) = some b then
    let (gone, rest) := s.exposed l.tail
    (((b :: gone).foldl State.leaveList s).putTrain t (.active n rest speed overlong)).mark (.train t)
  else if l.getLast?.map (·.block) = some b then
    let (gone, rest) := s.exposed l.reverse.tail
    (((b :: gone).foldl State.leaveList s).putTrain t (.active n rest.reverse speed overlong)).mark (.train t)
  else (s.updFlags b fun f => { f with bridged := true }).mark (.block b)

/-- The channel of `b` has changed to CLEAR (R57 to R59). -/
def State.registerCleared (s : State) (b : Fin 48) : State :=
  match s.holder b with
  | some t =>
    match tget s.trains t with
    | .active n [x] speed overlong =>
      ((s.putTrain t (.lost n ⟨b, x.front, s.ms⟩ speed overlong)).mark (.train t)).mark (.block b)
    | .active n l speed overlong => s.blockLeaves t n l speed overlong b
    | _ => s
  | none =>
    if (tget s.blockFlags b).stray.isSome then
      ((s.updFlags b fun f => { f with stray := none }).mark (.block b)).settlePanel
    else s

/-! ## Placing and removing (R61, R62) -/

/-- The slot of the non-FREE record that holds a train number (R46). -/
def State.slotOf (s : State) (n : Nat) : Option (Fin 24) :=
  (indices 24).find? fun t => Train.number (tget s.trains t) == some n

/-- The lowest-numbered FREE slot (R61). -/
def State.freeSlot (s : State) : Option (Fin 24) := (indices 24).find? fun t => tget s.trains t == .free

/-- PLACE_TRAIN (R61). -/
def State.placeTrain (d : PlaceReq) (s : State) : State × Reply :=
  if s.mode = .config then s.refuse .wrongMode
  else
    match inRange 1 9999 d.number, index? 48 d.block, Sent.required d.leading with
    | some n, some b, some e =>
      if (s.blockDef b).isNone then s.refuse .notDefined
      else if (s.slotOf n).isSome then s.refuse .duplicate
      else
        match s.freeSlot with
        | none => s.refuse .tableFull
        | some t =>
          if !s.occupied b || (s.holder b).isSome then s.refuse .occupied
          else
            let s := s.putTrain t (.active n [⟨b, e⟩] none false)
            let s := s.updFlags b fun f => { f with stray := none }
            (((s.mark (.train t)).mark (.block b)).settlePanel, .ack [BitVec.ofNat 8 t.val])
    | _, _, _ => s.refuse .badValue

/-- An entry of a removed train is dealt with by its block's channel (R62). -/
def State.dropEntry (s : State) (b : Fin 48) : State :=
  ((s.updFlags b fun f =>
    { stray := if s.occupied b then some .removed else f.stray, bridged := false }).mark (.block b)).settlePanel

/-- A record becomes FREE (R62): its entries are dealt with, and the removal and each change of clear status are handed
on. -/
def State.freeTrain (s : State) (t : Fin 24) : State :=
  let bs := (Train.blocks (tget s.trains t)).map (·.block)
  let old := s
  let s := (s.putTrain t .free).mark (.train t)
  let s := bs.foldl State.dropEntry s
  (State.handClear old bs s).callExamine

/-- REMOVE_TRAIN (R62). -/
def State.removeTrain (number : Nat) (s : State) : State × Reply :=
  if s.mode = .config then s.refuse .wrongMode
  else
    match inRange 1 9999 number with
    | none => s.refuse .badValue
    | some n =>
      match s.slotOf n with
      | none => s.refuse .notDefined
      | some t => (s.freeTrain t, Reply.done)

/-! ## Speeds (R63) -/

/-- The Register takes a trap result of the trap block `b` (R63). -/
def State.registerSpeed (s : State) (b : Fin 48) (speed : Nat) : State :=
  match s.holder b with
  | some t =>
    match tget s.trains t with
    | .active n l _ overlong => (s.putTrain t (.active n l (some speed) overlong)).mark (.train t)
    | _ => s
  | none => s

end Sys2Proof.Machine
end

