-- ==== Sys2Proof/Machine/Gates.lean ====
section
/-! DEFINITION. The Gate Timer (chapter 7): filters, traps, the scale speed and the delivery of results. -/

namespace Sys2Proof.Machine

/-- The trap a gate belongs to (R126). -/
def trapOf (g : Fin 8) : Fin 4 := ⟨g.val / 2, by omega⟩

/-- Gate A of a trap. -/
def gateA (t : Fin 4) : Fin 8 := ⟨2 * t.val, by omega⟩

/-- Gate B of a trap. -/
def gateB (t : Fin 4) : Fin 8 := ⟨2 * t.val + 1, by omega⟩

/-- The direction of a timing that starts at this gate: A→B from gate A, B→A from gate B (R126, R131). -/
def startDir (g : Fin 8) : TrapDir := if g.val % 2 = 0 then .ab else .ba

/-- The scale speed of a completed timing in tenths of km/h (R135). -/
def scaleSpeed (distance divisor t : Nat) : Nat :=
  if t = 0 then 9999 else min 9999 ((72000 * divisor * distance + t) / (2 * t))

/-- The end of the trap block toward which a train timed in a direction was moving (R136). -/
def TrapDef.toward (d : TrapDef) : TrapDir → Side
  | .ab => d.abEnd
  | .ba => d.abEnd.other

/-- The stamp a number of µs after another. -/
def stampAfter (x : Stamp) (us : Nat) : Stamp := x + BitVec.ofNat 32 us

/-- A timing starts or its t0 is overwritten (R131, R132). -/
def State.startTiming (s : State) (t : Fin 4) (dir : TrapDir) (t0 : Stamp) (overwritten : Bool) : State :=
  (s.updTrap t fun x =>
    { x with state := .timing dir t0 overwritten (stampAfter t0 Config.trapTimeoutUs) }).mark (.trap t)

/-- A result is handed to the Train Register, the Aspect Unit, the cues and the text display (R137). -/
def State.deliver (s : State) (t : Fin 4) (d : TrapDef) (r : TrapResult) : State :=
  let s := s.registerSpeed d.block r.speed
  let s := s.aspectTakesResult t d.block r.toward r.speed
  let s := s.setCuesFor (.trapResult t)
  if s.params.displayTrap = some t then s.displayResult r.speed else s

/-- A timing completes (R132, R136, R137). -/
def State.completeTiming (s : State) (t : Fin 4) (d : TrapDef) (dir : TrapDir) (t0 : Stamp) (overwritten : Bool)
    (stamp : Stamp) : State :=
  let elapsed := (stamp - t0).toNat
  let n := (tget s.traps t).results + 1
  let r : TrapResult :=
    ⟨scaleSpeed d.distance s.params.scaleDivisor elapsed, d.toward dir, elapsed, overwritten, n⟩
  ((s.updTrap t fun x =>
    { x with state := .holdoff, last := some r, results := n, outcome := some .result }).mark (.trap t)).deliver t d r

/-- A hit of gate `g` is taken by its trap (R131, R132, R134). -/
def State.trapHit (s : State) (g : Fin 8) (d : TrapDef) (stamp : Stamp) : State :=
  let t := trapOf g
  match (tget s.traps t).state with
  | .idle => s.startTiming t (startDir g) stamp false
  | .timing dir t0 overwritten _ =>
    if dir = startDir g then s.startTiming t dir stamp true else s.completeTiming t d dir t0 overwritten stamp
  | .holdoff => s

/-- A filter after an edge, and whether it gives a hit (R128). -/
def Filter.takeEdge (f : Filter) (edges : Nat) (expiry : Stamp) : Filter × Bool :=
  match f with
  | .quiet => if edges ≤ 1 then (.spent expiry, true) else (.counting 1 expiry, false)
  | .counting n _ => if edges ≤ n + 1 then (.spent expiry, true) else (.counting (n + 1) expiry, false)
  | .spent _ => (.spent expiry, false)

/-- An edge is taken by its gate's filter in RUN and HALT where the gate's trap is defined (R126, R128). -/
def State.takeEdge (s : State) (g : Fin 8) (stamp : Stamp) : State :=
  if s.mode = .config then s
  else
    match s.trapDef (trapOf g) with
    | none => s
    | some d =>
      let (f, hit) := (tget s.filters g).takeEdge d.edges (stampAfter stamp (1000 * d.quiet))
      let s := s.putFilter g f
      if hit then s.trapHit g d stamp else s

/-- A trap in HOLDOFF with both filters QUIET enters IDLE (R134). -/
def State.testHoldoff (s : State) (t : Fin 4) : State :=
  if (tget s.traps t).state = .holdoff ∧ tget s.filters (gateA t) = .quiet ∧ tget s.filters (gateB t) = .quiet then
    (s.updTrap t fun x => { x with state := .idle }).mark (.trap t)
  else s

/-- The expiry of a filter's quiet timer, where one runs. -/
def Filter.expiry : Filter → Option Stamp
  | .quiet => none
  | .counting _ e => some e
  | .spent e => some e

/-- A filter enters QUIET (R129). -/
def State.goQuiet (s : State) (g : Fin 8) : State := (s.putFilter g .quiet).testHoldoff (trapOf g)

/-- A timing is abandoned (R133). -/
def State.abandonTiming (s : State) (t : Fin 4) : State :=
  (s.updTrap t fun x =>
    { x with state := .idle, timeouts := x.timeouts + 1, outcome := some .timeout }).mark (.trap t)

/-- Every filter and trap takes its power-on values (R127, R130, R139). -/
def State.gatesInitial (s : State) : State :=
  { s with filters := tfill 8 .quiet, traps := tfill 4 TrapRec.initial }

end Sys2Proof.Machine
end

