-- ==== Sys2Proof/Machine/PointDrive.lean ====
section
/-! DEFINITION. The Point Drive (chapter 4): moves, phases, decisions, contacts at rest, proof, and its mode changes. -/

namespace Sys2Proof.Machine

/-- Do `f`, and hand on a change of point `p`'s proof status that it makes (R77, R83). -/
def State.watchProof (s : State) (p : Fin 64) (f : State → State) : State :=
  let s' := f s
  if s'.proof p = s.proof p then s' else (s'.mark (.point p)).routesTakeProof p

/-- The profile of a group (R5). -/
def State.profile (s : State) (g : Fin 8) : GroupDef := tget s.tables.groups g

/-- A timer for `ms`, over at once when that is 0. -/
def State.startTimer (s : State) (ms : Nat) : Timer := if ms = 0 then none else some (s.after ms)

/-! ## Phases of a move -/

/-- The group enters PULSE (R71): the strobe is energised, the pulse start recorded, and the point's lie becomes UNKNOWN. The
feedback window of a HOLD point runs from the pulse start (R72). -/
def State.enterPulse (s : State) (g : Fin 8) : State :=
  match (tget s.groups g).current with
  | none => s
  | some m =>
    s.watchProof m.point fun s =>
      let window := if s.feedback m.point = .hold then some (s.after (s.profile g).window) else none
      let s := s.updGroup g fun x =>
        { x with
          phase := .pulse
          current := some { m with phaseAt := s.clock.us, pulseAt := some s.clock.us }
          phaseTimer := some (s.after (s.profile g).pulse)
          windowTimer := window }
      ((s.updPoint m.point fun x => { x with lie := none }).mark (.point m.point)).settlePanel

/-- A group that is IDLE, not paused, in RUN, with a queue that is not empty, starts its next move (R69). A setup time of 0
ends SETUP within the event. -/
def State.startMove (s : State) (g : Fin 8) : State :=
  let x := tget s.groups g
  match x.queue with
  | [] => s
  | (p, l) :: rest =>
    if x.phase = .idle ∧ ¬ x.paused ∧ s.mode = .run then
      let s := s.watchProof p fun s =>
        let s := s.updGroup g fun x =>
          { x with
            phase := .setup, current := some ⟨p, l, s.clock.us, none⟩, outcome := none, queue := rest
            phaseTimer := some (s.after (s.profile g).setup), windowTimer := none }
        ((s.updPoint p fun x => { x with disagree := 0, asFound := false }).mark (.point p)).settlePanel
      if (s.profile g).setup = 0 then s.enterPulse g else s
    else s

/-- A queued entry equal to the lie a point has taken is removed (R68). -/
def State.dropMet (s : State) (g : Fin 8) (p : Fin 64) (l : Lie) : State :=
  s.updGroup g fun x => { x with queue := x.queue.filter fun e => !(e == (p, l)) }

/-- The current move is decided (R70): the outcome is recorded, the lie and the failed flag are set, proof is evaluated
again, and the move end is handed to the Route Interlock, which fails SETTING routes over a failed point (R93) and takes the
move end as an occasion for queue examination (R88). -/
def State.decideMove (s : State) (g : Fin 8) (o : MoveOutcome) : State :=
  match (tget s.groups g).current with
  | none => s
  | some m =>
    let s := s.watchProof m.point fun s =>
      let s := s.updGroup g fun x => { x with outcome := some o }
      match o with
      | .isSet =>
        (((s.updPoint m.point fun x => { x with lie := some m.target, failed := false }).dropMet g m.point
          m.target).mark (.point m.point)).settlePanel
      | .failed => ((s.updPoint m.point fun x => { x with lie := none, failed := true }).mark (.point m.point)).settlePanel
    let s := if o = .failed then s.routesTakeFailed m.point else s
    s.callExamine

/-- RECOVERY ends when its time is over and the move is decided: the move is removed, the group becomes IDLE and may start
its next move (R74). -/
def State.testRecovery (s : State) (g : Fin 8) : State :=
  let x := tget s.groups g
  if x.phase = .recovery ∧ x.phaseTimer = none ∧ x.outcome.isSome then
    (s.updGroup g fun x => { x with phase := .idle, current := none, outcome := none, windowTimer := none }).startMove g
  else s

/-- The strobe is de-energised and the group enters RECOVERY, with the window timer given (R71 to R73). -/
def State.enterRecovery (s : State) (g : Fin 8) (window : Timer) : State :=
  (s.updGroup g fun x =>
    { x with
      phase := .recovery
      current := x.current.map fun m => { m with phaseAt := s.clock.us }
      phaseTimer := s.startTimer (s.profile g).recovery
      windowTimer := window }).testRecovery g

/-- The pulse of a NONE or HOLD move ends: it is decided, and the group enters RECOVERY (R71, R72). -/
def State.endPulse (s : State) (g : Fin 8) (o : MoveOutcome) : State := (s.decideMove g o).enterRecovery g none

/-- The pulse time is over (R71 to R73). -/
def State.pulseTimeOver (s : State) (g : Fin 8) : State :=
  match (tget s.groups g).current with
  | none => s
  | some m =>
    let s := s.updGroup g fun x => { x with phaseTimer := none }
    match s.feedback m.point with
    | .none => s.endPulse g .isSet
    | .hold =>
      if s.contactReads m.point m.target then s.endPulse g .isSet
      else
        match (tget s.groups g).windowTimer with
        | none => s.endPulse g .failed
        | some t => if t ≤ s.clock.us then s.endPulse g .failed else s
    | .confirm => s.enterRecovery g (some (s.after (s.profile g).window))

/-! ## Move requests (R68) -/

/-- The entry of point `p` in a move queue gets a new target, at its place. -/
def retarget (p : Fin 64) (l : Lie) (q : List (Fin 64 × Lie)) : List (Fin 64 × Lie) :=
  q.map fun e => if e.1 = p then (p, l) else e

/-- A move request, applied to the point's group at once (R68). -/
def State.moveRequest (s : State) (p : Fin 64) (l : Lie) : State :=
  match s.pointDef p with
  | none => s
  | some d =>
    let there : Bool := match s.movingTarget p with
      | some t => t == l
      | none => (tget s.points p).lie == some l
    let s := match there, s.queuedTarget p with
      | true, none => s
      | false, none => (s.updGroup d.group fun x => { x with queue := x.queue ++ [(p, l)] }).mark (.point p)
      | true, some _ =>
        (s.updGroup d.group fun x => { x with queue := x.queue.filter fun e => e.1 != p }).mark (.point p)
      | false, some t =>
        if t = l then s
        else (s.updGroup d.group fun x => { x with queue := retarget p l x.queue }).mark (.point p)
    s.startMove d.group

/-! ## Contacts (R66, R75, R76) -/

/-- A point at rest takes its lie from its contact while the as-found pending flag is set (R76). -/
def State.takeAsFound (s : State) (p : Fin 64) (g : Fin 8) (v : Reading) : State :=
  match v.lie with
  | none => s
  | some l =>
    s.watchProof p fun s =>
      (((s.updPoint p fun x => { x with lie := some l, asFound := false }).dropMet g p l).mark (.point p)).settlePanel

/-- A point made failed by unexpected feedback (R75): nothing but the changes of proof and of the failed flag is handed
on. -/
def State.failAtRest (s : State) (p : Fin 64) : State :=
  (s.watchProof p fun s =>
    ((s.updPoint p fun x => { x with failed := true, lie := none, disagree := 0 }).mark (.point p)).settlePanel).routesTakeFailed
      p

/-- A watched point's arrival is compared with its lie (R75). -/
def State.watchArrival (s : State) (p : Fin 64) (l : Lie) (v : Reading) : State :=
  if v = Lie.reading l then s.updPoint p fun x => { x with disagree := 0 }
  else
    let n := (tget s.points p).disagree + 1
    if n < 3 then s.updPoint p fun x => { x with disagree := n } else s.failAtRest p

/-- An arrival at a point at rest of mode HOLD or CONFIRM: as found, or watched (R75, R76). -/
def State.arrivalAtRest (s : State) (p : Fin 64) (g : Fin 8) (v : Reading) : State :=
  let x := tget s.points p
  if x.asFound then s.takeAsFound p g v
  else
    match x.lie with
    | some l => if x.failed then s else s.watchArrival p l v
    | none => s

/-- An arrival at a point that is MOVING: it may end a HOLD pulse held on past its time, or decide a CONFIRM move during
its confirm wait (R72, R73). -/
def State.arrivalMoving (s : State) (g : Fin 8) (f : Feedback) (t : Lie) (v : Reading) : State :=
  let x := tget s.groups g
  if v ≠ Lie.reading t then s
  else
    match f, x.phase with
    | .hold, .pulse => if x.phaseTimer = none then s.endPulse g .isSet else s
    | .confirm, .recovery =>
      ((s.updGroup g fun x => { x with windowTimer := none }).decideMove g .isSet).testRecovery g
    | _, _ => s

/-- A good reading replaces the contact reading, clears stale and restarts the stale timer (R34); a value that differs and a
change of staleness mark the POINT subject (R66), and a change of staleness sets the disagreement count to 0 (R75). -/
def State.takeReading (s : State) (p : Fin 64) (v : Reading) : State :=
  let c := tget s.contacts p
  s.watchProof p fun s =>
    let s := s.updContact p fun _ => ⟨v, false, some (s.after Config.staleMs)⟩
    let s := if c.stale then s.updPoint p fun x => { x with disagree := 0 } else s
    if c.stale ∨ c.reading ≠ v then s.mark (.point p) else s

/-- A contact arrival at a defined point (R34, R66). -/
def State.contactArrives (s : State) (p : Fin 64) (d : PointDef) (v : Reading) : State :=
  let s := s.takeReading p v
  match d.feedback with
  | .none => s
  | f =>
    match s.movingTarget p with
    | some t => s.arrivalMoving d.group f t v
    | none => s.arrivalAtRest p d.group v

/-- A contact becomes stale and keeps its last reading (R34, R66, R75). -/
def State.contactGoesStale (s : State) (p : Fin 64) : State :=
  let c := tget s.contacts p
  s.watchProof p fun s =>
    let s := s.updContact p fun c => { c with stale := true, timer := none }
    if c.stale then s else (s.updPoint p fun x => { x with disagree := 0 }).mark (.point p)

/-! ## Mode changes (R80 to R82) -/

/-- Entry into HALT: every group is paused (R80). -/
def State.pointsHalt (s : State) : State :=
  (indices 8).foldl (fun s g => s.updGroup g fun x => { x with paused := true }) s

/-- Entry into RUN from HALT: every pause is lifted and each IDLE group with a queue starts its next move (R80). -/
def State.pointsResume (s : State) : State :=
  (indices 8).foldl (fun s g => (s.updGroup g fun x => { x with paused := false }).startMove g) s

/-- The lie a point keeps when its group's current move ends at entry into CONFIG (R82). -/
def GroupRec.lieAtStop (x : GroupRec) (p : Fin 64) (l : KnownLie) : KnownLie :=
  match x.current with
  | some m =>
    if m.point = p ∧ (x.phase = .pulse ∨ (x.phase = .recovery ∧ x.outcome = none)) then none else l
  | none => l

/-- Entry into CONFIG (R82): every group ends its move, and each point keeps its lie as R82 gives. -/
def State.pointsConfig (s : State) : State :=
  { s with
    points := tgen 64 fun p =>
      let x := tget s.points p
      let lie := match s.pointDef p with
        | some d => (tget s.groups d.group).lieAtStop p x.lie
        | none => x.lie
      ⟨lie, false, false, 0, 0⟩
    groups := tfill 8 GroupRec.initial }

/-- A defined point at entry into RUN from CONFIG (R81). -/
def State.pointHome (s : State) (p : Fin 64) : State :=
  match s.pointDef p with
  | none => s
  | some d =>
    let s := match d.home with
      | .normal => s.moveRequest p .normal
      | .reverse => s.moveRequest p .reverse
      | .asFound => s.updPoint p fun x => { x with lie := none, asFound := d.feedback != Feedback.none }
    s.mark (.point p)

/-- Entry into RUN from CONFIG, in rising point index (R81). -/
def State.pointsRun (s : State) : State := (indices 64).foldl State.pointHome s

end Sys2Proof.Machine
end

