-- ==== Sys2Proof/Machine/TurntableDrive.lean ====
section
/-! DEFINITION. The Turntable Drive (chapter 8): choice of move, ramp, the move sequence, index correction, homing, kill and
faults. -/

namespace Sys2Proof.Machine

/-! ## Positions, choice and ramp (R145 to R148) -/

/-- The target position of a road for an end (R145). -/
def TurntableDef.targetOf (t : TurntableDef) (p : Nat) : DeckEnd → Nat
  | .a => p
  | .b => (p + t.r / 2) % t.r

/-- The distance from `x` to `target` in a direction, mod R (R145). -/
def TurntableDef.dist (t : TurntableDef) (x target : Nat) : StepDir → Nat
  | .forward => (target + t.r - x) % t.r
  | .reverse => (x + t.r - target) % t.r

/-- Whether a move may be made: under the barrier it may not carry the deck across position 0 (R146). -/
def TurntableDef.allowed (t : TurntableDef) (x d : Nat) : StepDir → Bool
  | .forward => !t.barrier || decide (x + d ≤ t.r - 1)
  | .reverse => !t.barrier || decide (d ≤ x)

/-- A candidate pair of target and direction with its distance (R147). -/
structure Candidate where
  side : DeckEnd
  target : Nat
  dir : StepDir
  distance : Nat
  deriving DecidableEq, Repr

/-- The ends a request names (R147). -/
def askedEnds : DeckAsk → List DeckEnd
  | .a => [.a]
  | .b => [.b]
  | .any => [.a, .b]

/-- The candidate pairs, end A before end B and FORWARD before REVERSE, those disallowed struck out (R147). -/
def TurntableDef.candidates (t : TurntableDef) (x p : Nat) (e : DeckAsk) : List Candidate :=
  ((askedEnds e).flatMap fun side =>
    [StepDir.forward, .reverse].map fun dir =>
      let target := t.targetOf p side
      ⟨side, target, dir, t.dist x target dir⟩).filter fun c => t.allowed x c.distance c.dir

/-- The first candidate of least distance, so that ties fall to end A and then to FORWARD (R147). -/
def bestOf : List Candidate → Option Candidate
  | [] => none
  | c :: l =>
    match bestOf l with
    | none => some c
    | some d => some (if c.distance ≤ d.distance then c else d)

/-- A step's rate (R148). -/
def TurntableDef.rate (t : TurntableDef) (s rem : Nat) : Nat :=
  min t.vMax (t.vMin + t.increment * min s (rem - 1))

/-- A step's interval in µs: 1 000 000 ÷ rate, halves rounded up, held within 50 to 65 535 (R148). -/
def interval (rate : Nat) : Nat := max 50 (min 65535 ((2000000 + rate) / (2 * rate)))

/-- The position one step on, mod R (R140). -/
def TurntableDef.stepFrom (t : TurntableDef) (x : Nat) : StepDir → Nat
  | .forward => (x + 1) % t.r
  | .reverse => (x + t.r - 1) % t.r

/-! ## What the deck hands on (R166) -/

/-- A change of the deck's state, alignment or lock: the TURNTABLE subject is marked, the panel follows (R184), the deck block's
feed follows its demand, and the Route Interlock and a waiting run take the change (R165, R166). -/
def State.deckChanged (s : State) : State :=
  let s := (s.mark .turntable).settlePanel
  let s := match s.deckBlock with
    | some b => s.feedFollow b
    | none => s
  s.routesTakeDeck.noteDeck

/-- A move ends with its one outcome, recorded and handed to its origin (R154). Each ALIGNED outcome sets the
TURNTABLE_ALIGNED cues. -/
def State.handOutcome (s : State) (m : MoveRec) (o : TurnOutcome) : State :=
  let s := (s.updDeck fun d => { d with lastOutcome := some (o, m.origin) }).mark .turntable
  let s := match m.origin with
    | .host => s
    | .route r => s.routeTakesOutcome r o
    | .showing i => s.noteTurnOutcome i o
  if o = .aligned then s.setCuesFor .turntableAligned else s

/-- The move under way (R142). -/
def DeckState.move : DeckState → Option MoveRec
  | .unlocking m _ => some m
  | .moving m _ => some m
  | .settling m _ => some m
  | .locking m _ => some m
  | _ => none

/-- Whether the deck is busy with a move or a homing (R143). -/
def DeckState.busy : DeckState → Bool
  | .unlocking .. => true
  | .moving .. => true
  | .settling .. => true
  | .locking .. => true
  | .homing .. => true
  | _ => false

/-! ## The move sequence (R150 to R153) -/

/-- The bolt-in contact reads closed in LOCKING (R153): the deck is IDLE at T, aligned and locked, and the outcome ALIGNED is
handed on. The entry into IDLE is an occasion for queue examination (R88). -/
def State.lockDone (s : State) (m : MoveRec) : State :=
  let s := s.updDeck fun d =>
    { d with
      state := .idle, bolt := .off, pos := some m.target, align := some ⟨m.road, m.side⟩, locked := true }
  ((s.handOutcome m .aligned).deckChanged).callExamine

/-- The end of the relay deadtime (R152): the relay for the move's end closes, the bolt drives in, and the deck enters
LOCKING, which ends at once if the bolt-in contact already reads closed (R153). -/
def State.enterLocking (s : State) (t : TurntableDef) (m : MoveRec) : State :=
  let s := s.updDeck fun d =>
    { d with
      state := .locking m (s.after t.bolt), bolt := .driveIn
      relay := match m.side with
        | .a => .normal
        | .b => .reverse }
  let s := s.deckChanged
  if s.deck.boltIn then s.lockDone m else s

/-- Entry into SETTLING (R152); a settle time of 0 passes straight to the relay deadtime. -/
def State.enterSettling (s : State) (t : TurntableDef) (m : MoveRec) : State :=
  let part : SettlePart := if t.settle = 0 then .relay (s.after t.deadtime) else .settle (s.after t.settle)
  (s.updDeck fun d => { d with state := .settling m part }).deckChanged

/-- The next ramp step is issued (R148), with its interval running from now. -/
def State.issueStep (s : State) (t : TurntableDef) (m : MoveRec) (x : Nat) : State :=
  let rate := t.rate m.steps (t.dist x m.target m.dir)
  (s.updDeck fun d =>
    { d with
      stepDir := m.dir
      state := .moving m (.ramp rate (interval rate) (s.afterUs (interval rate))) }).mark .turntable

/-- Entry into MOVING (R151): a direction deadtime when the last direction is present and differs, else RAMP. -/
def State.enterMoving (s : State) (t : TurntableDef) (m : MoveRec) : State :=
  let s := match s.deck.lastDir, s.deck.pos with
    | some d, some x =>
      if d = m.dir then s.issueStep t m x
      else s.updDeck fun k => { k with state := .moving m (.deadtime (s.after t.deadtime)) }
    | none, some x => s.issueStep t m x
    | _, none => s.updDeck fun k => { k with state := .moving m (.deadtime (s.after t.deadtime)) }
  s.deckChanged

/-- UNLOCKING ends (R150): the bolt is out, both relays open, and the deck enters MOVING, or SETTLING when D = 0. -/
def State.unlockDone (s : State) (t : TurntableDef) (m : MoveRec) : State :=
  let s := s.updDeck fun d => { d with bolt := .off, relay := .bothOpen }
  if m.distance = 0 then s.enterSettling t m else s.enterMoving t m

/-- Entry into UNLOCKING (R150), which ends at once if the bolt-out contact already reads closed. -/
def State.enterUnlocking (s : State) (t : TurntableDef) (m : MoveRec) : State :=
  let s := s.updDeck fun d =>
    { d with
      state := .unlocking m (s.after t.bolt), align := none, locked := false, bolt := .driveOut }
  let s := s.deckChanged
  if s.deck.boltOut then s.unlockDone t m else s

/-! ## TURN (R143, R144) -/

/-- A route other than the origin's own holds elements with the deck block in its path (R143, R157); with R92 this is how R94
is kept. -/
def State.deckHeldByRoute (s : State) (deck : Fin 48) (origin : TurnOrigin) : Bool :=
  (indices 64).any fun r =>
    (tget s.routes r).holds && !(origin == .route r) &&
      match s.routeDef r with
      | some d => d.path.contains deck
      | none => false

/-- The deck block reads OCCUPIED, and so does a road block that a deck end faces through the join (R143, R157). -/
def State.deckOccupied (s : State) (deck : Fin 48) : Bool :=
  s.occupied deck &&
    match s.deck.joined with
    | none => false
    | some al =>
      [Side.e0, .e1].any fun e =>
        match s.tables.fromDeck al e with
        | some (b, _) => s.occupied b
        | none => false

/-- Why a TURN of a defined turntable and road is refused, if it is (R143, checks 4 to 7). -/
def State.turnRefusal (s : State) (t : TurntableDef) (origin : TurnOrigin) : Option Reason :=
  if s.deck.state.busy then some .busy
  else
    match s.deck.state with
    | .unhomed => some .notHomed
    | .faulted _ => some .notHomed
    | _ =>
      if s.deckHeldByRoute t.deckBlock origin then some .locked
      else if s.deckOccupied t.deckBlock then some .occupied
      else none

/-- Whether the deck is already at the target of a TURN: IDLE, locked, and aligned with the road and the end named, ANY
being either (R144). -/
def State.alreadyAt (s : State) (road : Fin 24) (e : DeckAsk) : Bool :=
  match s.deck.joined with
  | some al => al.road == road && (askedEnds e).contains al.side
  | none => false

/-- A TURN by a valid road and end (R143 from check 3, R144, R147). -/
def State.turnTo (s : State) (origin : TurnOrigin) (road : Fin 24) (e : DeckAsk) : State × Reply :=
  match s.tables.turntable, s.roadDef road with
  | some t, some d =>
    match s.turnRefusal t origin with
    | some r => s.refuse r
    | none =>
      if s.alreadyAt road e then (s, Reply.done)
      else
        match s.deck.pos with
        | none => s.refuse .notHomed
        | some x =>
          match bestOf (t.candidates x d.position e) with
          | none => s.refuse .notHomed
          | some c => (s.enterUnlocking t ⟨origin, road, c.side, c.target, c.dir, c.distance, 0⟩, .accepted)
  | _, _ => s.refuse .notDefined

/-- TURN from the Route Interlock or the Show Sequencer (R143). -/
def State.turnInternal (s : State) (origin : TurnOrigin) (road : Fin 24) (e : DeckAsk) : State × Reply :=
  if s.mode = .run then s.turnTo origin road e else s.refuse .wrongMode

/-! ## Steps (R149, R156) -/

/-- A ramp step completes (R149). -/
def State.rampStep (s : State) (t : TurntableDef) (m : MoveRec) (x : Nat) : State :=
  let x' := t.stepFrom x m.dir
  let m' := { m with steps := m.steps + 1 }
  let s := (s.updDeck fun d => { d with pos := some x', lastDir := some m.dir }).mark .turntable
  if t.dist x' m.target m.dir = 0 then s.enterSettling t m' else s.issueStep t m' x'

/-- The next creep step is issued at v_min (R156). -/
def State.issueCreep (s : State) (t : TurntableDef) (m : MoveRec) (n : Nat) : State :=
  (s.updDeck fun d =>
    { d with
      stepDir := m.dir.other
      state := .moving m (.creep n (s.afterUs (interval t.vMin))) }).mark .turntable

/-- A creep step completes (R156). -/
def State.creepStep (s : State) (t : TurntableDef) (m : MoveRec) (n x : Nat) : State :=
  let s := (s.updDeck fun d =>
    { d with pos := some (t.stepFrom x m.dir.other), lastDir := some m.dir.other }).mark .turntable
  if n ≤ 1 then s.enterSettling t m else s.issueCreep t m (n - 1)

/-! ## Faults (R162) -/

/-- Entry into FAULT (R162): the bolt drive OFF, both relays open, the position lost; a move ends with FAULT. -/
def State.enterFault (s : State) (c : FaultCause) : State :=
  let m := s.deck.state.move
  let s := s.updDeck fun d =>
    { d with
      state := .faulted c, pos := none, align := none, locked := false, bolt := .off, relay := .bothOpen }
  let s := match m with
    | some m => s.handOutcome m .fault
    | none => s
  s.deckChanged

/-! ## Homing (R158) -/

/-- A homing step is issued FORWARD at v_min (R158). It changes no field whose change R165 marks (log entry 26). -/
def State.issueHoming (s : State) (t : TurntableDef) (known : Bool) (n : Nat) : State :=
  s.updDeck fun d =>
    { d with
      stepDir := .forward
      state := .homing known n (.search (s.afterUs (interval t.vMin))) }

/-- The bolt part of a homing ends (R158): a deadtime follows when the last direction is REVERSE, else the search. The deck stays
HOMING, so R165 marks nothing (log entry 26). -/
def State.homingBoltOut (s : State) (t : TurntableDef) (known : Bool) (n : Nat) : State :=
  let s := s.updDeck fun d => { d with bolt := .off, relay := .bothOpen }
  if s.deck.lastDir = some .reverse then
    s.updDeck fun d => { d with state := .homing known n (.deadtime (s.after t.deadtime)) }
  else s.issueHoming t known n

/-- Homing begins (R158): known when the state left was IDLE or STOPPED. The bolt part ends at once if the bolt-out contact
already reads closed. -/
def State.startHoming (s : State) (t : TurntableDef) : State :=
  let known := match s.deck.state with
    | .idle => true
    | .stopped => true
    | _ => false
  let s := s.updDeck fun d =>
    { d with
      state := .homing known 0 (.bolt (s.after t.bolt)), align := none, locked := false, bolt := .driveOut
      pos := if known then d.pos else none }
  let s := s.deckChanged
  if s.deck.boltOut then s.homingBoltOut t known 0 else s

/-- A homing search step completes (R158): FAULT with INDEX_NOT_FOUND once the count has reached R + R/4, which need not be
whole. -/
def State.homingStep (s : State) (t : TurntableDef) (known : Bool) (n : Nat) : State :=
  let s := (s.updDeck fun d =>
    { d with
      lastDir := some .forward
      pos := if known then d.pos.map fun x => t.stepFrom x .forward else d.pos
      state := .homing known (n + 1) (.search s.clock.us) }).mark .turntable
  if 5 * t.r ≤ 4 * (n + 1) then s.enterFault .indexNotFound else s.issueHoming t known (n + 1)

/-- The index edge that ends a homing (R158): X is 0, the deck IDLE, unaligned and unlocked. -/
def State.homingDone (s : State) : State :=
  ((s.updDeck fun d =>
    { d with state := .idle, pos := some 0, align := none, locked := false }).deckChanged).callExamine

/-! ## Index correction (R155, R156) -/

/-- The signed error of a captured position (R155). -/
def TurntableDef.errorOf (t : TurntableDef) (x : Nat) : Int :=
  if x < t.r / 2 then (x : Int) else (x : Int) - (t.r : Int)

/-- An index edge in phase RAMP with the barrier off (R155, R156). `p` is the phase of the step in progress. -/
def State.indexCapture (s : State) (t : TurntableDef) (m : MoveRec) (p : MovePhase) (x : Nat) : State :=
  let e := t.errorOf x
  if t.tolerance < e.natAbs then s.enterFault .indexError
  else
    let s := (s.updDeck fun d =>
      { d with pos := some 0, corrections := d.corrections + 1, lastCorrection := some e }).mark .turntable
    let rem := t.dist 0 m.target m.dir
    if rem = 0 then s.enterSettling t m
    else if rem ≤ t.r / 2 then s.updDeck fun d => { d with state := .moving m p }
    else
      (s.updDeck fun d =>
        { d with state := .moving m (.reversal (t.r - rem) (s.after t.deadtime)) }).mark .turntable

/-! ## Kill (R160) -/

/-- The rate of the step in progress in a phase: v_min in CREEP, 0 where no step is in progress (R160). -/
def MovePhase.currentRate (t : TurntableDef) : MovePhase → Nat
  | .ramp rate _ _ => rate
  | .creep .. => t.vMin
  | _ => 0

/-- The state a kill leaves: STOPPED with X kept, or UNHOMED with X lost. -/
def Deck.killed (d : Deck) (kept : Bool) : Deck :=
  { d with
    state := if kept then .stopped else .unhomed
    pos := if kept then d.pos else none, align := none, locked := false }

/-- A kill acts according to the state it finds (R159, R160). -/
def State.kill (s : State) : State :=
  match s.tables.turntable with
  | none => s
  | some t =>
    match s.deck.state with
    | .moving m p =>
      let kept := decide (MovePhase.currentRate t p ≤ 2 * t.vMin)
      ((s.updDeck fun d => d.killed kept).handOutcome m .stopped).deckChanged
    | .homing known _ _ => (s.updDeck fun d => d.killed known).deckChanged
    | .unlocking m _ => ((s.updDeck fun d => d.killed true).handOutcome m .stopped).deckChanged
    | .settling m _ => ((s.updDeck fun d => d.killed true).handOutcome m .stopped).deckChanged
    | .locking m _ => ((s.updDeck fun d => d.killed true).handOutcome m .stopped).deckChanged
    | _ => s

/-! ## Contacts (R141, R150, R153, R158, R161) -/

/-- The bolt-out contact takes a new level (R141, R150, R158). -/
def State.boltOutLevel (s : State) (t : TurntableDef) (closed : Bool) : State :=
  let s := s.updDeck fun d =>
    { d with
      boltOut := closed
      bolt := if closed ∧ d.bolt = .driveOut then .off else d.bolt }
  if closed then
    match s.deck.state with
    | .unlocking m _ => s.unlockDone t m
    | .homing known n (.bolt _) => s.homingBoltOut t known n
    | _ => s
  else s

/-- The bolt-in contact takes a new level (R141, R153, R161). -/
def State.boltInLevel (s : State) (closed : Bool) : State :=
  let s := s.updDeck fun d =>
    { d with
      boltIn := closed
      bolt := if closed ∧ d.bolt = .driveIn then .off else d.bolt }
  match s.deck.state with
  | .locking m _ => if closed then s.lockDone m else s
  | .idle =>
    if s.deck.align.isSome ∧ s.deck.locked ≠ closed then
      (s.updDeck fun d => { d with locked := closed }).deckChanged
    else s
  | _ => s

/-! ## Mode changes (R163, R164) -/

/-- Entry into CONFIG, after the kill (R164). -/
def State.deckConfig (s : State) : State :=
  s.updDeck fun d =>
    { d with
      state := .unhomed, pos := none, align := none, locked := false, bolt := .off, relay := .bothOpen }

/-- Entry into RUN from CONFIG: homing begins when the home-at-start flag is on (R163). -/
def State.deckRun (s : State) : State :=
  match s.tables.turntable with
  | some t => if t.homeAtStart then s.startHoming t else s
  | none => s

end Sys2Proof.Machine
end

