-- ==== Sys2Proof/Machine/Interlock.lean ====
section
/-! DEFINITION. The Route Interlock's requests and queue (chapter 5): examination, taking, requesting, cancelling, forcing,
expiry, and its mode changes. -/

namespace Sys2Proof.Machine

/-! ## The takeable test (R89, R90) -/

/-- No other route from the same entrance signal holds elements (R89, condition 1). -/
def State.entranceFree (s : State) (r : Fin 64) (d : RouteDef) : Bool :=
  (indices 64).all fun q =>
    q == r || !(tget s.routes q).holds ||
      match s.routeDef q with
      | some e => e.entrance != d.entrance
      | none => true

/-- Every route that locks point `p` requires lie `l` of it (R89, condition 4). -/
def State.lockAgrees (s : State) (p : Fin 64) (l : Lie) : Bool :=
  (tget s.points p).locks == 0 ||
    (indices 64).all fun q => (s.lockedBy q).all fun x => x.1 != p || x.2 == l

/-- Conditions 3 to 6 of R89 for one point and its required lie. -/
def State.pointTakeable (s : State) (p : Fin 64) (l : Lie) : Bool :=
  !(tget s.points p).failed && s.lockAgrees p l && s.movingTarget p != some (Lie.other l) &&
    (!s.mustChange p l || s.legsClear p)

/-- Whether the Turntable Drive would take a TURN from route `r` now (R90): its own conditions for refusal, the deck's
occupancy left to condition 2 of R89. -/
def State.wouldTurn (s : State) (r : Fin 64) : Bool :=
  match s.tables.turntable with
  | none => false
  | some t =>
    decide (s.mode = .run) && !s.deck.state.busy && !s.deckHeldByRoute t.deckBlock (.route r) &&
      match s.deck.state with
      | .unhomed => false
      | .faulted _ => false
      | _ => true

/-- The turntable condition of a route (R89, condition 7; R90). -/
def State.deckTakeable (s : State) (r : Fin 64) (d : RouteDef) : Bool :=
  match d.turntable with
  | none => true
  | some q =>
    (match s.deckBlock with
      | some b => (tget s.reservers b).isNone
      | none => false) && (s.deck.at' q || s.wouldTurn r)

/-- Whether a QUEUED route is takeable (R89). -/
def State.takeable (s : State) (r : Fin 64) : Bool :=
  match s.routeDef r with
  | none => false
  | some d =>
    s.entranceFree r d && d.blocks.all (fun b => (tget s.reservers b).isNone && s.isClear b) &&
      d.locks.all (fun x => s.pointTakeable x.1 x.2) && s.deckTakeable r d

/-! ## Taking and examining (R88, R91) -/

/-- The end a route's TURN names. -/
def DeckEnd.ask : DeckEnd → DeckAsk
  | .a => .a
  | .b => .b

/-- Step 4 of R91: the TURN of a route with a turntable requirement, where the deck does not stand as required. The answer
is whether it was asked, and whether it was refused. -/
def State.askTurn (s : State) (r : Fin 64) (d : RouteDef) : State × Bool × Bool :=
  match d.turntable with
  | none => (s, false, false)
  | some q =>
    if s.deck.at' q then (s, false, false)
    else
      match s.turnInternal (.route r) q.road (DeckEnd.ask q.side) with
      | (s', .refused _) => (s', true, true)
      | (s', _) => (s', true, false)

/-- The released marks of a route that is taken (R84, R99). -/
def RouteDef.freshMarks (d : RouteDef) : Marks := ⟨d.path.map fun _ => false, d.overlap.isEmpty⟩

/-- Take a route (R91). -/
def State.takeRoute (s : State) (r : Fin 64) : State :=
  match s.routeDef r with
  | none => s
  | some d =>
    let s := s.dequeue r
    let s := d.blocks.foldl (fun s b => s.reserve r b) s
    let s := d.locks.foldl (fun s x => s.lock x.1) s
    let s := d.locks.foldl (fun s x => s.moveRequest x.1 x.2) s
    let (s, asked, turnedAway) := s.askTurn r d
    let s := s.setRoute r (.setting asked d.freshMarks)
    if turnedAway then s.freeHolding r .turntable else s.testProof r

/-- The queue entries of a class, in queue order (R88). -/
def State.entriesOf (s : State) (c : RouteClass) : List (Fin 64) :=
  s.queue.filter fun r => s.queuedClass r == some c

/-- One entry of an examination's walk (R88). -/
def State.examineEntry (s : State) (r : Fin 64) : State := if s.takeable r then s.takeRoute r else s

/-- Queue examination (R88): the HOST entries in queue order, then the VISITOR entries. None is made in HALT or CONFIG. -/
def State.examineQueue (s : State) : State :=
  let s := s.updWork fun w => { w with examine := false }
  if s.mode = .run then
    let s := (s.entriesOf .host).foldl State.examineEntry s
    (s.entriesOf .visitor).foldl State.examineEntry s
  else s

/-- The examination, where one is called for. -/
def State.examineIfCalled (s : State) : State := if s.work.examine then s.examineQueue else s

/-! ## Requests (R87, R101, R103) -/

/-- A request for a defined route from its state on (R87, checks 4 to 6): when taken, the route is QUEUED and the queue is
examined before anything else is taken. -/
def State.queueRoute (s : State) (c : RouteClass) (r : Fin 64) (d : RouteDef) : State × Reply :=
  if !(tget s.routes r).isFree then s.refuse .duplicate
  else if Config.queueRoom ≤ s.queue.length then s.refuse .queueFull
  else if c = .visitor ∧ Config.visitorRoom ≤ (s.entriesOf .visitor).length then s.refuse .queueFull
  else if c = .visitor ∧ d.visitor = false then s.refuse .notEligible
  else
    let s := s.setRoute r (.queued c s.ms)
    let s := { s with queue := s.queue ++ [r] }
    (s.examineQueue.settleSignals, .accepted)

/-- REQUEST_ROUTE of a class (R87). -/
def State.requestRoute (c : RouteClass) (n : Nat) (s : State) : State × Reply :=
  if s.mode = .config ∨ (s.mode.isHalt = true ∧ c = .visitor) then s.refuse .wrongMode
  else
    match index? 64 n with
    | none => s.refuse .badValue
    | some r =>
      match s.routeDef r with
      | none => s.refuse .notDefined
      | some d => s.queueRoute c r d

/-- The approach condition of a SET route (R101). -/
def State.approachCondition (s : State) (d : RouteDef) : Bool :=
  (tget s.signals d.entrance).cleared &&
    match s.signalDef d.entrance with
    | some g => !s.isClear g.block
    | none => false

/-- CANCEL_ROUTE of a defined route, by its state (R101). -/
def State.cancelNow (s : State) (r : Fin 64) (d : RouteDef) : State × Reply :=
  match tget s.routes r with
  | .free _ => (s, Reply.done)
  | .queued .. => ((s.dequeue r).setRoute r (.free .cancelled), Reply.done)
  | .setting .. => (s.freeHolding r .cancelled, Reply.done)
  | .isSet _ _ m =>
    if s.approachCondition d then
      (s.setRoute r (.cancelling (s.after (1000 * s.params.approachLock)) m), Reply.done)
    else (s.freeHolding r .cancelled, Reply.done)
  | .cancelling .. => (s, Reply.done)
  | .entered .. => s.refuse .locked

/-- CANCEL_ROUTE (R101). -/
def State.cancelRoute (n : Nat) (s : State) : State × Reply :=
  if s.mode = .config then s.refuse .wrongMode
  else
    match index? 64 n with
    | none => s.refuse .badValue
    | some r =>
      match s.routeDef r with
      | none => s.refuse .notDefined
      | some d => s.cancelNow r d

/-- FORCE_RELEASE (R103). -/
def State.forceRelease (n : Nat) (s : State) : State × Reply :=
  if s.mode = .config then s.refuse .wrongMode
  else
    match index? 64 n with
    | none => s.refuse .badValue
    | some r =>
      match s.routeDef r with
      | none => s.refuse .notDefined
      | some d =>
        match tget s.routes r with
        | .free _ => (s, Reply.done)
        | .entered .. =>
          if d.path.any s.occupiedOrHeld then s.refuse .occupied else (s.freeHolding r .forced, Reply.done)
        | _ => s.refuse .busy

/-! ## Expiry (R87, R99, R102) -/

/-- A QUEUED route leaves the queue for FREE (R87, R104). -/
def State.dropQueued (s : State) (r : Fin 64) (reason : FreeReason) : State :=
  match tget s.routes r with
  | .queued .. => (s.dequeue r).setRoute r (.free reason)
  | _ => s

/-- Whether the age of a QUEUED route has reached the stack timeout (R87). -/
def State.stackDue (s : State) (r : Fin 64) : Bool :=
  match tget s.routes r with
  | .queued _ since => s.params.stackTimeout != 0 && decide (1000 * s.params.stackTimeout ≤ s.ageOf since)
  | _ => false

/-- The clock reading at which the age of a QUEUED route reaches the stack timeout (R87); none while nothing expires. -/
def State.stackExpiry (s : State) (r : Fin 64) : Option Nat :=
  match tget s.routes r with
  | .queued _ since =>
    if s.params.stackTimeout = 0 then none
    else some (1000 * (s.clock.us / 1000 + (1000 * s.params.stackTimeout - s.ageOf since)))
  | _ => none

/-- Every QUEUED route whose age has reached the stack timeout expires, in queue order (R87). -/
def State.expireStack (s : State) : State :=
  (s.queue.filter s.stackDue).foldl (fun s r => s.dropQueued r .expired) s

/-! ## Mode changes (R104, R106) -/

/-- Entry into HALT: every entry of class VISITOR leaves the queue (R104). -/
def State.routesHalt (s : State) : State :=
  (s.entriesOf .visitor).foldl (fun s r => s.dropQueued r .halted) s

/-- Entry into CONFIG (R106). The lock counts are set to 0 with the point records (R82). -/
def State.routesConfig (s : State) : State :=
  { s with routes := tfill 64 (.free .none), queue := [], reservers := tfill 48 none }

end Sys2Proof.Machine
end

