-- ==== Sys2Proof/Machine/Sequencer.lean ====
section
/-! DEFINITION. The Show Sequencer's runs (chapter 10): steps, waits, aborts, completion, the show queue and hold-off. -/

namespace Sys2Proof.Machine

/-! ## Starting and ending a run (R193, R194, R197) -/

/-- The key binding of a run that has ended starts its hold-off, and its lamp follows; one of 0 starts none (R197, R198). -/
def State.startHoldOff (s : State) (o : ShowOrigin) : State :=
  match o with
  | .host => s
  | .key k =>
    if s.params.showHoldOff = 0 then s
    else
      ((s.updKey k fun x => { x with holdOff := some (s.after (1000 * s.params.showHoldOff)) }).mark (.key k)).settlePanel

/-- A show enters RUNNING at step 0, and its LEDs and lamps follow (R194). -/
def State.beginRun (s : State) (i : Fin 8) (o : ShowOrigin) : State :=
  ((s.updShow i fun x => { x with state := .running ⟨o, 0, .none, none, [], false⟩ }).mark (.showing i)).settlePanel

/-- The show at the head of the queue starts, in RUN (R194). -/
def State.beginNext (s : State) : State :=
  match s.showQueue with
  | [] => s
  | i :: rest =>
    if s.mode = .run then
      match (tget s.shows i).state with
      | .queued o => ({ s with showQueue := rest }).beginRun i o
      | _ => { s with showQueue := rest }
    else s

/-- The run of show `i` is over in a state with a last end: its count rises, its LEDs and lamps follow, its binding's hold-off
starts, and the next show starts (R193, R194). -/
def State.endRun (s : State) (i : Fin 8) (o : ShowOrigin) (x : ShowState) (e : LastEnd) : State :=
  let s := ((s.updShow i fun y => { state := x, last := some e, runs := y.runs + 1 }).mark (.showing i)).settlePanel
  let s := s.updWork fun w => { w with wake := none }
  (s.startHoldOff o).beginNext

/-- The QUEUED routes of a run's list are cancelled (R193, step 1). -/
def State.cancelQueued (s : State) (rs : List (Fin 64)) : State :=
  rs.foldl (fun s r => s.dropQueued r .cancelled) s

/-- A RUNNING show is aborted (R193). Its wait is over before its routes are cancelled, so a cue that a cancel sets stays set
(R192, R196). -/
def State.abortShow (s : State) (i : Fin 8) (c : AbortCause) : State :=
  match (tget s.shows i).state with
  | .running r =>
    ((s.updRun i fun y => { y with wait := .none, timer := none }).cancelQueued r.routes).endRun i r.origin .aborted
      (.aborted r.step c)
  | _ => s

/-! ## Steps (R191, R192) -/

/-- The run goes on to its next step. -/
def State.nextStep (s : State) (i : Fin 8) : State :=
  (s.updRun i fun r => { r with step := r.step + 1, wait := .none, timer := none }).mark (.showing i)

/-- The run waits, for at most `timeout` s where that is not 0 (R192). -/
def State.waitFor (s : State) (i : Fin 8) (k : WaitKind) (timeout : Nat) : State :=
  (s.updRun i fun r =>
    { r with wait := k, timer := if timeout = 0 then none else some (s.after (1000 * timeout)) }).mark (.showing i)

/-- Whether a route stands as a WAIT_ROUTE asks (R192). -/
def RouteTarget.met : RouteTarget → RouteRec → Bool
  | .isSet, .isSet .. => true
  | .isFree, .free _ => true
  | _, _ => false

/-- The step a run stands at is executed (R191, R192). -/
def State.execStep (s : State) (i : Fin 8) (x : Step) : State :=
  match x with
  | .route r =>
    match s.requestRoute .visitor r.val with
    | (s', .refused c) => s'.abortShow i (.refused c)
    | (s', _) => (s'.updRun i fun y => { y with routes := joinTail y.routes r }).nextStep i
  | .turn road e =>
    match s.turnInternal (.showing i) road e with
    | (s', .refused c) => s'.abortShow i (.refused c)
    | (s', .accepted) => (s'.updRun i fun y => { y with turnPending := true }).nextStep i
    | (s', _) => s'.nextStep i
  | .clearCue c => (s.putCue c false).nextStep i
  | .caption k => (s.putLine1 (tget s.captions k)).nextStep i
  | .cancel r => (s.cancelRoute r.val).1.nextStep i
  | .finish =>
    match (tget s.shows i).state with
    | .running r => s.endRun i r.origin .idle .completed
    | _ => s
  | .waitRoute r t timeout => if RouteTarget.met t (tget s.routes r) then s.nextStep i else s.waitFor i .route timeout
  | .waitTurntable timeout => if s.deck.joined.isSome then s.nextStep i else s.waitFor i .turntable timeout
  | .waitCue c timeout => if tget s.cues c then (s.putCue c false).nextStep i else s.waitFor i .cue timeout
  | .pause ms =>
    (s.updRun i fun r => { r with wait := .pause, timer := some (s.after ms) }).mark (.showing i)

/-- The running show executes steps until it waits, and each show that ends is followed by the next, for at most `n` steps
(R191, R194). -/
def State.carryOn : Nat → State → State
  | 0, s => s
  | n + 1, s =>
    match s.runningShow with
    | none => s
    | some (i, r) =>
      if r.wait ≠ .none then s
      else
        match s.currentStep i r with
        | none => s
        | some x => State.carryOn n (s.execStep i x)

/-- The running show is carried on to rest. -/
def State.runShows (s : State) : State := State.carryOn Config.rounds s

/-- What the running show's resolved wait calls for is done (R192, R193). -/
def State.resumeShow (s : State) : State :=
  match s.work.wake with
  | none => s
  | some w =>
    let s := s.updWork fun k => { k with wake := none }
    match w with
    | .goOn i => (s.nextStep i).runShows
    | .abort i c => (s.abortShow i c).runShows

/-! ## Requests (R189, R190) -/

/-- START_SHOW of an origin (R189). -/
def State.startShow (o : ShowOrigin) (n : Nat) (s : State) : State × Reply :=
  if s.mode ≠ .run then s.refuse .wrongMode
  else
    match index? 8 n with
    | none => s.refuse .badValue
    | some i =>
      if s.showDefined i = false then s.refuse .notDefined
      else
        match (tget s.shows i).state with
        | .running _ => s.refuse .duplicate
        | .queued _ => s.refuse .duplicate
        | _ =>
          if s.runningShow.isNone then ((s.beginRun i o).runShows, .accepted)
          else if Config.showQueueRoom ≤ s.showQueue.length then s.refuse .busy
          else
            let s := ((s.updShow i fun x => { x with state := .queued o }).mark (.showing i)).settlePanel
            ({ s with showQueue := s.showQueue ++ [i] }, .accepted)

/-- STOP_SHOW of a defined show, by its state (R190). -/
def State.stopNow (s : State) (i : Fin 8) : State :=
  match (tget s.shows i).state with
  | .running _ => (s.abortShow i .stopped).runShows
  | .queued _ =>
    (({ s with showQueue := s.showQueue.filter fun j => j != i }.updShow i fun x =>
      { x with state := .idle }).mark (.showing i)).settlePanel
  | _ => s

/-- STOP_SHOW (R190). -/
def State.stopShow (n : Nat) (s : State) : State × Reply :=
  if s.mode = .config then s.refuse .wrongMode
  else
    match index? 8 n with
    | none => s.refuse .badValue
    | some i => if s.showDefined i then (s.stopNow i, Reply.done) else s.refuse .notDefined

/-- An ABORTED show whose abort has been reported returns to IDLE, which marks it again (R193, R208, R209). -/
def State.abortReported (s : State) (i : Fin 8) : State :=
  if (tget s.shows i).state = .aborted then
    (s.updShow i fun x => { x with state := .idle }).mark (.showing i)
  else s

/-! ## Mode changes (R199) -/

/-- Entry into HALT (R199): the running show is aborted and the queue emptied. -/
def State.showsHalt (s : State) : State :=
  let s := match s.runningShow with
    | some (i, _) => s.abortShow i .halted
    | none => s
  let waiting := s.showQueue
  waiting.foldl (fun s i => ((s.updShow i fun x => { x with state := .idle }).mark (.showing i)).settlePanel)
    { s with showQueue := [] }

/-- Entry into CONFIG (R183, R196, R197, R199): shows, cues, hold-offs and key results. -/
def State.showsConfig (s : State) : State :=
  { s with
    shows := tfill 8 ShowRec.initial, showQueue := [], cues := tfill 16 false, keys := tfill 64 KeyRec.initial }

end Sys2Proof.Machine
end

