-- ==== Sys2Proof/Machine/Event.lean ====
section
/-! DEFINITION. The end of every event that touches the layout: signals settle, the queue examination called for is made,
the running show is carried on, and the panel follows. -/

namespace Sys2Proof.Machine

/-- The signals settle, a queue examination called for is made, and a show whose wait is resolved goes on, over at most `n`
rounds, until nothing is called for (R88, R115, R192; log entry 20). The signals settle last. -/
def State.comeToRest : Nat → State → State
  | 0, s => s.settleSignals
  | n + 1, s =>
    let s := s.settleSignals
    if s.work.examine then State.comeToRest n s.examineQueue
    else if s.work.wake.isSome then State.comeToRest n s.resumeShow
    else s

/-- The end of an event (log entries 18, 20). -/
def State.settle (s : State) : State := (State.comeToRest Config.rounds s).settlePanel

/-- The end of an event that carries a reply; a refusal leaves every block as it was (R205). -/
def settleReply (x : State × Reply) : State × Reply :=
  match x.2 with
  | .refused _ => x
  | r => (x.1.settle, r)

end Sys2Proof.Machine
end

