-- ==== Sys2Proof/Machine/Validate.lean ====
section
/-! DEFINITION. The checks of START_RUN (R15 to R19), table by table in check order. -/

namespace Sys2Proof.Machine

/-- Whether a list names nothing twice. -/
def distinct {α : Type} [DecidableEq α] : List α → Bool
  | [] => true
  | a :: l => !l.contains a && distinct l

/-- The entries of a table of lower index than `i` that satisfy `f`. -/
def lower {n : Nat} (i : Fin n) (f : Fin n → Bool) : List (Fin n) :=
  (indices n).filter fun q => decide (q.val < i.val) && f q

/-! ## Blocks, points, signals (R16) -/

/-- A link names what is defined. -/
def Tables.linkDefined (t : Tables) : Link → Bool
  | .noLink => true
  | .blockEnd b _ => (tget t.blocks b).isSome
  | .pointLeg p _ => (tget t.points p).isSome

/-- A link is returned: what it names names `back`. -/
def Tables.returned (t : Tables) (l back : Link) : Bool :=
  match l with
  | .noLink => true
  | .blockEnd b e =>
    match tget t.blocks b with
    | some d => d.link e == back
    | none => false
  | .pointLeg p g =>
    match tget t.points p with
    | some d => d.link g == back
    | none => false

/-- Check 4 of a block: a STOP block's guarded signal is defined and stands at an end of the block. -/
def Tables.guardOk (t : Tables) (b : Fin 48) (d : BlockDef) : Bool :=
  match d.kind with
  | .stop g =>
    match tget t.signals g with
    | some x => x.block == b
    | none => false
  | _ => true

/-- Whether a block is defined and of kind DECK. -/
def Tables.isDeck (t : Tables) (b : Fin 48) : Bool :=
  match tget t.blocks b with
  | some d => d.kind == .deck
  | none => false

/-- Check 5 of a block: a DECK block has no links, is the first DECK block, and is the turntable's deck block. -/
def Tables.deckOk (t : Tables) (b : Fin 48) (d : BlockDef) : Bool :=
  if d.kind = .deck then
    d.link0 == .noLink && d.link1 == .noLink && (lower b t.isDeck).isEmpty &&
      match t.turntable with
      | some x => x.deckBlock == b
      | none => false
  else true

/-- The checks of a block. -/
def Tables.blockOk (t : Tables) (b : Fin 48) : Bool :=
  match tget t.blocks b with
  | none => true
  | some d =>
    t.linkDefined d.link0 && t.linkDefined d.link1 && d.link0 != .blockEnd b .e0 && d.link1 != .blockEnd b .e1 &&
      t.returned d.link0 (.blockEnd b .e0) && t.returned d.link1 (.blockEnd b .e1) && t.guardOk b d && t.deckOk b d

/-- The checks of one leg of a point. -/
def Tables.legOk (t : Tables) (p : Fin 64) (d : PointDef) (g : Leg) : Bool :=
  t.linkDefined (d.link g) && t.returned (d.link g) (.pointLeg p g) && d.link g != .pointLeg p g

/-- Whether a point is defined in a drive group. -/
def Tables.inGroup (t : Tables) (g : Fin 8) (p : Fin 64) : Bool :=
  match tget t.points p with
  | some d => d.group == g
  | none => false

/-- The checks of a point. -/
def Tables.pointOk (t : Tables) (p : Fin 64) : Bool :=
  match tget t.points p with
  | none => true
  | some d =>
    t.legOk p d .toe && t.legOk p d .normal && t.legOk p d .reverse &&
      decide ((lower p (t.inGroup d.group)).length + 1 ≤ Config.groupRoom)

/-- Whether a module is defined and of a type. -/
def Tables.moduleIs (t : Tables) (m : Fin 24) (x : ModuleType) : Bool := (tget t.modules m).map (·.type) == some x

/-- The checks of a signal. -/
def Tables.signalOk (t : Tables) (g : Fin 32) : Bool :=
  match tget t.signals g with
  | none => true
  | some d =>
    (tget t.blocks d.block).isSome && t.moduleIs d.lampModule .lamp &&
      ((indices 32).all fun q =>
        q == g ||
          match tget t.signals q with
          | some e => !(e.block == d.block && e.stands == d.stands)
          | none => true) &&
      (lower g fun q =>
        match tget t.signals q with
        | some e => e.lampModule == d.lampModule && e.firstOutput == d.firstOutput
        | none => false).isEmpty

/-! ## Routes (R17) -/

/-- Follow a link through at most `n` points of a route's point list, each at the lie the route requires; the answer holds
the points passed. -/
def Tables.walkLink (t : Tables) (d : RouteDef) : Nat → Link → Option (Fin 48 × Side × List (Fin 64))
  | _, .noLink => none
  | _, .blockEnd b e => some (b, e, [])
  | 0, .pointLeg _ _ => none
  | n + 1, .pointLeg p g => do
    let x ← tget t.points p
    let q ← d.points.find? fun q => q.point == p
    let out ← Lie.through q.lie g
    let (b, e, l) ← t.walkLink d n (x.link out)
    return (b, e, p :: l)

/-- A walk from an end of a block, for a route (R17). The ends of the deck block and the pit end of a road block never follow a
link: they meet across the join that the route requires, and lead nowhere where it requires none. -/
def Tables.walkFrom (t : Tables) (d : RouteDef) (a : Fin 48) (e : Side) : Option (Fin 48 × Side × List (Fin 64)) :=
  match tget t.blocks a with
  | none => none
  | some x =>
    if t.turntable.map (·.deckBlock) = some a then
      (d.turntable.bind fun q => t.fromDeck q e).map fun y => (y.1, y.2, [])
    else
      match t.pitRoad a e with
      | some r => (d.turntable.bind fun q => t.toDeck q r).map fun y => (y.1, y.2, [])
      | none => t.walkLink d Config.walkPoints (x.link e)

/-- The walks reach each block of the list in order, from an end of a block. The answer is the points passed and the end by
which each block of the list was entered. -/
def Tables.walkAlong (t : Tables) (d : RouteDef) : Fin 48 → Side → List (Fin 48) → Option (List (Fin 64) × List Side)
  | _, _, [] => some ([], [])
  | a, e, b :: rest => do
    let (b', y, ps) ← t.walkFrom d a e
    if b' = b then
      let (qs, ys) ← t.walkAlong d b y.other rest
      return (ps ++ qs, y :: ys)
    else none

/-- Check 4 of a route. -/
def Tables.routeDeckOk (t : Tables) (d : RouteDef) : Bool :=
  match t.turntable, d.turntable with
  | none, none => true
  | none, some _ => false
  | some tt, none => !(d.path ++ d.overlap).contains tt.deckBlock
  | some tt, some q =>
    match tget t.roads q.road with
    | none => false
    | some road =>
      let k := d.path.idxOf tt.deckBlock
      let beside := (if k = 0 then [] else (d.path[k - 1]?).toList) ++ (d.path[k + 1]?).toList
      let facing := (t.opposite q.road).bind fun o => (tget t.roads o).map (·.block)
      d.path.contains tt.deckBlock && !d.overlap.contains tt.deckBlock && beside.contains road.block &&
        beside.all fun b => b == road.block || facing == some b

/-- Checks 6 and 7 of a route. -/
def Tables.routeJoins (t : Tables) (d : RouteDef) (g : SignalDef) : Bool :=
  match t.walkAlong d g.block g.stands (d.path ++ d.overlap) with
  | none => false
  | some (passed, sides) =>
    (d.points.all fun x => passed.contains x.point) &&
      match d.exit with
      | none => true
      | some x =>
        match tget t.signals x with
        | none => false
        | some ex =>
          d.path.getLast? == some ex.block && (sides[d.path.length - 1]?).map Side.other == some ex.stands

/-- The checks of a route. -/
def Tables.routeOk (t : Tables) (r : Fin 64) : Bool :=
  match tget t.routes r with
  | none => true
  | some d =>
    match tget t.signals d.entrance with
    | none => false
    | some g =>
      let blocks := d.path ++ d.overlap
      let points := d.points.map (·.point) ++ d.flank.map (·.point)
      (match d.exit with
        | some x => (tget t.signals x).isSome
        | none => true) &&
      (blocks.all fun b => (tget t.blocks b).isSome) && distinct blocks && !blocks.contains g.block &&
      (points.all fun p => (tget t.points p).isSome) && distinct points && t.routeDeckOk d &&
      (match d.approach with
        | some a => (tget t.traps a.trap).isSome
        | none => true) && t.routeJoins d g

/-! ## Turntable, roads, traps, modules (R18) -/

/-- The check of the turntable. -/
def Tables.turntableOk (t : Tables) : Bool :=
  match t.turntable with
  | some x => t.isDeck x.deckBlock
  | none => true

/-- The checks of a road. -/
def Tables.roadOk (t : Tables) (q : Fin 24) : Bool :=
  match tget t.roads q with
  | none => true
  | some d =>
    match t.turntable, tget t.blocks d.block with
    | some tt, some b =>
      decide (d.position ≤ tt.r - 1) && !(tt.barrier && d.position == 0) && b.kind != .deck &&
        (b.link0 == .noLink || b.link1 == .noLink) &&
        (lower q fun o =>
          match tget t.roads o with
          | some e => e.position == d.position || e.block == d.block
          | none => false).isEmpty
    | _, _ => false

/-- The check of a trap. -/
def Tables.trapOk (t : Tables) (x : Fin 4) : Bool :=
  match tget t.traps x with
  | some d => (tget t.blocks d.block).isSome
  | none => true

/-- The checks of a module. -/
def Tables.moduleOk (t : Tables) (m : Fin 24) : Bool :=
  match tget t.modules m with
  | none => true
  | some d =>
    (lower m fun o =>
      match tget t.modules o with
      | some e => e.address == d.address || (e.type == .text && d.type == .text)
      | none => false).isEmpty

/-! ## Keys, LEDs, shows, cues (R19) -/

/-- Whether a show is defined (R11). -/
def Tables.showNamed (t : Tables) (i : Fin 8) : Bool := !(tget t.shows i).isEmpty

/-- The checks of a key binding. -/
def Tables.keyOk (t : Tables) (k : Fin 64) : Bool :=
  match tget t.keys k with
  | none => true
  | some d =>
    t.moduleIs d.panel .keys &&
      (lower k fun o =>
        match tget t.keys o with
        | some e => e.panel == d.panel && e.key == d.key
        | none => false).isEmpty &&
      match d.action with
      | .startShow i => t.showNamed i
      | .visitorRoute r => (tget t.routes r).isSome
      | _ => true

/-- The checks of an LED slot. -/
def Tables.ledOk (t : Tables) (x : Nat × LedDef) : Bool :=
  (match index? 24 (x.1 / 64) with
    | some m => t.moduleIs m .mimic
    | none => false) &&
  match x.2 with
  | .blockOcc b => (tget t.blocks b).isSome
  | .blockRes b => (tget t.blocks b).isSome
  | .pointN p => (tget t.points p).isSome
  | .pointR p => (tget t.points p).isSome
  | .signalProceed g => (tget t.signals g).isSome
  | .road r => (tget t.roads r).isSome
  | .showing i => t.showNamed i

/-- What a show's step names is defined. -/
def Tables.stepOk (t : Tables) : Step → Bool
  | .route r => (tget t.routes r).isSome
  | .waitRoute r _ _ => (tget t.routes r).isSome
  | .cancel r => (tget t.routes r).isSome
  | .turn road _ => (tget t.roads road).isSome && t.turntable.isSome
  | _ => true

/-- The checks of a show. -/
def Tables.showOk (t : Tables) (i : Fin 8) : Bool :=
  let l := tget t.shows i
  l.isEmpty || (decide (l.length ≤ Config.showSteps) && l.getLast? == some .finish && l.all t.stepOk)

/-- The checks of a cue. -/
def Tables.cueOk (t : Tables) (c : Fin 16) : Bool :=
  match tget t.cues c with
  | .none => true
  | .blockOccupied b => (tget t.blocks b).isSome
  | .blockCleared b => (tget t.blocks b).isSome
  | .trapResult x => (tget t.traps x).isSome
  | .turntableAligned => t.turntable.isSome
  | .routeEntered r => (tget t.routes r).isSome
  | .routeFreed r => (tget t.routes r).isSome
  | .key m _ => t.moduleIs m .keys

/-! ## The check order (R15) -/

/-- The first entry of a table, in ascending index, that fails its checks. -/
def firstBad (x : CheckTable) (n : Nat) (ok : Fin n → Bool) : Option (CheckTable × Nat) :=
  ((indices n).find? fun i => !ok i).map fun i => (x, i.val)

/-- The first failure in check order, with its table and index (R15). -/
def Tables.firstFailure (t : Tables) : Option (CheckTable × Nat) :=
  (firstBad .block 48 t.blockOk).or <| (firstBad .point 64 t.pointOk).or <|
  (firstBad .signal 32 t.signalOk).or <| (firstBad .route 64 t.routeOk).or <|
  (if t.turntableOk then none else some (.turntable, 0)).or <| (firstBad .road 24 t.roadOk).or <|
  (firstBad .trap 4 t.trapOk).or <| (firstBad .panel 24 t.moduleOk).or <| (firstBad .key 64 t.keyOk).or <|
  ((t.leds.find? fun x => !t.ledOk x).map fun x => (CheckTable.led, x.1)).or <|
  (firstBad .showing 8 t.showOk).or <| firstBad .cue 16 t.cueOk

end Sys2Proof.Machine
end

