-- ==== Sys2Proof/Machine/Modes.lean ====
section
/-! DEFINITION. The changes of mode (R20 to R24), each carried through every block, and the taking of a key press, one of
which halts the layout. The order of the blocks within a change is log entry 7. -/

namespace Sys2Proof.Machine

/-- The mode record takes a value, marking LAYOUT (R1), and the key lamps follow (R198). -/
def State.putMode (s : State) (m : Mode) : State := (({ s with mode := m }).mark .layout).settlePanel

/-- Whether an entry into RUN is in hand (R37). -/
def State.putEntering (s : State) (b : Bool) : State := s.updWork fun w => { w with entering := b }

/-! ## Entry into RUN from CONFIG (R20) -/

/-- The Detection Unit at entry into RUN from CONFIG (R27, R34). -/
def State.detectionRun (s : State) : State :=
  { s with
    channels := tgen 48 fun b =>
      { Channel.initial with timer := if (s.blockDef b).isSome then some (s.after Config.staleMs) else none }
    contacts := tgen 64 fun p =>
      { Contact.initial with timer := if (s.pointDef p).isSome then some (s.after Config.staleMs) else none } }

/-- The Train Register's flags at entry into RUN from CONFIG (R47). -/
def State.registerRun (s : State) : State := { s with blockFlags := tfill 48 BlockFlags.initial }

/-- The SHOW subject of every defined show is marked at entry into RUN from CONFIG (R199). -/
def State.showsRun (s : State) : State :=
  s.markAll (((indices 8).filter s.showDefined).map .showing)

/-- The end of an entry into RUN: what the entry brought about settles, and the feeds are restarted last (R43, R44). -/
def State.endEntry (s : State) : State := ((s.callExamine.settle).putEntering false).giveRestarts

/-- Entry into RUN from CONFIG (R20). -/
def State.enterRun (s : State) : State :=
  let s := (s.putMode .run).putEntering true
  let s := s.detectionRun.registerRun.signalsRun.gatesInitial.panelRun.showsRun
  s.pointsRun.deckRun.endEntry

/-! ## Entry into HALT and back (R21, R22) -/

/-- Entry into HALT (R21, R44, R80, R104, R122, R159, R181, R199). -/
def State.enterHalt (s : State) (c : HaltCause) : State :=
  let s := s.putMode (.halt c)
  let s := s.showsHalt.pointsHalt.kill.routesHalt.feedsHalt
  (s.updBus fun b => b.addCall .dangerAll).settle

/-- Entry into RUN from HALT (R22, R44, R80, R105, R122). -/
def State.resumeRun (s : State) : State :=
  let s := (s.putMode .run).putEntering true
  ((indices 48).foldl State.deferredRestore s).pointsResume.endEntry

/-! ## Entry into CONFIG (R23) -/

/-- The Detection Unit, the Feed Switch, the Train Register and the Aspect Unit at entry into CONFIG (R27, R34, R35, R45,
R46, R47, R110). -/
def State.trackConfig (s : State) : State :=
  { s with
    channels := tfill 48 Channel.initial, contacts := tfill 64 Contact.initial, feeds := tfill 48 Feed.initial
    trains := tfill 24 .free, blockFlags := tfill 48 BlockFlags.initial, signals := tfill 32 SignalRec.initial }

/-- Entry into CONFIG (R23, R210): the deck is killed, every block clears its dynamic state, and the report list comes to
hold LAYOUT alone. -/
def State.enterConfig (s : State) : State :=
  let s := (s.putMode .config).kill
  let s := s.pointsConfig.deckConfig.routesConfig.showsConfig.panelConfig.gatesInitial.trackConfig
  ({ s with work := Work.none }.recomputeParts).updLink fun l => { l with reports := [.layout] }

/-! ## Power-on and RESET (R1, R24, R210) -/

/-- Every block takes its power-on values. The bolt contacts keep their levels, which are the pit's (log entry 5), and the
waiting commands stay. -/
def State.powerOn (s : State) : State :=
  { State.reset with
    deck := { Deck.initial with boltOut := s.deck.boltOut, boltIn := s.deck.boltIn }, pending := s.pending }

/-- A RESET takes effect: as at power-on, but the time base runs on (log entry 4). -/
def State.afterReset (s : State) : State :=
  { s.powerOn with clock := ⟨0, s.clock.base⟩ }

/-! ## Key presses (R183, R195) -/

/-- The binding that names a module and key (R183). -/
def State.bindingOf (s : State) (m : Fin 24) (k : Fin 16) : Option (Fin 64 × KeyDef) :=
  (indices 64).findSome? fun b =>
    match s.keyDef b with
    | some d => if d.panel = m ∧ d.key = k then some (b, d) else none
    | none => none

/-- The key result of a request's outcome (R195). -/
def Reply.keyResult : Reply → KeyResult
  | .refused r => .refused r
  | _ => .done

/-- What a press's action does, with its key result (R195). -/
def State.pressAction (s : State) (b : Fin 64) (a : KeyAction) : State × KeyResult :=
  match a with
  | .startShow i =>
    if s.mode.isHalt then (s, .refused .wrongMode)
    else if (tget s.keys b).holdOff.isSome then (s, .heldOff)
    else
      let x := s.startShow (.key b) i.val
      (x.1, x.2.keyResult)
  | .visitorRoute r =>
    let x := s.requestRoute .visitor r.val
    (x.1, x.2.keyResult)
  | .emergency => if s.mode = .run then (s.enterHalt .key, .done) else (s, .refused .wrongMode)
  | .none => (s, .none)

/-- A press or release of a key on a module is taken (R183, R195): a press sets its KEY cues and is then taken by its binding's
action. The run that a KEY cue lets go on is carried to rest before the action is taken, which R195, ordering only the setting of
the cues before it, leaves open (log entry 35, DESIGN CHOICE). -/
def State.keyEvent (s : State) (m : Fin 24) (k : Fin 16) (down : Bool) : State :=
  match s.bindingOf m k with
  | none => s
  | some (b, d) =>
    if down then
      let s := (s.updKey b fun x => { x with last := some .pressed, presses := x.presses + 1 }).mark (.key b)
      let s := (s.setCuesFor (.key m k)).settle
      let x := s.pressAction b d.action
      ((x.1.updKey b fun y => { y with result := some x.2 }).mark (.key b)).settle
    else (s.updKey b fun x => { x with last := some .released }).mark (.key b)

/-- A key's debounced state after a reading, and whether it was pressed or released (R182). -/
def KeyState.take (k : KeyState) (down : Bool) : KeyState × Bool :=
  if down = k.down then (⟨k.down, 0⟩, false)
  else if 2 ≤ k.count + 1 then (⟨down, 0⟩, true)
  else (⟨k.down, k.count + 1⟩, false)

/-- One key's reading of a poll is applied (R182). -/
def State.keyReading (m : Fin 24) (bytes : BitVec 16) (s : State) (k : Fin 16) : State :=
  let down := bytes.getLsbD k.val
  let x := (tget (tget s.modules m).keys k).take down
  let s := s.updModule m fun r => { r with keys := tset r.keys k x.1 }
  if x.2 then s.keyEvent m k down else s

/-- A poll succeeds (R182): its readings are applied in ascending key number. -/
def State.pollDone (s : State) (m : Fin 24) (bytes : BitVec 16) : State :=
  let s := (s.countSuccess m).updModule m fun r => { r with pollDue := false }
  (indices 16).foldl (State.keyReading m bytes) s

end Sys2Proof.Machine
end

