-- ==== Sys2Proof/Machine/BusCommands.lean ====
section
/-! DEFINITION. The commands of the panel bus and of the Panel Bus Master's timers (chapter 9). -/

namespace Sys2Proof.Machine

/-- START_TRANSACTION (R170, R177). -/
def execStartTransaction (dt : Nat) (linesHigh : Bool) (s : State) : Host.Outcome State Fault Refusal :=
  .next ((s.advance dt).startNext linesHigh).settle

/-- CLOCK_STRETCH_TIMEOUT (R170). -/
def execClockStretchTimeout (dt : Nat) (s : State) : Host.Outcome State Fault Refusal :=
  let s := s.advance dt
  .next (match s.bus.state with
    | .busy t => (s.transactionFails t .stretch).settle
    | _ => s)

/-- BUS_RECOVERY_END (R170): a recovery made before a START lets that START go on. -/
def execBusRecoveryEnd (dt : Nat) (s : State) : Host.Outcome State Fault Refusal :=
  let s := s.advance dt
  .next (match s.bus.state with
    | .recovery beforeStart => s.updBus fun b => { b with state := .free, recovered := beforeStart }
    | _ => s)

/-- The outcome of a general call: no ACK is required, so a missing one is no failure (R171). -/
def State.callEnds (s : State) (c : GeneralCall) (o : WriteOutcome) : State :=
  match o with
  | .failed .stretch => s.transactionFails (.call c) .stretch
  | .failed .stuck => s.transactionFails (.call c) .stuck
  | _ => s.freeBus.callDone c

/-- GENERAL_CALL_END (R171). -/
def execGeneralCallEnd (dt : Nat) (o : WriteOutcome) (s : State) : Host.Outcome State Fault Refusal :=
  let s := s.advance dt
  .next (match s.bus.state with
    | .busy (.call c) => (s.callEnds c o).settle
    | _ => s)

/-- PART_WRITE_END (R174). -/
def execPartWriteEnd (dt : Nat) (o : WriteOutcome) (s : State) : Host.Outcome State Fault Refusal :=
  let s := s.advance dt
  .next (match s.bus.state, o with
    | .busy (.write m _ content), .success => (s.freeBus.writeDone m content).settle
    | .busy (.write m k content), .failed c => (s.transactionFails (.write m k content) c).settle
    | _, _ => s)

/-- A probe succeeds (R178, R179): a module that is UNKNOWN or OFFLINE becomes ONLINE. -/
def State.probeDone (s : State) (m : Fin 24) : State :=
  let s := s.countSuccess m
  if s.online m then s else s.enterOnline m

/-- PROBE_END (R179). -/
def execProbeEnd (dt : Nat) (o : WriteOutcome) (s : State) : Host.Outcome State Fault Refusal :=
  let s := s.advance dt
  .next (match s.bus.state, o with
    | .busy (.probe m _), .success => (s.freeBus.probeDone m).settle
    | .busy (.probe m content), .failed c => (s.transactionFails (.probe m content) c).settle
    | _, _ => s)

/-- READ_BACK_END (R180). -/
def execReadBackEnd (dt : Nat) (o : ReadOutcome) (s : State) : Host.Outcome State Fault Refusal :=
  let s := s.advance dt
  .next (match s.bus.state, o with
    | .busy (.readBack m), .success bytes => (s.freeBus.readBackDone m bytes).settle
    | .busy (.readBack m), .failed c => (s.transactionFails (.readBack m) c).settle
    | _, _ => s)

/-- KEY_POLL_END (R182). -/
def execKeyPollEnd (dt : Nat) (o : ReadOutcome) (s : State) : Host.Outcome State Fault Refusal :=
  let s := s.advance dt
  .next (match s.bus.state, o with
    | .busy (.poll m), .success bytes => (s.freeBus.pollDone m bytes).settle
    | .busy (.poll m), .failed c => (s.transactionFails (.poll m) c).settle
    | _, _ => s)

/-- PROVE_TIMER_EXPIRY (R176). -/
def execProveTimerExpiry (dt : Nat) (m : Fin 24) (s : State) : Host.Outcome State Fault Refusal :=
  let s := s.advance dt
  .next (match (tget s.modules m).proveTimer with
    | some e =>
      let s := s.advanceTo e
      (s.updModule m fun r =>
        { r with readBackDue := true, proveTimer := some (s.after s.params.lampProvePeriod) }).syncLists
    | none => s)

/-- POLL_TIMER_EXPIRY (R176). -/
def execPollTimerExpiry (dt : Nat) (m : Fin 24) (s : State) : Host.Outcome State Fault Refusal :=
  let s := s.advance dt
  .next (match (tget s.modules m).pollTimer with
    | some e =>
      let s := s.advanceTo e
      (s.updModule m fun r =>
        { r with pollDue := true, pollTimer := some (s.after s.params.keyPollPeriod) }).syncLists
    | none => s)

/-- PROBE_TIMER_EXPIRY (R176). -/
def execProbeTimerExpiry (dt : Nat) (m : Fin 24) (s : State) : Host.Outcome State Fault Refusal :=
  let s := s.advance dt
  .next (match (tget s.modules m).probeTimer with
    | some e =>
      let s := s.advanceTo e
      (s.updModule m fun r =>
        { r with probeDue := true, probeTimer := some (s.after Config.probeMs) }).syncLists
    | none => s)

end Sys2Proof.Machine
end

