-- ==== Sys2Proof/Machine/DeckCommands.lean ====
section
/-! DEFINITION. The commands of the turntable pit and of the Turntable Drive's timers (chapter 8). -/

namespace Sys2Proof.Machine

/-- BOLT_OUT_CONTACT: a change of the contact's level (R141, R150, R158). -/
def execBoltOutContact (dt : Nat) (closed : Bool) (s : State) : Host.Outcome State Fault Refusal :=
  let s := s.advance dt
  .next (
    if s.deck.boltOut = closed then s
    else
      match s.tables.turntable with
      | some t => (s.boltOutLevel t closed).settle
      | none => s.updDeck fun d => { d with boltOut := closed })

/-- BOLT_IN_CONTACT: a change of the contact's level (R141, R153, R161). -/
def execBoltInContact (dt : Nat) (closed : Bool) (s : State) : Host.Outcome State Fault Refusal :=
  let s := s.advance dt
  .next (if s.deck.boltIn = closed then s else (s.boltInLevel closed).settle)

/-- BOLT_TIMER_EXPIRY (R150, R153, R158, R162). -/
def execBoltTimerExpiry (dt : Nat) (s : State) : Host.Outcome State Fault Refusal :=
  let s := s.advance dt
  .next (match s.deck.state with
    | .unlocking _ e => ((s.advanceTo e).enterFault .boltOutTimeout).settle
    | .locking _ e => ((s.advanceTo e).enterFault .boltInTimeout).settle
    | .homing _ _ (.bolt e) => ((s.advanceTo e).enterFault .boltOutTimeout).settle
    | _ => s)

/-- DEADTIME_EXPIRY: a direction deadtime ends (R151, R158). -/
def execDeadtimeExpiry (dt : Nat) (s : State) : Host.Outcome State Fault Refusal :=
  let s := s.advance dt
  .next (match s.tables.turntable, s.deck.state, s.deck.pos with
    | some t, .moving m (.deadtime e), some x => ((s.advanceTo e).issueStep t m x).settle
    | some t, .homing known n (.deadtime e), _ => ((s.advanceTo e).issueHoming t known n).settle
    | _, _, _ => s)

/-- STEP_COMPLETE: a ramp step's interval has run out (R149). -/
def execStepComplete (dt : Nat) (s : State) : Host.Outcome State Fault Refusal :=
  let s := s.advance dt
  .next (match s.tables.turntable, s.deck.state, s.deck.pos with
    | some t, .moving m (.ramp _ _ e), some x => ((s.advanceTo e).rampStep t m x).settle
    | _, _, _ => s)

/-- REVERSAL_END (R156). -/
def execReversalEnd (dt : Nat) (s : State) : Host.Outcome State Fault Refusal :=
  let s := s.advance dt
  .next (match s.tables.turntable, s.deck.state with
    | some t, .moving m (.reversal n e) => ((s.advanceTo e).issueCreep t m n).settle
    | _, _ => s)

/-- CREEP_STEP_COMPLETE (R156). -/
def execCreepStepComplete (dt : Nat) (s : State) : Host.Outcome State Fault Refusal :=
  let s := s.advance dt
  .next (match s.tables.turntable, s.deck.state, s.deck.pos with
    | some t, .moving m (.creep n e), some x => ((s.advanceTo e).creepStep t m n x).settle
    | _, _, _ => s)

/-- HOMING_STEP_COMPLETE (R158). -/
def execHomingStepComplete (dt : Nat) (s : State) : Host.Outcome State Fault Refusal :=
  let s := s.advance dt
  .next (match s.tables.turntable, s.deck.state with
    | some t, .homing known n (.search e) => ((s.advanceTo e).homingStep t known n).settle
    | _, _ => s)

/-- INDEX_EDGE (R155, R158): taken in RAMP with the barrier off and in a homing's search, and disregarded elsewhere. -/
def execIndexEdge (dt : Nat) (s : State) : Host.Outcome State Fault Refusal :=
  let s := s.advance dt
  .next (match s.tables.turntable, s.deck.state, s.deck.pos with
    | some t, .moving m (.ramp rate i e), some x =>
      if t.barrier then s else (s.indexCapture t m (.ramp rate i e) x).settle
    | some _, .homing _ _ (.search _), _ => s.homingDone.settle
    | _, _, _ => s)

/-- SETTLE_TIME_EXPIRY (R152): the relay deadtime begins. -/
def execSettleTimeExpiry (dt : Nat) (s : State) : Host.Outcome State Fault Refusal :=
  let s := s.advance dt
  .next (match s.tables.turntable, s.deck.state with
    | some t, .settling m (.settle e) =>
      let s := s.advanceTo e
      s.updDeck fun d => { d with state := .settling m (.relay (s.after t.deadtime)) }
    | _, _ => s)

/-- RELAY_DEADTIME_EXPIRY (R152). -/
def execRelayDeadtimeExpiry (dt : Nat) (s : State) : Host.Outcome State Fault Refusal :=
  let s := s.advance dt
  .next (match s.tables.turntable, s.deck.state with
    | some t, .settling m (.relay e) => ((s.advanceTo e).enterLocking t m).settle
    | _, _ => s)

end Sys2Proof.Machine
end

