-- ==== Sys2Proof/Machine/GateCommands.lean ====
section
/-! DEFINITION. The commands of the Gate Timer (chapter 7). -/

namespace Sys2Proof.Machine

/-- GATE_EDGE (R126, R128): the edge is stamped with the time base as it stands when the edge comes. A change of level in either
direction is an edge alike (R126), so the level changed to is of no account. -/
def execGateEdge (dt : Nat) (g : Fin 8) (_level : Bool) (s : State) : Host.Outcome State Fault Refusal :=
  let s := s.advance dt
  .next (s.takeEdge g s.clock.base).settle

/-- QUIET_TIMER_EXPIRY (R129). -/
def execQuietTimerExpiry (dt : Nat) (g : Fin 8) (s : State) : Host.Outcome State Fault Refusal :=
  let s := s.advance dt
  .next (match (tget s.filters g).expiry with
    | some e => (s.advanceToStamp e).goQuiet g
    | none => s)

/-- TRAP_TIMEOUT (R133). -/
def execTrapTimeout (dt : Nat) (t : Fin 4) (s : State) : Host.Outcome State Fault Refusal :=
  let s := s.advance dt
  .next (match (tget s.traps t).state with
    | .timing _ _ _ e => (s.advanceToStamp e).abandonTiming t
    | _ => s)

end Sys2Proof.Machine
end

