-- ==== Sys2Proof/Machine/Reports.lean ====
section
/-! DEFINITION. The bytes the part sends (chapter 11): the report of every subject, replies and frames. Encodings that the
manual leaves to be inferred are log entries 10 and 11. -/

namespace Sys2Proof.Machine

/-! ## Fields (R203, R208) -/

/-- A number in one byte. -/
def u8 (n : Nat) : List Byte := [BitVec.ofNat 8 n]

/-- A number in two bytes. -/
def u16 (n : Nat) : List Byte := bigEndian 2 n

/-- A number in four bytes. -/
def u32 (n : Nat) : List Byte := bigEndian 4 n

/-- An age or a remaining time in ms, at most 4 294 967 294 (R208). -/
def ageBytes (ms : Nat) : List Byte := u32 (min ms 4294967294)

/-- A reading of the millisecond count, in six bytes (R208). -/
def msBytes (t : MsCount) : List Byte := bigEndian 6 t.toNat

/-- A flag: off 0, on 1. -/
def flag (b : Bool) : List Byte := u8 (if b then 1 else 0)

/-- A field of `n` bytes that may be absent, when every byte is 0xFF (R208). -/
def maybe {α : Type} (n : Nat) (f : α → List Byte) : Option α → List Byte
  | some a => f a
  | none => List.replicate n 0xFF

/-- A list with its count byte (R208). -/
def counted {α : Type} (f : α → List Byte) (l : List α) : List Byte := u8 l.length ++ l.flatMap f

/-- An end. -/
def sideByte : Side → List Byte
  | .e0 => u8 0
  | .e1 => u8 1

/-- A lie that is NORMAL or REVERSE. -/
def lieByte : Lie → List Byte
  | .normal => u8 0
  | .reverse => u8 1

/-- A deck end. -/
def deckEndByte : DeckEnd → List Byte
  | .a => u8 0
  | .b => u8 1

/-- A stepping direction. -/
def stepDirByte : StepDir → List Byte
  | .forward => u8 0
  | .reverse => u8 1

/-! ## The owners' fields -/

/-- LAYOUT (R1, R196). -/
def State.layoutFields (s : State) : List Byte :=
  (match s.mode with
    | .config => [0x00, 0xFF]
    | .run => [0x01, 0xFF]
    | .halt .host => [0x02, 0x00]
    | .halt .key => [0x02, 0x01]) ++ s.cues.toList.flatMap flag

/-- A feed state (R35). -/
def feedByte : FeedState → List Byte
  | .on => u8 0
  | .off => u8 1
  | .tripped => u8 2
  | .cooling => u8 3
  | .latched => u8 4

/-- A stray reason (R47). -/
def strayByte : StrayReason → List Byte
  | .noTrain => u8 0
  | .ambiguous => u8 1
  | .overlong => u8 2
  | .removed => u8 3

/-- BLOCK (R33, R35, R64, R107). -/
def State.blockFields (s : State) (b : Fin 48) : List Byte :=
  let c := tget s.channels b
  let f := tget s.feeds b
  let x := tget s.blockFlags b
  flag c.occupied ++ flag c.held ++ flag c.stale ++ feedByte f.state ++ flag f.isolated ++ flag x.stray.isSome ++
    maybe 1 strayByte x.stray ++ flag x.bridged ++ maybe 1 (fun t : Fin 24 => u8 t.val) (s.holder b) ++
    maybe 1 (fun r : Fin 64 => u8 r.val) (tget s.reservers b)

/-- The motion of a point: IDLE, QUEUED or MOVING (R65). -/
def State.motionByte (s : State) (p : Fin 64) : List Byte :=
  match s.movingTarget p, s.queuedTarget p with
  | some _, _ => u8 2
  | none, some _ => u8 1
  | none, none => u8 0

/-- POINT (R83). -/
def State.pointFields (s : State) (p : Fin 64) : List Byte :=
  let x := tget s.points p
  let c := tget s.contacts p
  (match x.lie with
    | some .normal => u8 0
    | some .reverse => u8 1
    | none => u8 2) ++ s.motionByte p ++ maybe 1 lieByte (s.movingTarget p) ++ maybe 1 lieByte (s.queuedTarget p) ++
    flag x.failed ++ u8 x.locks ++
    (match c.reading with
      | .neither => u8 0
      | .normal => u8 1
      | .reverse => u8 2) ++ flag c.stale ++
    match s.proof p with
    | some .normal => u8 0
    | some .reverse => u8 1
    | none => u8 2

/-- The ms left of a timer, in four bytes, a part of a ms dropped (log entry 28); absent while it is stopped. -/
def State.timerBytes (s : State) (t : Timer) : List Byte := maybe 4 (fun e => ageBytes (s.remaining e)) t

/-- SIGNAL (R124). -/
def State.signalFields (s : State) (g : Fin 32) : List Byte :=
  let x := tget s.signals g
  (match x.aspect with
    | .dark => u8 0
    | .danger => u8 1
    | .caution => u8 2
    | .prelim => u8 3
    | .clear => u8 4) ++ maybe 1 (fun r : Fin 64 => u8 r.val) x.control ++ flag x.cleared ++ maybe 1 flag x.release ++
    s.timerBytes x.timer ++ u8 x.overspeeds.toNat ++ maybe 2 u16 x.lastOverspeed

/-- The reason of a FREE route (R84). -/
def freeByte : FreeReason → List Byte
  | .none => u8 0
  | .released => u8 1
  | .cancelled => u8 2
  | .forced => u8 3
  | .expired => u8 4
  | .pointFailed => u8 5
  | .turntable => u8 6
  | .halted => u8 7

/-- A route's state, coded by its place in the list of R84 (R203). The table of 5.1 puts CANCELLING before ENTERED (log entry 30,
DESIGN CHOICE). -/
def routeStateByte : RouteRec → List Byte
  | .free _ => u8 0
  | .queued .. => u8 1
  | .setting .. => u8 2
  | .isSet .. => u8 3
  | .entered .. => u8 4
  | .cancelling .. => u8 5

/-- The released marks, absent in FREE and QUEUED (R107). -/
def marksBytes (m : Option Marks) : List Byte :=
  match m with
  | some m => counted flag m.path ++ flag m.overlap
  | none => [0x00, 0xFF]

/-- ROUTE (R107). -/
def State.routeFields (s : State) (r : Fin 64) : List Byte :=
  let x := tget s.routes r
  let reason := match x with
    | .free e => some e
    | _ => none
  let asked := match x with
    | .queued c t => some (c, t)
    | _ => none
  let proof := match x with
    | .isSet p d _ => some (p, d)
    | _ => none
  let danger := match x with
    | .entered true _ _ => some ()
    | _ => none
  let timer : Timer := match x with
    | .cancelling e _ => some e
    | .entered _ (.running e) _ => some e
    | _ => none
  routeStateByte x ++ maybe 1 freeByte reason ++
    maybe 5 (fun a : RouteClass × MsCount =>
      (match a.1 with
        | .host => u8 0
        | .visitor => u8 1) ++ ageBytes (s.ageOf a.2)) asked ++
    maybe 2 (fun a : Bool × Bool => flag a.1 ++ flag a.2) proof ++ marksBytes x.marks ++
    maybe 1 (fun _ => u8 1) danger ++ s.timerBytes timer

/-- TRAIN (R64). -/
def State.trainFields (s : State) (t : Fin 24) : List Byte :=
  match tget s.trains t with
  | .free => [0x00, 0xFF, 0xFF, 0x00] ++ List.replicate 10 0xFF ++ flag false
  | .active n l speed overlong =>
    u8 1 ++ u16 n ++ counted (fun x : TrainBlock => u8 x.block.val ++ sideByte x.front) l ++ maybe 2 u16 speed ++
      List.replicate 8 0xFF ++ flag overlong
  | .lost n seen speed overlong =>
    u8 2 ++ u16 n ++ u8 0 ++ maybe 2 u16 speed ++ u8 seen.block.val ++ sideByte seen.front ++ msBytes seen.time ++
      flag overlong

/-- A trap result in a report (R138): the t in µs. -/
def resultBytes (r : TrapResult) : List Byte :=
  u16 r.speed ++ sideByte r.toward ++ u32 r.t ++ flag r.overwritten ++ u8 r.count.toNat

/-- TRAP (R138): while timing, the overwritten flag and the time since t0 in ms, a part of a ms dropped (log entry 28, DESIGN
CHOICE). -/
def State.trapFields (s : State) (t : Fin 4) : List Byte :=
  let x := tget s.traps t
  (match x.state with
    | .idle => u8 0 ++ List.replicate 5 0xFF
    | .timing .ab t0 o _ => u8 1 ++ flag o ++ ageBytes ((s.clock.base - t0).toNat / 1000)
    | .timing .ba t0 o _ => u8 2 ++ flag o ++ ageBytes ((s.clock.base - t0).toNat / 1000)
    | .holdoff => u8 3 ++ List.replicate 5 0xFF) ++ maybe 9 resultBytes x.last ++ u8 x.timeouts.toNat ++
    match x.outcome with
    | some .result => u8 0
    | some .timeout => u8 1
    | none => u8 0xFF

/-- The origin of a move: a choice with its operand, coded as HOST, ROUTE, SHOW. R142 lists it as HOST, ROUTE r or SHOW s, and 1.6
lists HOST, KEY b, SHOW s or ROUTE r for the origin of any internal request (log entry 30, DESIGN CHOICE). -/
def originBytes : TurnOrigin → List Byte
  | .host => u8 0
  | .route r => u8 1 ++ u8 r.val
  | .showing i => u8 2 ++ u8 i.val

/-- The deck's state (R140). -/
def deckStateByte : DeckState → List Byte
  | .unhomed => u8 0
  | .homing .. => u8 1
  | .idle => u8 2
  | .unlocking .. => u8 3
  | .moving .. => u8 4
  | .settling .. => u8 5
  | .locking .. => u8 6
  | .stopped => u8 7
  | .faulted _ => u8 8

/-- The phase and creep count of a move (R142). -/
def phaseBytes : DeckState → List Byte
  | .moving _ (.deadtime _) => u8 0 ++ [0xFF, 0xFF]
  | .moving _ (.ramp ..) => u8 1 ++ [0xFF, 0xFF]
  | .moving _ (.reversal c _) => u8 2 ++ u16 c
  | .moving _ (.creep c _) => u8 3 ++ u16 c
  | _ => [0xFF, 0xFF, 0xFF]

/-- The remaining distance of a move (R142). -/
def State.remBytes (s : State) (m : MoveRec) : List Byte :=
  match s.tables.turntable, s.deck.pos with
  | some t, some x => u16 (t.dist x m.target m.dir)
  | _, _ => [0xFF, 0xFF]

/-- The move under way (R165). Its steps taken have no upper bound (R142), so they go in four bytes (R208), modulo 2 to the 32
(log entry 10). An absent move is sent over its shortest width, that of origin HOST (log entry 31, DESIGN CHOICE). -/
def State.moveBytes (s : State) : List Byte :=
  match s.deck.state.move with
  | some m =>
    originBytes m.origin ++ u8 m.road.val ++ deckEndByte m.side ++ u16 m.target ++ stepDirByte m.dir ++
      u16 m.distance ++ u32 m.steps ++ s.remBytes m ++ phaseBytes s.deck.state
  | none => List.replicate 17 0xFF

/-- The step count and known flag of a homing (R165). -/
def homingBytes : DeckState → List Byte
  | .homing known n _ => u32 n ++ flag known
  | _ => List.replicate 5 0xFF

/-- A fault cause (R140). -/
def faultByte : FaultCause → List Byte
  | .boltOutTimeout => u8 0
  | .boltInTimeout => u8 1
  | .indexError => u8 2
  | .indexNotFound => u8 3

/-- A move's outcome with its origin (R140). -/
def outcomeBytes (x : TurnOutcome × TurnOrigin) : List Byte :=
  (match x.1 with
    | .aligned => u8 0
    | .stopped => u8 1
    | .fault => u8 2) ++ originBytes x.2

/-- The last correction: a presence byte, then e in two's complement (R208). -/
def correctionBytes : Option Int → List Byte
  | some e => u8 1 ++ u16 (e % 65536).toNat
  | none => u8 0

/-- TURNTABLE (R165): the contacts bolt-out then bolt-in, the relays NORMAL then REVERSE. An absent last outcome is sent over its
shortest width (log entry 31, DESIGN CHOICE). -/
def State.turntableFields (s : State) : List Byte :=
  let d := s.deck
  let fault := match d.state with
    | .faulted c => some c
    | _ => none
  deckStateByte d.state ++ maybe 2 u16 d.pos ++
    maybe 2 (fun a : DeckReq => u8 a.road.val ++ deckEndByte a.side) d.align ++ flag d.locked ++
    maybe 1 stepDirByte d.lastDir ++ s.moveBytes ++ homingBytes d.state ++ maybe 2 outcomeBytes d.lastOutcome ++
    maybe 1 faultByte fault ++ u8 d.corrections.toNat ++ correctionBytes d.lastCorrection ++ flag d.boltOut ++
    flag d.boltIn ++ flag (d.relay == .normal) ++ flag (d.relay == .reverse)

/-- A module's type (R9). -/
def moduleTypeByte : ModuleType → List Byte
  | .lamp => u8 0
  | .keys => u8 1
  | .mimic => u8 2
  | .text => u8 3

/-- The classes in whose pending lists a module stands (R187). -/
def State.classesOf (s : State) (m : Fin 24) : List Nat :=
  ([s.bus.safety, s.bus.prove, s.bus.keys, s.bus.mimic, s.bus.text].zipIdx.filter fun x => x.1.contains m).map (·.2)

/-- MODULE (R187). -/
def State.moduleFields (s : State) (m : Fin 24) : List Byte :=
  let r := tget s.modules m
  maybe 2 (fun d : ModuleDef => u8 d.address ++ moduleTypeByte d.type) (s.moduleDef m) ++
    (match r.state with
      | .unknown => u8 0
      | .online => u8 1
      | .offline => u8 2) ++ u8 r.consecutive ++ u8 r.total.toNat ++
    (match r.cause with
      | some .noAck => u8 0
      | some .stretch => u8 1
      | some .stuck => u8 2
      | some .mismatch => u8 3
      | none => u8 0xFF) ++ counted u8 (s.classesOf m)

/-- A refusal reason's code (R205). -/
def Reason.code : Reason → Nat
  | .unknownKind => 1
  | .badLength => 2
  | .badValue => 3
  | .wrongMode => 4
  | .notDefined => 5
  | .tableFull => 6
  | .duplicate => 7
  | .busy => 8
  | .locked => 9
  | .occupied => 10
  | .queueFull => 11
  | .notEligible => 12
  | .notHomed => 13
  | .invalidLayout => 14

/-- A wait kind (R188). -/
def waitByte : WaitKind → List Byte
  | .none => u8 0
  | .route => u8 1
  | .turntable => u8 2
  | .cue => u8 3
  | .pause => u8 4

/-- An abort cause: a choice, REFUSED with its reason (R193). -/
def abortBytes : AbortCause → List Byte
  | .refused r => u8 0 ++ u8 r.code
  | .timeout => u8 1
  | .routeFreed => u8 2
  | .turntable => u8 3
  | .stopped => u8 4
  | .halted => u8 5

/-- The last end of a show: a choice, ABORTED with its step and cause (R188). -/
def lastEndBytes : LastEnd → List Byte
  | .completed => u8 0
  | .aborted n c => u8 1 ++ u8 n ++ abortBytes c

/-- What a show's report carries while RUNNING (R200). -/
def State.runBytes (s : State) (r : Run) : List Byte :=
  (match r.origin with
    | .host => u8 0
    | .key k => u8 1 ++ u8 k.val) ++ u8 r.step ++ waitByte r.wait ++ s.timerBytes r.timer ++
    counted (fun x : Fin 64 => u8 x.val) r.routes ++ flag r.turnPending

/-- Those fields while the show is not RUNNING: absent, the list empty. The origin is sent over its shortest width, one byte (log
entry 31, DESIGN CHOICE). -/
def noRunBytes : List Byte := List.replicate 7 0xFF ++ [0x00, 0xFF]

/-- SHOW (R200). An absent last end is sent over its shortest width, one byte (log entry 31, DESIGN CHOICE). -/
def State.showFields (s : State) (i : Fin 8) : List Byte :=
  let x := tget s.shows i
  (match x.state with
    | .idle => u8 0 ++ noRunBytes
    | .queued _ => u8 1 ++ noRunBytes
    | .running r => u8 2 ++ s.runBytes r
    | .aborted => u8 3 ++ noRunBytes) ++ maybe 1 lastEndBytes x.last ++ u8 x.runs.toNat

/-- A key result (log entry 11). -/
def keyResultByte : KeyResult → List Byte
  | .done => u8 0
  | .refused r => u8 r.code
  | .heldOff => u8 15
  | .none => u8 16

/-- KEY (R183, R200). -/
def State.keyFields (s : State) (k : Fin 64) : List Byte :=
  let x := tget s.keys k
  (match x.last with
    | some .pressed => u8 0
    | some .released => u8 1
    | none => u8 0xFF) ++ u8 x.presses.toNat ++ maybe 1 keyResultByte x.result ++ flag x.holdOff.isSome ++
    s.timerBytes x.holdOff ++
    match s.keyLamp k with
    | .dark => u8 0
    | .lit => u8 1
    | .flashing => u8 2

/-! ## Subjects, reports, replies and frames (R201, R205, R207, R208) -/

/-- A subject's code and index (R207). -/
def Subject.codeAndIndex : Subject → Nat × Nat
  | .layout => (0, 0)
  | .block b => (1, b.val)
  | .point p => (2, p.val)
  | .signal g => (3, g.val)
  | .route r => (4, r.val)
  | .train t => (5, t.val)
  | .trap t => (6, t.val)
  | .turntable => (7, 0)
  | .panel m => (8, m.val)
  | .showing i => (9, i.val)
  | .key k => (10, k.val)

/-- The subject that a code and an index name (R207, R209). -/
def subjectOf (code index : Nat) : Option Subject :=
  match code with
  | 0 => (index? 1 index).map fun _ => .layout
  | 1 => (index? 48 index).map .block
  | 2 => (index? 64 index).map .point
  | 3 => (index? 32 index).map .signal
  | 4 => (index? 64 index).map .route
  | 5 => (index? 24 index).map .train
  | 6 => (index? 4 index).map .trap
  | 7 => (index? 1 index).map fun _ => .turntable
  | 8 => (index? 24 index).map .panel
  | 9 => (index? 8 index).map .showing
  | 10 => (index? 64 index).map .key
  | _ => none

/-- The fields of a subject, as its owner gives them. -/
def State.fieldsOf (s : State) : Subject → List Byte
  | .layout => s.layoutFields
  | .block b => s.blockFields b
  | .point p => s.pointFields p
  | .signal g => s.signalFields g
  | .route r => s.routeFields r
  | .train t => s.trainFields t
  | .trap t => s.trapFields t
  | .turntable => s.turntableFields
  | .panel m => s.moduleFields m
  | .showing i => s.showFields i
  | .key k => s.keyFields k

/-- A report's payload (R208). -/
def State.reportOf (s : State) (x : Subject) : List Byte :=
  u8 x.codeAndIndex.1 ++ u8 x.codeAndIndex.2 ++ s.fieldsOf x

/-- What follows a report sent or a QUERY answered: an ABORTED show returns to IDLE (R193, R208, R209). -/
def State.reported (s : State) (x : Subject) : State :=
  match x with
  | .showing i => s.abortReported i
  | _ => s

/-- The table codes of INVALID_LAYOUT (R205). -/
def CheckTable.code : CheckTable → Nat
  | .block => 0
  | .point => 1
  | .signal => 2
  | .route => 3
  | .turntable => 4
  | .road => 5
  | .trap => 6
  | .panel => 7
  | .key => 8
  | .led => 9
  | .showing => 10
  | .cue => 11

/-- A reply's kind and payload (R205). -/
def Reply.bytes : Reply → Byte × List Byte
  | .ack p => (0x80, p)
  | .accepted => (0x81, [])
  | .refused r => (0x82, u8 r.code)
  | .invalid t i => (0x82, u8 (Reason.code .invalidLayout) ++ u8 t.code ++ u16 i)

/-- The XOR of bytes (R201). -/
def xorAll (l : List Byte) : Byte := l.foldl (· ^^^ ·) 0

/-- A frame of a kind, tag and payload (R201). -/
def frameBytes (kind tag : Byte) (payload : List Byte) : List Byte :=
  let inner := BitVec.ofNat 8 (payload.length + 2) :: kind :: tag :: payload
  0x7E :: inner ++ [xorAll inner]

/-- The bytes of the frame on the line (R206, R208). -/
def State.onTheLine (s : State) : List Byte :=
  match s.link.tx, s.link.fifo with
  | .reply, f :: _ => frameBytes f.reply.bytes.1 f.tag f.reply.bytes.2
  | .report p, _ => frameBytes 0xC0 0 p
  | _, _ => []

end Sys2Proof.Machine
end

