-- ==== Sys2Proof/Machine/Requests.lean ====
section
/-! DEFINITION. What each block does with a request handed to it (R204, step 5), and the reply: one `take` per request kind.
They serve both the request's own command and a frame that RECEIVED_BYTE completes. -/

namespace Sys2Proof.Machine

/-! ## Loading the tables (R2, R3, R11) -/

/-- The tables take a new value, and the images follow (R174). -/
def State.putTables (s : State) (t : Tables) : State := ({ s with tables := t }).recomputeParts

/-- A DEFINE of one entry: mode, index and fields are examined in that order, and the entry is replaced as a whole (R2). -/
def State.defineEntry {n : Nat} {β : Type} (s : State) (index : Nat) (fields : Option β)
    (put : Tables → Fin n → β → Tables) : State × Reply :=
  if s.mode ≠ .config then s.refuse .wrongMode
  else
    match index? n index, fields with
    | some i, some d => (s.putTables (put s.tables i d), Reply.done)
    | _, _ => s.refuse .badValue

/-- DEFINE_BLOCK (R4). -/
def takeDefineBlock (d : DefBlock) (s : State) : State × Reply :=
  s.defineEntry (n := 48) d.index (readBlock d) fun t i x => { t with blocks := tset t.blocks i (some x) }

/-- DEFINE_POINT (R5). A changed feedback mode may change the proof status of a point whose lie is known, which marks POINT (R77,
R83; log entry 33). -/
def takeDefinePoint (d : DefPoint) (s : State) : State × Reply :=
  let r := s.defineEntry (n := 64) d.index (readPoint d) fun t i x => { t with points := tset t.points i (some x) }
  match index? 64 d.index with
  | some p => if r.1.proof p = s.proof p then r else (r.1.mark (.point p), r.2)
  | none => r

/-- DEFINE_GROUP (R5). -/
def takeDefineGroup (d : DefGroup) (s : State) : State × Reply :=
  s.defineEntry (n := 8) d.index (readGroup d) fun t i x => { t with groups := tset t.groups i x }

/-- DEFINE_SIGNAL (R6). -/
def takeDefineSignal (d : DefSignal) (s : State) : State × Reply :=
  s.defineEntry (n := 32) d.index (readSignal d) fun t i x => { t with signals := tset t.signals i (some x) }

/-- DEFINE_ROUTE (R7). -/
def takeDefineRoute (d : DefRoute) (s : State) : State × Reply :=
  s.defineEntry (n := 64) d.index (readRoute d) fun t i x => { t with routes := tset t.routes i (some x) }

/-- DEFINE_TURNTABLE (R8). -/
def takeDefineTurntable (d : DefTurntable) (s : State) : State × Reply :=
  s.defineEntry (n := 1) d.index (readTurntable d) fun t _ x => { t with turntable := some x }

/-- DEFINE_ROAD (R8). -/
def takeDefineRoad (d : DefRoad) (s : State) : State × Reply :=
  s.defineEntry (n := 24) d.index (readRoad d) fun t i x => { t with roads := tset t.roads i (some x) }

/-- DEFINE_TRAP (R9). -/
def takeDefineTrap (d : DefTrap) (s : State) : State × Reply :=
  s.defineEntry (n := 4) d.index (readTrap d) fun t i x => { t with traps := tset t.traps i (some x) }

/-- DEFINE_MODULE (R9). -/
def takeDefineModule (d : DefModule) (s : State) : State × Reply :=
  s.defineEntry (n := 24) d.index (readModule d) fun t i x => { t with modules := tset t.modules i (some x) }

/-- DEFINE_KEY (R10). -/
def takeDefineKey (d : DefKey) (s : State) : State × Reply :=
  s.defineEntry (n := 64) d.index (readKey d) fun t i x => { t with keys := tset t.keys i (some x) }

/-- The LED table with one slot replaced, in rising LED number (R10). -/
def putLed (k : Nat) (d : LedDef) (l : List (Nat × LedDef)) : List (Nat × LedDef) :=
  l.filter (fun x => decide (x.1 < k)) ++ (k, d) :: l.filter fun x => decide (k < x.1)

/-- DEFINE_LED (R10): 24 modules of 64 LEDs. -/
def takeDefineLed (d : DefLed) (s : State) : State × Reply :=
  s.defineEntry (n := 1536) d.number (readLed d) fun t i x => { t with leds := putLed i.val x t.leds }

/-- DEFINE_CUE (R10). -/
def takeDefineCue (d : DefCue) (s : State) : State × Reply :=
  s.defineEntry (n := 16) d.index (readCue d) fun t i x => { t with cues := tset t.cues i x }

/-- The step store's entries in use (R11). -/
def Tables.stepsUsed (t : Tables) : Nat := (t.shows.toList.map List.length).sum

/-- A step of show `i` is replaced at, or appended at, position `k` (R11). -/
def State.putStep (s : State) (i : Fin 8) (k : Nat) (x : Step) : State × Reply :=
  let l := tget s.tables.shows i
  let put (l : List Step) : State × Reply :=
    (s.putTables { s.tables with shows := tset s.tables.shows i l }, Reply.done)
  if k < l.length then put (l.set k x)
  else if k = l.length then
    if s.tables.stepsUsed < Config.stepStore then put (l ++ [x]) else s.refuse .tableFull
  else s.refuse .badValue

/-- DEFINE_STEP (R11). -/
def takeDefineStep (d : DefStep) (s : State) : State × Reply :=
  if s.mode ≠ .config then s.refuse .wrongMode
  else
    match index? 8 d.showNo, (Sent.required d.step).bind readStep with
    | some i, some x => s.putStep i d.position x
    | _, _ => s.refuse .badValue

/-- One entry of a table returned to undefined, or every entry (R3). -/
def eraseAt {α : Type} {n : Nat} (t : Tab α n) (blank : α) : Option (Fin n) → Tab α n
  | some i => tset t i blank
  | none => tfill n blank

/-- An index of ERASE within a table of `n`: none for ALL (R3). The outer none is an index out of range. -/
def eraseIndex (n : Nat) : Option Nat → Option (Option (Fin n))
  | none => some none
  | some k => (index? n k).map some

/-- The tables after an ERASE (R3). -/
def Tables.erase (t : Tables) (x : EraseTable) (index : Option Nat) : Option Tables :=
  match x with
  | .block => (eraseIndex 48 index).map fun i => { t with blocks := eraseAt t.blocks none i }
  | .point => (eraseIndex 64 index).map fun i => { t with points := eraseAt t.points none i }
  | .group => (eraseIndex 8 index).map fun i => { t with groups := eraseAt t.groups GroupDef.default i }
  | .signal => (eraseIndex 32 index).map fun i => { t with signals := eraseAt t.signals none i }
  | .route => (eraseIndex 64 index).map fun i => { t with routes := eraseAt t.routes none i }
  | .turntable => (eraseIndex 1 index).map fun _ => { t with turntable := none }
  | .road => (eraseIndex 24 index).map fun i => { t with roads := eraseAt t.roads none i }
  | .trap => (eraseIndex 4 index).map fun i => { t with traps := eraseAt t.traps none i }
  | .panel => (eraseIndex 24 index).map fun i => { t with modules := eraseAt t.modules none i }
  | .key => (eraseIndex 64 index).map fun i => { t with keys := eraseAt t.keys none i }
  | .led =>
    (eraseIndex 1536 index).map fun i =>
      { t with
        leds := match i with
          | some k => t.leds.filter fun y => y.1 != k.val
          | none => [] }
  | .cue => (eraseIndex 16 index).map fun i => { t with cues := eraseAt t.cues .none i }
  | .showing => (eraseIndex 8 index).map fun i => { t with shows := eraseAt t.shows [] i }
  | .everything =>
    match index with
    | none => some Tables.empty
    | some _ => none

/-- A point that is not defined keeps the power-on record (R65, log entry 24). -/
def State.dropUndefinedPoints (s : State) : State :=
  { s with
    points := tgen 64 fun p => if (s.pointDef p).isSome then tget s.points p else PointRec.initial }

/-- The points that are not defined and whose lie is known: those that `dropUndefinedPoints` gives a new lie. -/
def State.losingLie (s : State) : List (Fin 64) :=
  (indices 64).filter fun p => (s.pointDef p).isNone && (tget s.points p).lie.isSome

/-- The tables take what an ERASE leaves of them: each point that loses its lie with its entry is marked (R83), and the images
follow (R174). -/
def State.putErased (s : State) (t : Tables) : State :=
  let s := { s with tables := t }
  (s.dropUndefinedPoints.recomputeParts).markAll (s.losingLie.map .point)

/-- ERASE (R3). -/
def takeErase (d : EraseReq) (s : State) : State × Reply :=
  if s.mode ≠ .config then s.refuse .wrongMode
  else
    match (Sent.required d.table).bind fun x => s.tables.erase x d.index with
    | some t => (s.putErased t, Reply.done)
    | none => s.refuse .badValue

/-! ## Parameters, captions, text (R12, R13, R185) -/

/-- SET_PARAM (R13, R14). -/
def takeSetParam (d : ParamReq) (s : State) : State × Reply :=
  match Sent.required d.param with
  | none => s.refuse .badValue
  | some x =>
    let v := s.params.put x d.value
    let s := { s with params := v.1 }
    let s := if (s.queue.filter s.stackDue).isEmpty then s else s.expireStack.settle
    (s, .ack (u16 v.2))

/-- Characters beyond 20 make a payload too long (R204). -/
def limitCodes {α : Type} (codes : α → List Byte) : Body α → Body α
  | .wrongLength => .wrongLength
  | .fields a => if (codes a).length ≤ 20 then .fields a else .wrongLength

/-- SET_CAPTION (R12). -/
def takeSetCaption (d : CaptionReq) (s : State) : State × Reply :=
  match index? 16 d.index with
  | some k =>
    if printable d.codes then ({ s with captions := tset s.captions k (padTo20 d.codes) }, Reply.done)
    else s.refuse .badValue
  | none => s.refuse .badValue

/-- SET_TEXT (R185). -/
def takeSetText (codes : List Byte) (s : State) : State × Reply :=
  if printable codes then ((s.putLine1 (padTo20 codes)).settlePanel, Reply.done) else s.refuse .badValue

/-! ## Modes (R15, R20 to R24) -/

/-- START_RUN (R15, R20). -/
def takeStartRun (_ : Unit) (s : State) : State × Reply :=
  if s.mode ≠ .config then s.refuse .wrongMode
  else
    match s.tables.firstFailure with
    | some (t, i) => (s, .invalid t i)
    | none => (s.enterRun, Reply.done)

/-- STOP_RUN (R23, R210). -/
def takeStopRun (_ : Unit) (s : State) : State × Reply :=
  if s.mode = .config then s.refuse .wrongMode else (s.enterConfig, Reply.done)

/-- HALT_LAYOUT (R21). -/
def takeHalt (_ : Unit) (s : State) : State × Reply :=
  match s.mode with
  | .config => s.refuse .wrongMode
  | .run => (s.enterHalt .host, Reply.done)
  | .halt _ => (s, Reply.done)

/-- RESUME (R22). -/
def takeResume (_ : Unit) (s : State) : State × Reply :=
  if s.mode.isHalt then (s.resumeRun, Reply.done) else s.refuse .wrongMode

/-- RESET: from its ACK on, every complete frame is discarded until it takes effect (R24, R210). -/
def takeReset (_ : Unit) (s : State) : State × Reply :=
  (s.updLink fun l => { l with resetting := true }, Reply.done)

/-! ## Feeds (R41, R42) -/

/-- ISOLATE_FEED (R41). -/
def takeIsolateFeed (d : IsolateReq) (s : State) : State × Reply :=
  if s.mode = .config then s.refuse .wrongMode
  else
    match index? 48 d.block, Sent.required d.on with
    | some b, some on => if (s.blockDef b).isSome then (s.isolate b on, Reply.done) else s.refuse .notDefined
    | _, _ => s.refuse .badValue

/-- RESTORE_FEED of a defined block (R42). -/
def State.restore (s : State) (b : Fin 48) : State :=
  if (tget s.feeds b).state = .latched then
    if s.mode = .run then (s.restoreNow b).settlePanel else s.updFeed b fun f => { f with deferred := true }
  else s

/-- RESTORE_FEED (R42). -/
def takeRestoreFeed (n : Nat) (s : State) : State × Reply :=
  if s.mode = .config then s.refuse .wrongMode
  else
    match index? 48 n with
    | some b => if (s.blockDef b).isSome then (s.restore b, Reply.done) else s.refuse .notDefined
    | none => s.refuse .badValue

/-! ## Trains, points, routes -/

/-- PLACE_TRAIN (R61). -/
def takePlaceTrain (d : PlaceReq) (s : State) : State × Reply := settleReply (s.placeTrain d)

/-- REMOVE_TRAIN (R62). -/
def takeRemoveTrain (n : Nat) (s : State) : State × Reply := settleReply (s.removeTrain n)

/-- THROW_POINT (R79). -/
def State.throwPoint (d : ThrowReq) (s : State) : State × Reply :=
  if s.mode ≠ .run then s.refuse .wrongMode
  else
    match index? 64 d.point, Sent.required d.lie with
    | some p, some l =>
      if (s.pointDef p).isNone then s.refuse .notDefined
      else if 0 < (tget s.points p).locks then s.refuse .locked
      else if s.legsClear p then ((s.mark (.point p)).moveRequest p l, .accepted)
      else s.refuse .occupied
    | _, _ => s.refuse .badValue

/-- THROW_POINT, with its end. -/
def takeThrowPoint (d : ThrowReq) (s : State) : State × Reply := settleReply (s.throwPoint d)

/-- REQUEST_ROUTE from the host (R87). -/
def takeRequestRoute (n : Nat) (s : State) : State × Reply := settleReply (s.requestRoute .host n)

/-- CANCEL_ROUTE from the host (R101). -/
def takeCancelRoute (n : Nat) (s : State) : State × Reply := settleReply (s.cancelRoute n)

/-- FORCE_RELEASE (R103). -/
def takeForceRelease (n : Nat) (s : State) : State × Reply := settleReply (s.forceRelease n)

/-! ## The turntable (R143, R157, R159) -/

/-- TURN from the host (R143). -/
def State.turnRequest (d : TurnReq) (s : State) : State × Reply :=
  if s.mode ≠ .run then s.refuse .wrongMode
  else
    match index? 24 d.road, Sent.required d.side with
    | some road, some e => s.turnTo .host road e
    | _, _ => s.refuse .badValue

/-- TURN from the host, with its end. -/
def takeTurn (d : TurnReq) (s : State) : State × Reply := settleReply (s.turnRequest d)

/-- HOME (R157). -/
def State.homeRequest (s : State) : State × Reply :=
  if s.mode ≠ .run then s.refuse .wrongMode
  else
    match s.tables.turntable with
    | none => s.refuse .notDefined
    | some t =>
      if s.deck.state.busy then s.refuse .busy
      else if s.deckHeldByRoute t.deckBlock .host then s.refuse .locked
      else if s.deckOccupied t.deckBlock then s.refuse .occupied
      else (s.startHoming t, .accepted)

/-- HOME, with its end. -/
def takeHome (_ : Unit) (s : State) : State × Reply := settleReply s.homeRequest

/-- STOP_TURNTABLE (R159). -/
def takeStopTurntable (_ : Unit) (s : State) : State × Reply :=
  if s.mode = .config then s.refuse .wrongMode
  else if s.tables.turntable.isNone then s.refuse .notDefined
  else (s.kill.settle, Reply.done)

/-! ## Shows and cues (R189, R190, R196) -/

/-- START_SHOW from the host (R189). -/
def takeStartShow (n : Nat) (s : State) : State × Reply := settleReply (s.startShow .host n)

/-- STOP_SHOW (R190). -/
def takeStopShow (n : Nat) (s : State) : State × Reply := settleReply (s.stopShow n)

/-- SET_CUE (R196). -/
def takeSetCue (n : Nat) (s : State) : State × Reply :=
  match index? 16 n with
  | some c => ((s.setCueFlag c).settle, Reply.done)
  | none => s.refuse .badValue

/-- CLEAR_CUE from the host (R196). -/
def takeClearCue (n : Nat) (s : State) : State × Reply :=
  match index? 16 n with
  | some c => (s.putCue c false, Reply.done)
  | none => s.refuse .badValue

/-! ## QUERY (R209) -/

/-- QUERY (R209). -/
def takeQuery (d : QueryReq) (s : State) : State × Reply :=
  match subjectOf d.code d.index with
  | some x => ((s.unmark x).reported x, .ack (s.reportOf x))
  | none => s.refuse .badValue

end Sys2Proof.Machine
end

