-- ==== Sys2Proof/Machine/Payload.lean ====
section
/-! DEFINITION. Reading the payload of a complete frame by its kind (R203, R204), and its examination. A reader takes the
bytes it needs from the front and answers the rest; none is a payload too short. Encodings left to be inferred are log entry
9. -/

namespace Sys2Proof.Machine

/-! ## Fields -/

/-- A number in one byte. -/
def getByte : List Byte → Option (Nat × List Byte)
  | b :: l => some (b.toNat, l)
  | [] => none

/-- A number in two bytes, most significant first. -/
def getWord : List Byte → Option (Nat × List Byte)
  | a :: b :: l => some (256 * a.toNat + b.toNat, l)
  | _ => none

/-- A value of a field with a default, which 0xFF or 0xFFFF leaves out (R203). -/
def orOmitted (left n : Nat) : Sent Nat := if n = left then .omitted else .value n

/-- A one-byte field with a default. -/
def getByteOr (l : List Byte) : Option (Sent Nat × List Byte) :=
  (getByte l).map fun x => (orOmitted 0xFF x.1, x.2)

/-- A two-byte field with a default. -/
def getWordOr (l : List Byte) : Option (Sent Nat × List Byte) :=
  (getWord l).map fun x => (orOmitted 0xFFFF x.1, x.2)

/-- A choice by its position in a list (R203). -/
def choiceOf {α : Type} (values : List α) (n : Nat) : Sent α :=
  match values[n]? with
  | some a => .value a
  | none => .unlisted

/-- A required choice. -/
def getChoice {α : Type} (values : List α) (l : List Byte) : Option (Sent α × List Byte) :=
  (getByte l).map fun x => (choiceOf values x.1, x.2)

/-- A choice with a default. -/
def getChoiceOr {α : Type} (values : List α) (l : List Byte) : Option (Sent α × List Byte) :=
  (getByte l).map fun x => (if x.1 = 0xFF then .omitted else choiceOf values x.1, x.2)

/-- `n` entries in turn. -/
def getMany {α : Type} (f : List Byte → Option (α × List Byte)) : Nat → List Byte → Option (List α × List Byte)
  | 0, l => some ([], l)
  | n + 1, l => do
    let (a, l) ← f l
    let (as, l) ← getMany f n l
    return (a :: as, l)

/-- A list with its count byte (R203). -/
def getList {α : Type} (f : List Byte → Option (α × List Byte)) (l : List Byte) : Option (List α × List Byte) := do
  let (n, l) ← getByte l
  getMany f n l

/-- An optional part with its presence byte (R203). One other than 0 and 1 calls for no part and is an unlisted value, refused
with BAD_VALUE (log entry 32, DESIGN CHOICE). -/
def getOptional {α : Type} (f : List Byte → Option (α × List Byte)) (l : List Byte) :
    Option (Sent α × List Byte) := do
  let (n, l) ← getByte l
  if n = 0 then return (.omitted, l)
  else if n = 1 then
    let (a, l) ← f l
    return (.value a, l)
  else return (.unlisted, l)

/-- A whole payload: no byte may be left over (R204). -/
def whole {α : Type} (x : Option (α × List Byte)) : Body α :=
  match x with
  | some (a, []) => .fields a
  | _ => .wrongLength

/-- The ends of a block in their order. -/
def sides : List Side := [.e0, .e1]

/-- The lies in their order. -/
def lies : List Lie := [.normal, .reverse]

/-- The ends a TURN may name in their order. -/
def deckAsks : List DeckAsk := [.a, .b, .any]

/-- A link, always of three bytes (R203). In one of form NONE the second and third byte are disregarded, whatever they hold (log
entry 34, DESIGN CHOICE). -/
def getLink (l : List Byte) : Option (RawLink × List Byte) := do
  let (form, l) ← getByte l
  let (k, l) ← getByte l
  let (e, l) ← getByte l
  return (match form with
    | 0 => .noLink
    | 1 => .blockEnd k (choiceOf sides e)
    | 2 => .pointLeg k (choiceOf [.toe, .normal, .reverse] e)
    | _ => .unlisted, l)

/-! ## Payloads by kind -/

/-- DEFINE_BLOCK. -/
def getBlock (l : List Byte) : Option (DefBlock × List Byte) := do
  let (index, l) ← getByte l
  let (k, l) ← getByte l
  let (kind, l) ← match k with
    | 0 => some (Sent.value RawKind.plain, l)
    | 1 => (getByte l).map fun x => (.value (.stop x.1), x.2)
    | 2 => some (.value .deck, l)
    | _ => some (.unlisted, l)
  let (link0, l) ← getLink l
  let (link1, l) ← getLink l
  let (threshold, l) ← getByteOr l
  let (hysteresis, l) ← getByteOr l
  let (dwellOn, l) ← getByteOr l
  let (dwellOff, l) ← getByteOr l
  let (kill, l) ← getChoiceOr [.auto, .latch] l
  let (restartGroup, l) ← getByteOr l
  return ({ index, kind, link0, link1, threshold, hysteresis, dwellOn, dwellOff, kill, restartGroup }, l)

/-- DEFINE_POINT. -/
def getPoint (l : List Byte) : Option (DefPoint × List Byte) := do
  let (index, l) ← getByte l
  let (toe, l) ← getLink l
  let (normal, l) ← getLink l
  let (reverse, l) ← getLink l
  let (group, l) ← getByte l
  let (feedback, l) ← getChoiceOr [.none, .hold, .confirm] l
  let (home, l) ← getChoiceOr [.normal, .reverse, .asFound] l
  return ({ index, toe, normal, reverse, group, feedback, home }, l)

/-- DEFINE_GROUP. -/
def getGroup (l : List Byte) : Option (DefGroup × List Byte) := do
  let (index, l) ← getByte l
  let (setup, l) ← getByteOr l
  let (pulse, l) ← getWordOr l
  let (recovery, l) ← getWordOr l
  let (window, l) ← getWordOr l
  return ({ index, setup, pulse, recovery, window }, l)

/-- DEFINE_SIGNAL. -/
def getSignal (l : List Byte) : Option (DefSignal × List Byte) := do
  let (index, l) ← getByte l
  let (block, l) ← getByte l
  let (stands, l) ← getChoice sides l
  let (aspects, l) ← getByte l
  let (lampModule, l) ← getByte l
  let (firstOutput, l) ← getByte l
  return ({ index, block, stands, aspects, lampModule, firstOutput }, l)

/-- An entry of a point list. -/
def getPointReq (l : List Byte) : Option (RawPointReq × List Byte) := do
  let (point, l) ← getByte l
  let (lie, l) ← getChoice lies l
  let (release, l) ← getByte l
  return ({ point, lie, release }, l)

/-- An entry of a flank list. -/
def getFlankReq (l : List Byte) : Option (RawFlankReq × List Byte) := do
  let (point, l) ← getByte l
  let (lie, l) ← getChoice lies l
  return ({ point, lie }, l)

/-- A turntable requirement. -/
def getDeckReq (l : List Byte) : Option (RawDeckReq × List Byte) := do
  let (road, l) ← getByte l
  let (side, l) ← getChoice [.a, .b] l
  return ({ road, side }, l)

/-- Approach control. -/
def getApproach (l : List Byte) : Option (RawApproach × List Byte) := do
  let (limit, l) ← getWord l
  let (trap, l) ← getByte l
  let (release, l) ← getByte l
  return ({ limit, trap, release }, l)

/-- DEFINE_ROUTE; an exit of NONE is sent as 0xFF. -/
def getRoute (l : List Byte) : Option (DefRoute × List Byte) := do
  let (index, l) ← getByte l
  let (entrance, l) ← getByte l
  let (x, l) ← getByte l
  let (path, l) ← getList getByte l
  let (points, l) ← getList getPointReq l
  let (flank, l) ← getList getFlankReq l
  let (overlap, l) ← getList getByte l
  let (turntable, l) ← getOptional getDeckReq l
  let (approach, l) ← getOptional getApproach l
  let (visitor, l) ← getChoiceOr [false, true] l
  return ({ index, entrance, exit := if x = 0xFF then none else some x, path, points, flank, overlap, turntable,
            approach, visitor }, l)

/-- DEFINE_TURNTABLE. -/
def getTurntable (l : List Byte) : Option (DefTurntable × List Byte) := do
  let (index, l) ← getByte l
  let (r, l) ← getWord l
  let (vMin, l) ← getWord l
  let (vMax, l) ← getWord l
  let (increment, l) ← getWord l
  let (barrier, l) ← getChoiceOr [false, true] l
  let (tolerance, l) ← getByte l
  let (homeAtStart, l) ← getChoiceOr [false, true] l
  let (settle, l) ← getWordOr l
  let (bolt, l) ← getWordOr l
  let (deadtime, l) ← getWordOr l
  let (deckBlock, l) ← getByte l
  return ({ index, r, vMin, vMax, increment, barrier, tolerance, homeAtStart, settle, bolt, deadtime, deckBlock }, l)

/-- DEFINE_ROAD. -/
def getRoad (l : List Byte) : Option (DefRoad × List Byte) := do
  let (index, l) ← getByte l
  let (position, l) ← getWord l
  let (block, l) ← getByte l
  return ({ index, position, block }, l)

/-- DEFINE_TRAP. -/
def getTrap (l : List Byte) : Option (DefTrap × List Byte) := do
  let (index, l) ← getByte l
  let (distance, l) ← getWord l
  let (edges, l) ← getByteOr l
  let (quiet, l) ← getWordOr l
  let (block, l) ← getByte l
  let (abEnd, l) ← getChoice sides l
  return ({ index, distance, edges, quiet, block, abEnd }, l)

/-- DEFINE_MODULE. -/
def getModule (l : List Byte) : Option (DefModule × List Byte) := do
  let (index, l) ← getByte l
  let (address, l) ← getByte l
  let (type, l) ← getChoice [.lamp, .keys, .mimic, .text] l
  return ({ index, address, type }, l)

/-- DEFINE_KEY: an action is its position followed by its operand. -/
def getKey (l : List Byte) : Option (DefKey × List Byte) := do
  let (index, l) ← getByte l
  let (panel, l) ← getByte l
  let (key, l) ← getByte l
  let (k, l) ← getByte l
  let (action, l) ← match k with
    | 0 => (getByte l).map fun x => (Sent.value (RawAction.startShow x.1), x.2)
    | 1 => (getByte l).map fun x => (.value (.visitorRoute x.1), x.2)
    | 2 => some (.value .emergency, l)
    | 3 => some (.value .none, l)
    | _ => some (.unlisted, l)
  return ({ index, panel, key, action }, l)

/-- DEFINE_LED. -/
def getLed (l : List Byte) : Option (DefLed × List Byte) := do
  let (number, l) ← getWord l
  let (kind, l) ← getChoice [.blockOcc, .blockRes, .pointN, .pointR, .signalProceed, .road, .showing] l
  let (index, l) ← getByte l
  return ({ number, kind, index }, l)

/-- The operands of a KEY selector. -/
def getKeySelector (l : List Byte) : Option (Sent RawSelector × List Byte) := do
  let (m, l) ← getByte l
  let (k, l) ← getByte l
  return (.value (.key m k), l)

/-- DEFINE_CUE: a selector is its position followed by its operands, and NONE is its default. -/
def getCue (l : List Byte) : Option (DefCue × List Byte) := do
  let (index, l) ← getByte l
  let (k, l) ← getByte l
  let (selector, l) ← match k with
    | 0 => (getByte l).map fun x => (Sent.value (RawSelector.blockOccupied x.1), x.2)
    | 1 => (getByte l).map fun x => (.value (.blockCleared x.1), x.2)
    | 2 => (getByte l).map fun x => (.value (.trapResult x.1), x.2)
    | 3 => some (.value .turntableAligned, l)
    | 4 => (getByte l).map fun x => (.value (.routeEntered x.1), x.2)
    | 5 => (getByte l).map fun x => (.value (.routeFreed x.1), x.2)
    | 6 => getKeySelector l
    | 0xFF => some (.omitted, l)
    | _ => some (.unlisted, l)
  return ({ index, selector }, l)

/-- A show step: its kind and then its operands. -/
def getStep (l : List Byte) : Option (Sent RawStep × List Byte) := do
  let (k, l) ← getByte l
  match k with
  | 0 => (getByte l).map fun x => (.value (.route x.1), x.2)
  | 1 => do
    let (road, l) ← getByte l
    let (e, l) ← getChoice deckAsks l
    return (.value (.turn road e), l)
  | 2 => do
    let (r, l) ← getByte l
    let (t, l) ← getChoice [.isSet, .isFree] l
    let (n, l) ← getWord l
    return (.value (.waitRoute r t n), l)
  | 3 => (getWord l).map fun x => (.value (.waitTurntable x.1), x.2)
  | 4 => do
    let (c, l) ← getByte l
    let (n, l) ← getWord l
    return (.value (.waitCue c n), l)
  | 5 => (getWord l).map fun x => (.value (.pause x.1), x.2)
  | 6 => (getByte l).map fun x => (.value (.clearCue x.1), x.2)
  | 7 => (getByte l).map fun x => (.value (.caption x.1), x.2)
  | 8 => (getByte l).map fun x => (.value (.cancel x.1), x.2)
  | 9 => some (.value .finish, l)
  | _ => some (.unlisted, l)

/-- DEFINE_STEP. -/
def getDefStep (l : List Byte) : Option (DefStep × List Byte) := do
  let (showNo, l) ← getByte l
  let (position, l) ← getByte l
  let (step, l) ← getStep l
  return ({ showNo, position, step }, l)

/-- ERASE: index 0xFFFF is ALL. -/
def getErase (l : List Byte) : Option (EraseReq × List Byte) := do
  let (table, l) ← getChoice
    [.block, .point, .group, .signal, .route, .turntable, .road, .trap, .panel, .key, .led, .cue, .showing, .everything] l
  let (n, l) ← getWord l
  return ({ table, index := if n = 0xFFFF then none else some n }, l)

/-- SET_PARAM. -/
def getParam (l : List Byte) : Option (ParamReq × List Byte) := do
  let (param, l) ← getChoice
    [.stackTimeout, .approachLock, .overlapRelease, .adoptionWindow, .coolTime, .tripWindow, .tripsToLatch,
     .restartStagger, .showHoldOff, .keyPollPeriod, .lampProvePeriod, .speedHold, .scaleDivisor, .displayTrap] l
  let (value, l) ← getWord l
  return ({ param, value }, l)

/-- SET_CAPTION: the caption and every code that follows. -/
def getCaption (l : List Byte) : Option (CaptionReq × List Byte) := do
  let (index, l) ← getByte l
  return ({ index, codes := l }, [])

/-- ISOLATE_FEED: OFF 0, ON 1. -/
def getIsolate (l : List Byte) : Option (IsolateReq × List Byte) := do
  let (block, l) ← getByte l
  let (on, l) ← getChoice [false, true] l
  return ({ block, on }, l)

/-- PLACE_TRAIN. -/
def getPlace (l : List Byte) : Option (PlaceReq × List Byte) := do
  let (number, l) ← getWord l
  let (block, l) ← getByte l
  let (leading, l) ← getChoice sides l
  return ({ number, block, leading }, l)

/-- THROW_POINT. -/
def getThrow (l : List Byte) : Option (ThrowReq × List Byte) := do
  let (point, l) ← getByte l
  let (lie, l) ← getChoice lies l
  return ({ point, lie }, l)

/-- TURN. -/
def getTurn (l : List Byte) : Option (TurnReq × List Byte) := do
  let (road, l) ← getByte l
  let (side, l) ← getChoice deckAsks l
  return ({ road, side }, l)

/-- QUERY. -/
def getQuery (l : List Byte) : Option (QueryReq × List Byte) := do
  let (code, l) ← getByte l
  let (index, l) ← getByte l
  return ({ code, index }, l)

/-- An empty payload. -/
def getNothing (l : List Byte) : Option (Unit × List Byte) := some ((), l)

/-! ## Examination of a complete frame (R204) -/

/-- A complete frame of a kind that is not in the request table (R204). -/
def State.examineUnknown (s : State) (tag : Byte) : State :=
  if s.discards then s else s.pushReply tag (.refused .unknownKind)

/-- A complete frame's kind, tag and payload are examined (R203, R204). -/
def State.examineFrame (s : State) (kind tag : Byte) (p : List Byte) : State :=
  match kind.toNat with
  | 0x01 => s.examineBody tag (whole (getBlock p)) takeDefineBlock
  | 0x02 => s.examineBody tag (whole (getPoint p)) takeDefinePoint
  | 0x03 => s.examineBody tag (whole (getGroup p)) takeDefineGroup
  | 0x04 => s.examineBody tag (whole (getSignal p)) takeDefineSignal
  | 0x05 => s.examineBody tag (whole (getRoute p)) takeDefineRoute
  | 0x06 => s.examineBody tag (whole (getTurntable p)) takeDefineTurntable
  | 0x07 => s.examineBody tag (whole (getRoad p)) takeDefineRoad
  | 0x08 => s.examineBody tag (whole (getTrap p)) takeDefineTrap
  | 0x09 => s.examineBody tag (whole (getModule p)) takeDefineModule
  | 0x0A => s.examineBody tag (whole (getKey p)) takeDefineKey
  | 0x0B => s.examineBody tag (whole (getLed p)) takeDefineLed
  | 0x0C => s.examineBody tag (whole (getCue p)) takeDefineCue
  | 0x0D => s.examineBody tag (whole (getDefStep p)) takeDefineStep
  | 0x0E => s.examineBody tag (whole (getErase p)) takeErase
  | 0x0F => s.examineBody tag (whole (getParam p)) takeSetParam
  | 0x10 => s.examineBody tag (limitCodes CaptionReq.codes (whole (getCaption p))) takeSetCaption
  | 0x11 => s.examineBody tag (whole (getNothing p)) takeStartRun
  | 0x12 => s.examineBody tag (whole (getNothing p)) takeStopRun
  | 0x13 => s.examineBody tag (whole (getNothing p)) takeHalt
  | 0x14 => s.examineBody tag (whole (getNothing p)) takeResume
  | 0x15 => s.examineBody tag (whole (getNothing p)) takeReset
  | 0x20 => s.examineBody tag (whole (getIsolate p)) takeIsolateFeed
  | 0x21 => s.examineBody tag (whole (getByte p)) takeRestoreFeed
  | 0x22 => s.examineBody tag (whole (getPlace p)) takePlaceTrain
  | 0x23 => s.examineBody tag (whole (getWord p)) takeRemoveTrain
  | 0x24 => s.examineBody tag (whole (getThrow p)) takeThrowPoint
  | 0x25 => s.examineBody tag (whole (getByte p)) takeRequestRoute
  | 0x26 => s.examineBody tag (whole (getByte p)) takeCancelRoute
  | 0x27 => s.examineBody tag (whole (getByte p)) takeForceRelease
  | 0x28 => s.examineBody tag (whole (getTurn p)) takeTurn
  | 0x29 => s.examineBody tag (whole (getNothing p)) takeHome
  | 0x2A => s.examineBody tag (whole (getNothing p)) takeStopTurntable
  | 0x2B => s.examineBody tag (whole (getByte p)) takeStartShow
  | 0x2C => s.examineBody tag (whole (getByte p)) takeStopShow
  | 0x2D => s.examineBody tag (whole (getByte p)) takeSetCue
  | 0x2E => s.examineBody tag (whole (getByte p)) takeClearCue
  | 0x2F => s.examineBody tag (limitCodes id (.fields p)) takeSetText
  | 0x30 => s.examineBody tag (whole (getQuery p)) takeQuery
  | _ => s.examineUnknown tag

end Sys2Proof.Machine
end

