-- ==== Sys2Proof/Machine/Link.lean ====
section
/-! DEFINITION. The Link Port (chapter 11): the receive assembler, the transmitter, and reports. -/

namespace Sys2Proof.Machine

/-! ## The receive assembler (R202) -/

/-- When the last byte of a frame in progress came. -/
def Rx.lastAt : Rx → Option Nat
  | .hunt => none
  | .length t => some t
  | .body _ _ _ t => some t
  | .check _ _ t => some t

/-- A frame in progress is abandoned (R202). -/
def State.abandonFrame (s : State) : State := s.updLink fun l => { l with rx := .hunt }

/-- A frame in progress whose last byte lies more than 20 ms back is abandoned before the next byte is taken (R202). -/
def State.abandonLate (s : State) : State :=
  match s.link.rx.lastAt with
  | some t => if t + Config.frameGapUs < s.clock.us then s.abandonFrame else s
  | none => s

/-- What follows BODY once `got` is stored: CHECK when all L bytes are there (R202). -/
def Rx.afterBody (len : Nat) (got : List Byte) (sum : Byte) (now : Nat) : Rx :=
  if len ≤ got.length then .check got sum now else .body len got sum now

/-- The assembler after a byte that completes no frame (R202). -/
def Rx.take (x : Rx) (b : Byte) (now : Nat) : Rx :=
  match x with
  | .hunt => if b = 0x7E then .length now else .hunt
  | .length _ => if 2 ≤ b.toNat ∧ b.toNat ≤ 62 then .body b.toNat [] b now else .hunt
  | .body len got sum _ => Rx.afterBody len (got ++ [b]) (sum ^^^ b) now
  | .check .. => .hunt

/-- The bytes of BODY that a byte completes into a frame: the check byte, when it equals the running check (R202). -/
def Rx.completes (x : Rx) (b : Byte) : Option (List Byte) :=
  match x with
  | .check got sum _ => if b = sum then some got else none
  | _ => none

/-- A byte is received (R202); a frame it completes is examined (R204). -/
def State.takeByte (s : State) (b : Byte) : State :=
  let s := s.abandonLate
  let done := s.link.rx.completes b
  let s := s.updLink fun l => { l with rx := l.rx.take b s.clock.us }
  match done with
  | some (kind :: tag :: payload) => s.examineFrame kind tag payload
  | _ => s

/-! ## The transmitter (R206, R208) -/

/-- The last byte of the frame on the line has left (R206): a reply leaves the FIFO, and the oldest waiting one begins. -/
def LinkPort.sent (l : LinkPort) : LinkPort :=
  match l.tx with
  | .free => l
  | .reply => LinkPort.startReply { l with fifo := l.fifo.tail, tx := .free }
  | .report _ => LinkPort.startReply { l with tx := .free }

/-- A report of the head subject is sent, with the transmitter free and the FIFO empty (R208). -/
def State.sendReport (s : State) : State :=
  match s.link.tx, s.link.fifo, s.link.reports with
  | .free, [], x :: rest =>
    (s.updLink fun l => { l with reports := rest, tx := .report (s.reportOf x) }).reported x
  | _, _, _ => s

end Sys2Proof.Machine
end

