-- ==== Sys2Proof/Machine/LayoutCommands.lean ====
section
/-! DEFINITION. The requests of the control link on the layout in service, its feeds, trains, points, routes, turntable,
shows, cues, text and QUERY: one meaning per row. -/

namespace Sys2Proof.Machine

/-- ISOLATE_FEED (R41). -/
def execIsolateFeed (dt : Nat) (tag : Byte) (body : Body IsolateReq) (s : State) : Host.Outcome State Fault Refusal :=
  s.request dt tag body takeIsolateFeed

/-- RESTORE_FEED (R42). -/
def execRestoreFeed (dt : Nat) (tag : Byte) (body : Body Nat) (s : State) : Host.Outcome State Fault Refusal :=
  s.request dt tag body takeRestoreFeed

/-- PLACE_TRAIN (R61). -/
def execPlaceTrain (dt : Nat) (tag : Byte) (body : Body PlaceReq) (s : State) : Host.Outcome State Fault Refusal :=
  s.request dt tag body takePlaceTrain

/-- REMOVE_TRAIN (R62). -/
def execRemoveTrain (dt : Nat) (tag : Byte) (body : Body Nat) (s : State) : Host.Outcome State Fault Refusal :=
  s.request dt tag body takeRemoveTrain

/-- THROW_POINT (R79). -/
def execThrowPoint (dt : Nat) (tag : Byte) (body : Body ThrowReq) (s : State) : Host.Outcome State Fault Refusal :=
  s.request dt tag body takeThrowPoint

/-- REQUEST_ROUTE from the host (R87). -/
def execRequestRoute (dt : Nat) (tag : Byte) (body : Body Nat) (s : State) : Host.Outcome State Fault Refusal :=
  s.request dt tag body takeRequestRoute

/-- CANCEL_ROUTE (R101). -/
def execCancelRoute (dt : Nat) (tag : Byte) (body : Body Nat) (s : State) : Host.Outcome State Fault Refusal :=
  s.request dt tag body takeCancelRoute

/-- FORCE_RELEASE (R103). -/
def execForceRelease (dt : Nat) (tag : Byte) (body : Body Nat) (s : State) : Host.Outcome State Fault Refusal :=
  s.request dt tag body takeForceRelease

/-- TURN from the host (R143, R144). -/
def execTurn (dt : Nat) (tag : Byte) (body : Body TurnReq) (s : State) : Host.Outcome State Fault Refusal :=
  s.request dt tag body takeTurn

/-- HOME (R157). -/
def execHome (dt : Nat) (tag : Byte) (body : Body Unit) (s : State) : Host.Outcome State Fault Refusal :=
  s.request dt tag body takeHome

/-- STOP_TURNTABLE (R159). -/
def execStopTurntable (dt : Nat) (tag : Byte) (body : Body Unit) (s : State) : Host.Outcome State Fault Refusal :=
  s.request dt tag body takeStopTurntable

/-- START_SHOW from the host (R189). -/
def execStartShow (dt : Nat) (tag : Byte) (body : Body Nat) (s : State) : Host.Outcome State Fault Refusal :=
  s.request dt tag body takeStartShow

/-- STOP_SHOW (R190). -/
def execStopShow (dt : Nat) (tag : Byte) (body : Body Nat) (s : State) : Host.Outcome State Fault Refusal :=
  s.request dt tag body takeStopShow

/-- SET_CUE (R196). -/
def execSetCue (dt : Nat) (tag : Byte) (body : Body Nat) (s : State) : Host.Outcome State Fault Refusal :=
  s.request dt tag body takeSetCue

/-- CLEAR_CUE (R196). -/
def execClearCue (dt : Nat) (tag : Byte) (body : Body Nat) (s : State) : Host.Outcome State Fault Refusal :=
  s.request dt tag body takeClearCue

/-- SET_TEXT (R185); more than 20 codes make the payload too long (R204). -/
def execSetText (dt : Nat) (tag : Byte) (body : Body (List Byte)) (s : State) : Host.Outcome State Fault Refusal :=
  s.request dt tag (limitCodes id body) takeSetText

/-- QUERY (R209). -/
def execQuery (dt : Nat) (tag : Byte) (body : Body QueryReq) (s : State) : Host.Outcome State Fault Refusal :=
  s.request dt tag body takeQuery

end Sys2Proof.Machine
end

