-- ==== Sys2Proof/Machine/LinkCommands.lean ====
section
/-! DEFINITION. The commands of the control link below the requests (chapter 11): bytes, failed frames, the transmitter and
reports. -/

namespace Sys2Proof.Machine

/-- UNKNOWN_KIND: a complete frame of a kind not in the request table (R204). -/
def execUnknownKind (dt : Nat) (tag _kind : Byte) (s : State) : Host.Outcome State Fault Refusal :=
  .next ((s.advance dt).frameTaken.examineUnknown tag)

/-- BAD_CHECK_FRAME: the frame is discarded (R202). -/
def execBadCheckFrame (dt : Nat) (s : State) : Host.Outcome State Fault Refusal := .next (s.advance dt).abandonFrame

/-- FRAMING_ERROR: a frame in progress is abandoned, and in HUNT the byte is discarded (R202). -/
def execFramingError (dt : Nat) (s : State) : Host.Outcome State Fault Refusal := .next (s.advance dt).abandonFrame

/-- FRAME_GAP_TIMEOUT: more than 20 ms have passed since the last byte of a frame in progress (R202). -/
def execFrameGapTimeout (dt : Nat) (s : State) : Host.Outcome State Fault Refusal :=
  let s := s.advance dt
  .next (match s.link.rx.lastAt with
    | some t => (s.advanceTo (t + Config.frameGapUs)).abandonFrame
    | none => s)

/-- FRAME_SENT (R206). -/
def execFrameSent (dt : Nat) (s : State) : Host.Outcome State Fault Refusal :=
  .next ((s.advance dt).updLink LinkPort.sent)

/-- SEND_REPORT (R208). -/
def execSendReport (dt : Nat) (s : State) : Host.Outcome State Fault Refusal := .next (s.advance dt).sendReport

/-- RECEIVED_BYTE (R202). -/
def execReceivedByte (dt : Nat) (b : Byte) (s : State) : Host.Outcome State Fault Refusal :=
  .next ((s.advance dt).takeByte b)

end Sys2Proof.Machine
end

