-- ==== Sys2Proof/Machine/ModeCommands.lean ====
section
/-! DEFINITION. The commands that change the mode, power-on and RESET: one meaning per row. -/

namespace Sys2Proof.Machine

/-- POWER_ON (R1). -/
def execPowerOn (dt : Nat) (s : State) : Host.Outcome State Fault Refusal := .next (s.advance dt).powerOn

/-- START_RUN (R15, R20). -/
def execStartRun (dt : Nat) (tag : Byte) (body : Body Unit) (s : State) : Host.Outcome State Fault Refusal :=
  s.request dt tag body takeStartRun

/-- STOP_RUN (R23, R210). -/
def execStopRun (dt : Nat) (tag : Byte) (body : Body Unit) (s : State) : Host.Outcome State Fault Refusal :=
  s.request dt tag body takeStopRun

/-- HALT_LAYOUT (R21). -/
def execHaltLayout (dt : Nat) (tag : Byte) (body : Body Unit) (s : State) : Host.Outcome State Fault Refusal :=
  s.request dt tag body takeHalt

/-- RESUME (R22). -/
def execResume (dt : Nat) (tag : Byte) (body : Body Unit) (s : State) : Host.Outcome State Fault Refusal :=
  s.request dt tag body takeResume

/-- RESET (R24, R210). -/
def execReset (dt : Nat) (tag : Byte) (body : Body Unit) (s : State) : Host.Outcome State Fault Refusal :=
  s.request dt tag body takeReset

/-- RESET_TAKES_EFFECT (R24, R210): it means that the ACK's last byte has been sent (log entry 13). -/
def execResetTakesEffect (dt : Nat) (s : State) : Host.Outcome State Fault Refusal :=
  let s := s.advance dt
  .next (if s.link.resetting then s.afterReset else s)

end Sys2Proof.Machine
end

