-- ==== Sys2Proof/Machine/PointCommands.lean ====
section
/-! DEFINITION. The commands of the drive groups' timers (chapter 4). -/

namespace Sys2Proof.Machine

/-- SETUP_END (R71). -/
def execSetupEnd (dt : Nat) (g : Fin 8) (s : State) : Host.Outcome State Fault Refusal :=
  let s := s.advance dt
  let x := tget s.groups g
  .next (match x.phase, x.phaseTimer with
    | .setup, some e => ((s.advanceTo e).enterPulse g).settle
    | _, _ => s)

/-- PULSE_TIME_END (R71 to R73). -/
def execPulseTimeEnd (dt : Nat) (g : Fin 8) (s : State) : Host.Outcome State Fault Refusal :=
  let s := s.advance dt
  let x := tget s.groups g
  .next (match x.phase, x.phaseTimer with
    | .pulse, some e => ((s.advanceTo e).pulseTimeOver g).settle
    | _, _ => s)

/-- The feedback window of a HOLD pulse runs out (R72): after the end of the pulse time it ends the pulse. -/
def State.windowOver (s : State) (g : Fin 8) : State :=
  let s := s.updGroup g fun x => { x with windowTimer := none }
  if (tget s.groups g).phaseTimer = none then s.endPulse g .failed else s

/-- FEEDBACK_WINDOW_END (R72). -/
def execFeedbackWindowEnd (dt : Nat) (g : Fin 8) (s : State) : Host.Outcome State Fault Refusal :=
  let s := s.advance dt
  let x := tget s.groups g
  .next (match x.phase, x.windowTimer with
    | .pulse, some e => ((s.advanceTo e).windowOver g).settle
    | _, _ => s)

/-- The confirm wait runs out (R73, R74). -/
def State.confirmOver (s : State) (g : Fin 8) : State :=
  ((s.updGroup g fun x => { x with windowTimer := none }).decideMove g .failed).testRecovery g

/-- CONFIRM_WAIT_END (R73). -/
def execConfirmWaitEnd (dt : Nat) (g : Fin 8) (s : State) : Host.Outcome State Fault Refusal :=
  let s := s.advance dt
  let x := tget s.groups g
  .next (match x.phase, x.windowTimer with
    | .recovery, some e => ((s.advanceTo e).confirmOver g).settle
    | _, _ => s)

/-- RECOVERY_END (R74). -/
def execRecoveryEnd (dt : Nat) (g : Fin 8) (s : State) : Host.Outcome State Fault Refusal :=
  let s := s.advance dt
  let x := tget s.groups g
  .next (match x.phase, x.phaseTimer with
    | .recovery, some e =>
      (((s.advanceTo e).updGroup g fun x => { x with phaseTimer := none }).testRecovery g).settle
    | _, _ => s)

end Sys2Proof.Machine
end

