-- ==== Sys2Proof/Machine/RouteCommands.lean ====
section
/-! DEFINITION. The commands of the Route Interlock's and the Aspect Unit's timers (chapters 5 and 6). -/

namespace Sys2Proof.Machine

/-- STACK_TIMEOUT_EXPIRY (R87). -/
def execStackTimeoutExpiry (dt : Nat) (r : Fin 64) (s : State) : Host.Outcome State Fault Refusal :=
  let s := s.advance dt
  .next (match s.stackExpiry r with
    | some e => ((s.advanceTo e).dropQueued r .expired).settle
    | none => s)

/-- OVERLAP_TIMER_EXPIRY (R99). -/
def execOverlapTimerExpiry (dt : Nat) (r : Fin 64) (s : State) : Host.Outcome State Fault Refusal :=
  let s := s.advance dt
  .next (match tget s.routes r, s.routeDef r with
    | .entered _ (.running e) _, some d => ((s.advanceTo e).overlapExpires r d).settle
    | _, _ => s)

/-- APPROACH_LOCK_EXPIRY (R102). -/
def execApproachLockExpiry (dt : Nat) (r : Fin 64) (s : State) : Host.Outcome State Fault Refusal :=
  let s := s.advance dt
  .next (match tget s.routes r with
    | .cancelling e _ => ((s.advanceTo e).freeHolding r .cancelled).settle
    | _ => s)

/-- APPROACH_TIMER_EXPIRY (R118). -/
def execApproachTimerExpiry (dt : Nat) (g : Fin 32) (s : State) : Host.Outcome State Fault Refusal :=
  let s := s.advance dt
  .next (match (tget s.signals g).timer with
    | some e => ((s.advanceTo e).releaseApproach g).settle
    | none => s)

end Sys2Proof.Machine
end

