-- ==== Sys2Proof/Machine/Detection.lean ====
section
/-! DEFINITION. The Detection Unit (chapter 2): sense records, samples, staleness, and what an occupancy change hands on. -/

namespace Sys2Proof.Machine

/-! ## Sense records (R25, R26) -/

/-- The check field of a record: the XOR of its four nibbles of kind, index and value (R25). -/
def recordCheck (contact : Bool) (index : BitVec 7) (value : Byte) : BitVec 4 :=
  let w : BitVec 16 := BitVec.ofBool contact ++ index ++ value
  w.extractLsb' 12 4 ^^^ w.extractLsb' 8 4 ^^^ w.extractLsb' 4 4 ^^^ w.extractLsb' 0 4

/-- The block and entry of a good sample (R25, R26): none where the record is discarded or ignored. -/
def State.goodSample (s : State) (index : BitVec 7) (value : Byte) (check : BitVec 4) : Option (Fin 48 × BlockDef) :=
  if recordCheck false index value ≠ check ∨ s.mode = .config then none
  else
    match index? 48 index.toNat with
    | some b => (s.blockDef b).map fun d => (b, d)
    | none => none

/-- The point and entry of a good reading (R25, R26). -/
def State.goodReading (s : State) (index : BitVec 7) (value : Byte) (check : BitVec 4) : Option (Fin 64 × PointDef) :=
  if recordCheck true index value ≠ check ∨ s.mode = .config then none
  else
    match index? 64 index.toNat with
    | some p => (s.pointDef p).map fun d => (p, d)
    | none => none

/-! ## Samples (R28 to R32) -/

/-- The release level of a block (R31). -/
def BlockDef.releaseLevel (d : BlockDef) : Nat := max 1 (d.threshold - d.hysteresis)

/-- A channel after an ordinary sample, not held (R30, R31). -/
def Channel.ordinary (c : Channel) (d : BlockDef) (level : Nat) : Channel :=
  if c.occupied then
    if level < d.releaseLevel then
      if d.dwellOff ≤ c.count + 1 then { c with occupied := false, count := 0 } else { c with count := c.count + 1 }
    else { c with count := 0 }
  else if d.threshold ≤ level then
    if d.dwellOn ≤ c.count + 1 then { c with occupied := true, count := 0 } else { c with count := c.count + 1 }
  else { c with count := 0 }

/-- A channel after a good sample's effect on staleness: stale is cleared, with count 0, and the timer restarts (R32). -/
def Channel.fresh (c : Channel) (expiry : Nat) : Channel :=
  { c with stale := false, count := if c.stale then 0 else c.count, timer := some expiry }

/-- A channel after a good sample, for the state of its feed (R28 to R32). -/
def Channel.sample (c : Channel) (d : BlockDef) (feed : FeedState) (level expiry : Nat) : Channel :=
  let c := c.fresh expiry
  if level = 255 ∧ feed = .on then { c with occupied := true, count := 0 }
  else if c.held then c
  else c.ordinary d level

/-! ## What a change of occupancy hands on (R33) -/

/-- A change of occupancy of block `b` is taken by the Train Register, the Route Interlock, the Aspect Unit's approach
timers and the cues, `old` being the state before the change (R33, R47, R96, R97, R118, R196). -/
def State.occupancyChanged (old : State) (b : Fin 48) (s : State) : State :=
  let touched := old.touched b
  if s.occupied b then
    let s := State.handClear old touched (s.registerOccupied b)
    ((s.routesTakeOccupied b).approachTakes b).setCuesFor (.blockOccupied b)
  else
    let s := State.handClear old touched (s.registerCleared b)
    (s.approachTakes b).setCuesFor (.blockCleared b)

/-- A good sample is taken (R28 to R33), and the panel follows a change of occupancy (R184). Overload is raised to the feed before
the change of occupancy is handed on. -/
def State.takeSample (s : State) (b : Fin 48) (d : BlockDef) (level : Nat) : State :=
  let old := s
  let c := tget s.channels b
  let c' := c.sample d (tget s.feeds b).state level (s.after Config.staleMs)
  let s := s.updChannel b fun _ => c'
  let s := if c'.occupied = c.occupied then s else s.settlePanel
  let s := if c'.occupied ≠ c.occupied ∨ c'.stale ≠ c.stale then s.mark (.block b) else s
  let s := if level = 255 then s.takeOverload b d.kill else s
  if c'.occupied = c.occupied then s else State.occupancyChanged old b s

/-- A channel becomes stale (R32). -/
def State.channelGoesStale (s : State) (b : Fin 48) : State :=
  let c := tget s.channels b
  let s := s.updChannel b fun c => { c with stale := true, count := 0, timer := none }
  if c.stale then s else s.mark (.block b)

end Sys2Proof.Machine
end

