-- ==== Sys2Proof/Machine/SenseCommands.lean ====
section
/-! DEFINITION. The commands of the sense port and of the Detection Unit's and the Feed Switch's timers (chapter 2). -/

namespace Sys2Proof.Machine

/-- LEVEL_SAMPLE (R25 to R33). -/
def execLevelSample (dt : Nat) (index : BitVec 7) (value : Byte) (check : BitVec 4) (s : State) :
    Host.Outcome State Fault Refusal :=
  let s := s.advance dt
  .next (match s.goodSample index value check with
    | some (b, d) => (s.takeSample b d value.toNat).settle
    | none => s)

/-- CONTACT_READING (R25, R26, R34, R66). -/
def execContactReading (dt : Nat) (index : BitVec 7) (value : Byte) (check : BitVec 4) (s : State) :
    Host.Outcome State Fault Refusal :=
  let s := s.advance dt
  .next (match s.goodReading index value check with
    | some (p, d) => (s.contactArrives p d (readContact value)).settle
    | none => s)

/-- CHANNEL_STALE (R32). -/
def execChannelStale (dt : Nat) (b : Fin 48) (s : State) : Host.Outcome State Fault Refusal :=
  let s := s.advance dt
  .next (match (tget s.channels b).timer with
    | some e => (s.advanceTo e).channelGoesStale b
    | none => s)

/-- CONTACT_STALE (R34). -/
def execContactStale (dt : Nat) (p : Fin 64) (s : State) : Host.Outcome State Fault Refusal :=
  let s := s.advance dt
  .next (match (tget s.contacts p).timer with
    | some e => ((s.advanceTo e).contactGoesStale p).settle
    | none => s)

/-- FEED_COOL_EXPIRY (R40). -/
def execFeedCoolExpiry (dt : Nat) (b : Fin 48) (s : State) : Host.Outcome State Fault Refusal :=
  let s := s.advance dt
  let f := tget s.feeds b
  .next (match f.state, f.cool with
    | .cooling, some e =>
      (((s.advanceTo e).updFeed b fun f => { f with cool := none }).feedSettle b).settlePanel
    | _, _ => s)

/-- RESTART_DUE (R43). -/
def execRestartDue (dt : Nat) (b : Fin 48) (s : State) : Host.Outcome State Fault Refusal :=
  let s := s.advance dt
  .next (match (tget s.feeds b).restart with
    | some e => ((s.advanceTo e).updFeed b fun f => { f with restart := none }).feedFollow b
    | none => s)

end Sys2Proof.Machine
end

