-- ==== Sys2Proof/Machine/ShowCommands.lean ====
section
/-! DEFINITION. The commands of the text display's and the Show Sequencer's timers (chapters 9 and 10). -/

namespace Sys2Proof.Machine

/-- SPEED_HOLD_EXPIRY (R186). -/
def execSpeedHoldExpiry (dt : Nat) (s : State) : Host.Outcome State Fault Refusal :=
  let s := s.advance dt
  .next (match s.text.hold with
    | some e =>
      let s := s.advanceTo e
      ({ s with text := { s.text with line2 := blankText, hold := none } }).settlePanel
    | none => s)

/-- WAIT_TIMER_EXPIRY (R192): a PAUSE completes, and any other waiting step aborts the run. -/
def execWaitTimerExpiry (dt : Nat) (i : Fin 8) (s : State) : Host.Outcome State Fault Refusal :=
  let s := s.advance dt
  .next (match (tget s.shows i).state with
    | .running r =>
      match r.timer with
      | some e =>
        let s := s.advanceTo e
        (if r.wait = .pause then s.meetWait i else s.noteAbort i .timeout).settle
      | none => s
    | _ => s)

/-- HOLD_OFF_EXPIRY (R197). -/
def execHoldOffExpiry (dt : Nat) (k : Fin 64) (s : State) : Host.Outcome State Fault Refusal :=
  let s := s.advance dt
  .next (match (tget s.keys k).holdOff with
    | some e =>
      (((s.advanceTo e).updKey k fun x => { x with holdOff := none }).mark (.key k)).settlePanel
    | none => s)

end Sys2Proof.Machine
end

