-- ==== Sys2Proof/Machine/TableCommands.lean ====
section
/-! DEFINITION. The commands of chapter 1 that load the tables, the parameters and the captions: one meaning per row. -/

namespace Sys2Proof.Machine

/-- DEFINE_BLOCK (R2, R4). -/
def execDefineBlock (dt : Nat) (tag : Byte) (body : Body DefBlock) (s : State) : Host.Outcome State Fault Refusal :=
  s.request dt tag body takeDefineBlock

/-- DEFINE_POINT (R2, R5). -/
def execDefinePoint (dt : Nat) (tag : Byte) (body : Body DefPoint) (s : State) : Host.Outcome State Fault Refusal :=
  s.request dt tag body takeDefinePoint

/-- DEFINE_GROUP (R2, R5). -/
def execDefineGroup (dt : Nat) (tag : Byte) (body : Body DefGroup) (s : State) : Host.Outcome State Fault Refusal :=
  s.request dt tag body takeDefineGroup

/-- DEFINE_SIGNAL (R2, R6). -/
def execDefineSignal (dt : Nat) (tag : Byte) (body : Body DefSignal) (s : State) : Host.Outcome State Fault Refusal :=
  s.request dt tag body takeDefineSignal

/-- DEFINE_ROUTE (R2, R7). -/
def execDefineRoute (dt : Nat) (tag : Byte) (body : Body DefRoute) (s : State) : Host.Outcome State Fault Refusal :=
  s.request dt tag body takeDefineRoute

/-- DEFINE_TURNTABLE (R2, R8). -/
def execDefineTurntable (dt : Nat) (tag : Byte) (body : Body DefTurntable) (s : State) : Host.Outcome State Fault Refusal :=
  s.request dt tag body takeDefineTurntable

/-- DEFINE_ROAD (R2, R8). -/
def execDefineRoad (dt : Nat) (tag : Byte) (body : Body DefRoad) (s : State) : Host.Outcome State Fault Refusal :=
  s.request dt tag body takeDefineRoad

/-- DEFINE_TRAP (R2, R9). -/
def execDefineTrap (dt : Nat) (tag : Byte) (body : Body DefTrap) (s : State) : Host.Outcome State Fault Refusal :=
  s.request dt tag body takeDefineTrap

/-- DEFINE_MODULE (R2, R9). -/
def execDefineModule (dt : Nat) (tag : Byte) (body : Body DefModule) (s : State) : Host.Outcome State Fault Refusal :=
  s.request dt tag body takeDefineModule

/-- DEFINE_KEY (R2, R10). -/
def execDefineKey (dt : Nat) (tag : Byte) (body : Body DefKey) (s : State) : Host.Outcome State Fault Refusal :=
  s.request dt tag body takeDefineKey

/-- DEFINE_LED (R2, R10). -/
def execDefineLed (dt : Nat) (tag : Byte) (body : Body DefLed) (s : State) : Host.Outcome State Fault Refusal :=
  s.request dt tag body takeDefineLed

/-- DEFINE_CUE (R2, R10). -/
def execDefineCue (dt : Nat) (tag : Byte) (body : Body DefCue) (s : State) : Host.Outcome State Fault Refusal :=
  s.request dt tag body takeDefineCue

/-- DEFINE_STEP (R11). -/
def execDefineStep (dt : Nat) (tag : Byte) (body : Body DefStep) (s : State) : Host.Outcome State Fault Refusal :=
  s.request dt tag body takeDefineStep

/-- ERASE (R3). -/
def execErase (dt : Nat) (tag : Byte) (body : Body EraseReq) (s : State) : Host.Outcome State Fault Refusal :=
  s.request dt tag body takeErase

/-- SET_PARAM (R13, R14). -/
def execSetParam (dt : Nat) (tag : Byte) (body : Body ParamReq) (s : State) : Host.Outcome State Fault Refusal :=
  s.request dt tag body takeSetParam

/-- SET_CAPTION (R12); more than 20 codes make the payload too long (R204). -/
def execSetCaption (dt : Nat) (tag : Byte) (body : Body CaptionReq) (s : State) : Host.Outcome State Fault Refusal :=
  s.request dt tag (limitCodes CaptionReq.codes body) takeSetCaption

end Sys2Proof.Machine
end

