-- ==== Sys2Proof/Machine/Dispatch.lean ====
section
/-! DEFINITION. The effect of every command on everything but the queue of waiting commands: one arm per command. -/

namespace Sys2Proof.Machine

def exec (i : Instr) (s : State) : Host.Outcome State Fault Refusal :=
  match i with
  | .powerOn dt => Sys2Proof.Machine.execPowerOn dt s
  | .defineBlock dt tag body => Sys2Proof.Machine.execDefineBlock dt tag body s
  | .definePoint dt tag body => Sys2Proof.Machine.execDefinePoint dt tag body s
  | .defineGroup dt tag body => Sys2Proof.Machine.execDefineGroup dt tag body s
  | .defineSignal dt tag body => Sys2Proof.Machine.execDefineSignal dt tag body s
  | .defineRoute dt tag body => Sys2Proof.Machine.execDefineRoute dt tag body s
  | .defineTurntable dt tag body => Sys2Proof.Machine.execDefineTurntable dt tag body s
  | .defineRoad dt tag body => Sys2Proof.Machine.execDefineRoad dt tag body s
  | .defineTrap dt tag body => Sys2Proof.Machine.execDefineTrap dt tag body s
  | .defineModule dt tag body => Sys2Proof.Machine.execDefineModule dt tag body s
  | .defineKey dt tag body => Sys2Proof.Machine.execDefineKey dt tag body s
  | .defineLed dt tag body => Sys2Proof.Machine.execDefineLed dt tag body s
  | .defineCue dt tag body => Sys2Proof.Machine.execDefineCue dt tag body s
  | .defineStep dt tag body => Sys2Proof.Machine.execDefineStep dt tag body s
  | .erase dt tag body => Sys2Proof.Machine.execErase dt tag body s
  | .setParam dt tag body => Sys2Proof.Machine.execSetParam dt tag body s
  | .setCaption dt tag body => Sys2Proof.Machine.execSetCaption dt tag body s
  | .startRun dt tag body => Sys2Proof.Machine.execStartRun dt tag body s
  | .stopRun dt tag body => Sys2Proof.Machine.execStopRun dt tag body s
  | .haltLayout dt tag body => Sys2Proof.Machine.execHaltLayout dt tag body s
  | .resume dt tag body => Sys2Proof.Machine.execResume dt tag body s
  | .reset dt tag body => Sys2Proof.Machine.execReset dt tag body s
  | .resetTakesEffect dt => Sys2Proof.Machine.execResetTakesEffect dt s
  | .isolateFeed dt tag body => Sys2Proof.Machine.execIsolateFeed dt tag body s
  | .restoreFeed dt tag body => Sys2Proof.Machine.execRestoreFeed dt tag body s
  | .placeTrain dt tag body => Sys2Proof.Machine.execPlaceTrain dt tag body s
  | .removeTrain dt tag body => Sys2Proof.Machine.execRemoveTrain dt tag body s
  | .throwPoint dt tag body => Sys2Proof.Machine.execThrowPoint dt tag body s
  | .requestRoute dt tag body => Sys2Proof.Machine.execRequestRoute dt tag body s
  | .cancelRoute dt tag body => Sys2Proof.Machine.execCancelRoute dt tag body s
  | .forceRelease dt tag body => Sys2Proof.Machine.execForceRelease dt tag body s
  | .turn dt tag body => Sys2Proof.Machine.execTurn dt tag body s
  | .home dt tag body => Sys2Proof.Machine.execHome dt tag body s
  | .stopTurntable dt tag body => Sys2Proof.Machine.execStopTurntable dt tag body s
  | .startShow dt tag body => Sys2Proof.Machine.execStartShow dt tag body s
  | .stopShow dt tag body => Sys2Proof.Machine.execStopShow dt tag body s
  | .setCue dt tag body => Sys2Proof.Machine.execSetCue dt tag body s
  | .clearCue dt tag body => Sys2Proof.Machine.execClearCue dt tag body s
  | .setText dt tag body => Sys2Proof.Machine.execSetText dt tag body s
  | .query dt tag body => Sys2Proof.Machine.execQuery dt tag body s
  | .unknownKind dt tag kind => Sys2Proof.Machine.execUnknownKind dt tag kind s
  | .badCheckFrame dt => Sys2Proof.Machine.execBadCheckFrame dt s
  | .framingError dt => Sys2Proof.Machine.execFramingError dt s
  | .frameGapTimeout dt => Sys2Proof.Machine.execFrameGapTimeout dt s
  | .frameSent dt => Sys2Proof.Machine.execFrameSent dt s
  | .sendReport dt => Sys2Proof.Machine.execSendReport dt s
  | .levelSample dt index value check => Sys2Proof.Machine.execLevelSample dt index value check s
  | .contactReading dt index value check => Sys2Proof.Machine.execContactReading dt index value check s
  | .channelStale dt b => Sys2Proof.Machine.execChannelStale dt b s
  | .contactStale dt p => Sys2Proof.Machine.execContactStale dt p s
  | .feedCoolExpiry dt b => Sys2Proof.Machine.execFeedCoolExpiry dt b s
  | .restartDue dt b => Sys2Proof.Machine.execRestartDue dt b s
  | .setupEnd dt g => Sys2Proof.Machine.execSetupEnd dt g s
  | .pulseTimeEnd dt g => Sys2Proof.Machine.execPulseTimeEnd dt g s
  | .feedbackWindowEnd dt g => Sys2Proof.Machine.execFeedbackWindowEnd dt g s
  | .confirmWaitEnd dt g => Sys2Proof.Machine.execConfirmWaitEnd dt g s
  | .recoveryEnd dt g => Sys2Proof.Machine.execRecoveryEnd dt g s
  | .stackTimeoutExpiry dt r => Sys2Proof.Machine.execStackTimeoutExpiry dt r s
  | .overlapTimerExpiry dt r => Sys2Proof.Machine.execOverlapTimerExpiry dt r s
  | .approachLockExpiry dt r => Sys2Proof.Machine.execApproachLockExpiry dt r s
  | .approachTimerExpiry dt g => Sys2Proof.Machine.execApproachTimerExpiry dt g s
  | .gateEdge dt g level => Sys2Proof.Machine.execGateEdge dt g level s
  | .quietTimerExpiry dt g => Sys2Proof.Machine.execQuietTimerExpiry dt g s
  | .trapTimeout dt t => Sys2Proof.Machine.execTrapTimeout dt t s
  | .boltOutContact dt closed => Sys2Proof.Machine.execBoltOutContact dt closed s
  | .boltInContact dt closed => Sys2Proof.Machine.execBoltInContact dt closed s
  | .boltTimerExpiry dt => Sys2Proof.Machine.execBoltTimerExpiry dt s
  | .deadtimeExpiry dt => Sys2Proof.Machine.execDeadtimeExpiry dt s
  | .stepComplete dt => Sys2Proof.Machine.execStepComplete dt s
  | .reversalEnd dt => Sys2Proof.Machine.execReversalEnd dt s
  | .creepStepComplete dt => Sys2Proof.Machine.execCreepStepComplete dt s
  | .homingStepComplete dt => Sys2Proof.Machine.execHomingStepComplete dt s
  | .indexEdge dt => Sys2Proof.Machine.execIndexEdge dt s
  | .settleTimeExpiry dt => Sys2Proof.Machine.execSettleTimeExpiry dt s
  | .relayDeadtimeExpiry dt => Sys2Proof.Machine.execRelayDeadtimeExpiry dt s
  | .startTransaction dt linesHigh => Sys2Proof.Machine.execStartTransaction dt linesHigh s
  | .clockStretchTimeout dt => Sys2Proof.Machine.execClockStretchTimeout dt s
  | .busRecoveryEnd dt => Sys2Proof.Machine.execBusRecoveryEnd dt s
  | .generalCallEnd dt o => Sys2Proof.Machine.execGeneralCallEnd dt o s
  | .partWriteEnd dt o => Sys2Proof.Machine.execPartWriteEnd dt o s
  | .probeEnd dt o => Sys2Proof.Machine.execProbeEnd dt o s
  | .readBackEnd dt o => Sys2Proof.Machine.execReadBackEnd dt o s
  | .keyPollEnd dt o => Sys2Proof.Machine.execKeyPollEnd dt o s
  | .proveTimerExpiry dt m => Sys2Proof.Machine.execProveTimerExpiry dt m s
  | .pollTimerExpiry dt m => Sys2Proof.Machine.execPollTimerExpiry dt m s
  | .probeTimerExpiry dt m => Sys2Proof.Machine.execProbeTimerExpiry dt m s
  | .speedHoldExpiry dt => Sys2Proof.Machine.execSpeedHoldExpiry dt s
  | .waitTimerExpiry dt k => Sys2Proof.Machine.execWaitTimerExpiry dt k s
  | .holdOffExpiry dt k => Sys2Proof.Machine.execHoldOffExpiry dt k s
  | .receivedByte dt b => Sys2Proof.Machine.execReceivedByte dt b s

end Sys2Proof.Machine
end

