-- ==== Sys2Proof/Safety.lean ====
section
/-! DEFINITION. What a safe run is, in the terms the claims use: the states that the part can come to, what the end of an
event may and may not touch, when a request reaches its block, and the invariants that every step keeps. -/

namespace Sys2Proof.Machine

/-! ## Runs -/

/-- The states the part can come to from reset: commands are placed at the tail of the queue from outside, and taken from
its front (log entry 16). -/
inductive Reachable : State → Prop
  | reset : Reachable State.reset
  | place {s : State} (c : Instr) : Reachable s → Reachable { s with pending := s.pending ++ [c] }
  | step {s t : State} : Reachable s → step s = .next t → Reachable t

/-! ## Requests and their replies -/

/-- Where `dt` µs bring the clock. -/
def Clock.plus (c : Clock) (dt : Nat) : Clock := ⟨c.us + dt, c.base + BitVec.ofNat 32 dt⟩

/-- The clock brought to the expiry `e`, where it has not passed it (log entry 1). -/
def Clock.upTo (c : Clock) (e : Nat) : Clock := c.plus (e - c.us)

/-- A request with this tag reaches the block that owns it (R204, R210): no RESET waits to take effect, the reply FIFO has
room, and the tag is not 0. -/
abbrev State.hears (s : State) (tag : Byte) : Prop :=
  s.link.resetting = false ∧ s.link.fifo.length < 8 ∧ tag ≠ 0

/-- The part `dt` µs on, with nothing else changed. -/
def State.later (s : State) (dt : Nat) : State := { s with clock := s.clock.plus dt }

/-- A reply is queued and nothing else changed (R202, R206): the assembler is in HUNT, the reply stands at the FIFO's tail, and
a free transmitter has taken up the oldest reply. -/
def State.replied (s : State) (tag : Byte) (r : Reply) : State :=
  { s with
    link := { s.link with
      rx := .hunt, fifo := s.link.fifo ++ [⟨tag, r⟩], tx := if s.link.tx = .free then .reply else s.link.tx } }

/-- The part `dt` µs on, with the reply to a request queued and nothing else changed. -/
def State.answered (s : State) (dt : Nat) (tag : Byte) (r : Reply) : State := (s.later dt).replied tag r

/-- The part `dt` µs on, a complete frame or a frame in progress having gone without effect: the assembler is in HUNT. -/
def State.frameLost (s : State) (dt : Nat) : State := { s.later dt with link := { s.link with rx := .hunt } }

/-- The time and the tag of a request. -/
def requestOf : Instr → Option (Nat × Byte)
  | .defineBlock dt tag _ | .definePoint dt tag _ | .defineGroup dt tag _ | .defineSignal dt tag _ => some (dt, tag)
  | .defineRoute dt tag _ | .defineTurntable dt tag _ | .defineRoad dt tag _ | .defineTrap dt tag _ => some (dt, tag)
  | .defineModule dt tag _ | .defineKey dt tag _ | .defineLed dt tag _ | .defineCue dt tag _ => some (dt, tag)
  | .defineStep dt tag _ | .erase dt tag _ | .setParam dt tag _ | .setCaption dt tag _ => some (dt, tag)
  | .startRun dt tag _ | .stopRun dt tag _ | .haltLayout dt tag _ | .resume dt tag _ | .reset dt tag _ => some (dt, tag)
  | .isolateFeed dt tag _ | .restoreFeed dt tag _ | .placeTrain dt tag _ | .removeTrain dt tag _ => some (dt, tag)
  | .throwPoint dt tag _ | .requestRoute dt tag _ | .cancelRoute dt tag _ | .forceRelease dt tag _ => some (dt, tag)
  | .turn dt tag _ | .home dt tag _ | .stopTurntable dt tag _ | .startShow dt tag _ | .stopShow dt tag _ => some (dt, tag)
  | .setCue dt tag _ | .clearCue dt tag _ | .setText dt tag _ | .query dt tag _ => some (dt, tag)
  | _ => none

/-- Whether the payload of a request has another length than its kind calls for (R204): SET_CAPTION and SET_TEXT carry at most 20
character codes. -/
def lengthWrong : Instr → Bool
  | .defineBlock _ _ .wrongLength | .definePoint _ _ .wrongLength | .defineGroup _ _ .wrongLength => true
  | .defineSignal _ _ .wrongLength | .defineRoute _ _ .wrongLength | .defineTurntable _ _ .wrongLength => true
  | .defineRoad _ _ .wrongLength | .defineTrap _ _ .wrongLength | .defineModule _ _ .wrongLength => true
  | .defineKey _ _ .wrongLength | .defineLed _ _ .wrongLength | .defineCue _ _ .wrongLength => true
  | .defineStep _ _ .wrongLength | .erase _ _ .wrongLength | .setParam _ _ .wrongLength => true
  | .setCaption _ _ .wrongLength | .startRun _ _ .wrongLength | .stopRun _ _ .wrongLength => true
  | .haltLayout _ _ .wrongLength | .resume _ _ .wrongLength | .reset _ _ .wrongLength => true
  | .isolateFeed _ _ .wrongLength | .restoreFeed _ _ .wrongLength | .placeTrain _ _ .wrongLength => true
  | .removeTrain _ _ .wrongLength | .throwPoint _ _ .wrongLength | .requestRoute _ _ .wrongLength => true
  | .cancelRoute _ _ .wrongLength | .forceRelease _ _ .wrongLength | .turn _ _ .wrongLength => true
  | .home _ _ .wrongLength | .stopTurntable _ _ .wrongLength | .startShow _ _ .wrongLength => true
  | .stopShow _ _ .wrongLength | .setCue _ _ .wrongLength | .clearCue _ _ .wrongLength => true
  | .setText _ _ .wrongLength | .query _ _ .wrongLength => true
  | .setCaption _ _ (.fields d) => decide (20 < d.codes.length)
  | .setText _ _ (.fields codes) => decide (20 < codes.length)
  | _ => false

/-- `t` is the part after a request that loads the tables `x`: acknowledged, with nothing else changed but the contents of the
modules' images, which follow the tables (R2, R174). -/
def State.loads (s t : State) (dt : Nat) (tag : Byte) (x : Tables) : Prop :=
  { t with modules := s.modules } = { s.answered dt tag (.ack []) with tables := x } ∧
    ∀ m, { tget t.modules m with parts := [] } = { tget s.modules m with parts := [] }

/-- `t` is the part after a DEFINE_POINT of point `p` that loads the tables `x`: as `loads`, and POINT of `p` alone is marked, where
the entry changes its proof status (R77, R83; log entry 33). -/
def State.loadsPoint (s t : State) (dt : Nat) (tag : Byte) (p : Fin 64) (x : Tables) : Prop :=
  s.loads { t with link := { t.link with reports := s.link.reports } } dt tag x ∧
    t.link.reports =
      if ({ s with tables := x } : State).proof p = s.proof p ∨ .point p ∈ s.link.reports then s.link.reports
      else s.link.reports ++ [.point p]

/-- `t` is the part after an ERASE that leaves the tables `x`: as `loads`, and a point left undefined has its power-on record
(log entry 24), marked where that changes its lie (R83); no other subject is marked. -/
def State.erases (s t : State) (dt : Nat) (tag : Byte) (x : Tables) : Prop :=
  { t with modules := s.modules, points := s.points, link := { t.link with reports := s.link.reports } } =
      { s.answered dt tag (.ack []) with tables := x } ∧
    (∀ m, { tget t.modules m with parts := [] } = { tget s.modules m with parts := [] }) ∧
    (∀ p, tget t.points p = if (tget x.points p).isSome then tget s.points p else PointRec.initial) ∧
    (∀ y ∈ s.link.reports, y ∈ t.link.reports) ∧
    (∀ p, tget x.points p = none → (tget s.points p).lie ≠ none → .point p ∈ t.link.reports) ∧
    ∀ y ∈ t.link.reports, y ∈ s.link.reports ∨
      ∃ p, y = .point p ∧ tget x.points p = none ∧ (tget s.points p).lie ≠ none

/-- What R2 says of a DEFINE request: refused outside CONFIG, refused for an index or a field out of range, and otherwise taken,
which leaves the part as `taken` says. -/
def State.definesAs {n : Nat} {β : Type} (s : State) (c : Instr) (dt : Nat) (tag : Byte) (index : Nat) (fields : Option β)
    (taken : Fin n → β → State → Prop) : Prop :=
  (s.mode ≠ .config → exec c s = .next (s.answered dt tag (.refused .wrongMode))) ∧
  (s.mode = .config → n ≤ index ∨ fields = none → exec c s = .next (s.answered dt tag (.refused .badValue))) ∧
  ∀ (h : index < n) (x : β), s.mode = .config → fields = some x → ∃ t, exec c s = .next t ∧ taken ⟨index, h⟩ x t

/-- What R2 says of a DEFINE request that replaces one entry of the tables as a whole. -/
def State.defines {n : Nat} {β : Type} (s : State) (c : Instr) (dt : Nat) (tag : Byte) (index : Nat) (fields : Option β)
    (put : Fin n → β → Tables) : Prop :=
  s.definesAs c dt tag index fields fun i x t => s.loads t dt tag (put i x)

/-- The number of indices of a table that ERASE can name; EVERYTHING has none (R3). -/
def eraseSize : EraseTable → Nat
  | .block => 48
  | .point => 64
  | .group => 8
  | .signal => 32
  | .route => 64
  | .turntable => 1
  | .road => 24
  | .trap => 4
  | .panel => 24
  | .key => 64
  | .led => 1536
  | .cue => 16
  | .showing => 8
  | .everything => 0

/-! ## What the end of an event touches -/

/-- No run of a show waits on what another block hands on, and no note is left over from the command before. -/
abbrev State.noRun (s : State) : Prop := s.runningShow = none ∧ s.work = Work.none

/-- Nothing waits that another block's change could bring on: no route stands in the request queue and no show runs. -/
abbrev State.quiet (s : State) : Prop := s.queue = [] ∧ s.noRun

/-- Nothing waits, and no route holds elements. -/
abbrev State.still (s : State) : Prop := s.quiet ∧ ∀ r, (tget s.routes r).holds = false

/-- What the end of an event leaves as it stands while no route waits and no show is to go on: all but the displayed aspects
with their cleared-since-set flags, the feeds that follow them with their channels' held flags and counts, the report list,
the images, the pending lists and the call for an examination, which are blanked here. -/
def State.calm (s : State) : State :=
  { s with
    signals := s.signals.map fun x => { x with aspect := .dark, cleared := false }
    feeds := s.feeds.map fun x => { x with state := .off }
    channels := s.channels.map fun x => { x with held := false, count := 0 }
    modules := s.modules.map fun x => { x with parts := [] }
    bus := { s.bus with safety := [], prove := [], keys := [], mimic := [], text := [] }
    link := { s.link with reports := [] }
    work := { s.work with examine := false } }

/-- What the end of an event never touches, whatever route is taken or show goes on in it: the clock, the mode, the tables,
the parameters, the captions, occupancy and staleness, the contacts, the train records and block flags, the filters and
traps, the isolated flags, trip logs, cool timers and restarts, the failed flags, the counts of overspeeds and corrections,
the deck's position, last direction, last outcome and contacts, the bus and the modules but for their images and lists, text line 2,
the key actions and results, the Link Port but for its report list, and the queue of commands. The rest is blanked here. -/
def State.steady (s : State) : State :=
  { s with
    signals := s.signals.map fun x => { SignalRec.initial with overspeeds := x.overspeeds, lastOverspeed := x.lastOverspeed }
    feeds := s.feeds.map fun x => { x with state := .off }
    channels := s.channels.map fun x => { x with held := false, count := 0 }
    points := s.points.map fun x => { PointRec.initial with failed := x.failed }
    groups := s.groups.map fun x => { GroupRec.initial with paused := x.paused }
    routes := tfill 64 (.free .none)
    queue := []
    reservers := tfill 48 none
    deck :=
      { s.deck with state := .idle, align := none, locked := false, stepDir := .forward, bolt := .off, relay := .bothOpen }
    bus := { s.bus with safety := [], prove := [], keys := [], mimic := [], text := [] }
    modules := s.modules.map fun x => { x with parts := [] }
    text := { s.text with line1 := blankText }
    shows := tfill 8 ShowRec.initial
    showQueue := []
    cues := tfill 16 false
    keys := s.keys.map fun x => { x with holdOff := none }
    link := { s.link with reports := [] }
    work := Work.none }

/-- A command completes, and the calm part of the state is then that of `u`, with the marks made. -/
def State.comesTo (s : State) (c : Instr) (u : State) (marks : List Subject) : Prop :=
  ∃ t, exec c s = .next t ∧ t.calm = u.calm ∧ ∀ x ∈ marks, x ∈ t.link.reports

/-- A good sample of block `b` (R25). -/
def sampleOf (dt : Nat) (b : Fin 48) (value : Byte) : Instr :=
  .levelSample dt (BitVec.ofNat 7 b.val) value (recordCheck false (BitVec.ofNat 7 b.val) value)

/-- A sample changes the channel of block `b` to OCCUPIED (R28, R30, R31). -/
abbrev State.becomesOccupied (s : State) (b : Fin 48) (d : BlockDef) (value : Byte) : Prop :=
  (tget s.channels b).occupied = false ∧ (tget s.channels b).held = false ∧
    ((value = 255 ∧ (tget s.feeds b).state = .on) ∨ (d.threshold ≤ value.toNat ∧
      d.dwellOn ≤ (if (tget s.channels b).stale then 0 else (tget s.channels b).count) + 1))

/-- A sample changes the channel of block `b` to CLEAR (R30, R31). -/
abbrev State.becomesClear (s : State) (b : Fin 48) (d : BlockDef) (value : Byte) : Prop :=
  (tget s.channels b).occupied = true ∧ (tget s.channels b).held = false ∧
    value.toNat < max 1 (d.threshold - d.hysteresis) ∧ ¬ (value = 255 ∧ (tget s.feeds b).state = .on) ∧
    d.dwellOff ≤ (if (tget s.channels b).stale then 0 else (tget s.channels b).count) + 1

/-- The cue flags with every cue of a selector set (R196). -/
def State.cued (s : State) (x : Selector) : Tab Bool 16 :=
  tgen 16 fun c => if tget s.tables.cues c = x then true else tget s.cues c

/-- A value of a parameter as SET_PARAM sends it; a display trap of NONE is 65535 (R13, R205). -/
def Params.value (p : Params) : ParamName → Nat
  | .stackTimeout => p.stackTimeout
  | .approachLock => p.approachLock
  | .overlapRelease => p.overlapRelease
  | .adoptionWindow => p.adoptionWindow
  | .coolTime => p.coolTime
  | .tripWindow => p.tripWindow
  | .tripsToLatch => p.tripsToLatch
  | .restartStagger => p.restartStagger
  | .showHoldOff => p.showHoldOff
  | .keyPollPeriod => p.keyPollPeriod
  | .lampProvePeriod => p.lampProvePeriod
  | .speedHold => p.speedHold
  | .scaleDivisor => p.scaleDivisor
  | .displayTrap => (p.displayTrap.map (·.val)).getD 65535

/-- Where an expiry on the time base brings the clock: up to the stamp, where it lies ahead (R126, log entry 1). -/
def Clock.upToStamp (c : Clock) (e : Stamp) : Clock :=
  if (e - c.base).toNat < 2 ^ 31 then c.plus (e - c.base).toNat else c

/-- Route `r` has given back every element it held, for a reason, and nothing else of the routes, reservers and points has
changed (R85, R93, R102). -/
def State.freedIn (s t : State) (r : Fin 64) (d : RouteDef) (reason : FreeReason) : Prop :=
  tget t.routes r = .free reason ∧ (∀ q, q ≠ r → tget t.routes q = tget s.routes q) ∧
    (∀ b, tget t.reservers b =
      if b ∈ d.blocks ∧ tget s.reservers b = some r then none else tget s.reservers b) ∧
    (∀ p, tget t.points p =
      { tget s.points p with
        locks := (tget s.points p).locks - ((s.lockedBy r).filter fun x => x.1 == p).length }) ∧
    (tget t.signals d.entrance).control = none ∧ .route r ∈ t.link.reports

/-- Route `r`, QUEUED in `s`, has been taken (R85, R91, R92): its blocks are reserved and its points locked, its entrance signal
is under its control, every other route that holds elements still holds the same, and no route waits. -/
def State.takenIn (s t : State) (r : Fin 64) (d : RouteDef) (asked : Bool) : Prop :=
  let m : Marks := ⟨d.path.map fun _ => false, d.overlap.isEmpty⟩
  let stands : Bool := (d.turntable.map fun q => t.deck.at' q).getD true
  tget t.routes r =
    (if (d.locks.all fun y => t.provedIn y.1 y.2) = true ∧ stands = true then .isSet true false m else .setting asked m) ∧
  (∀ q, q ≠ r → (tget t.routes q).marks = (tget s.routes q).marks ∧
    ((tget s.routes q).holds = false → tget t.routes q = tget s.routes q)) ∧ t.queue = [] ∧
  (∀ b, tget t.reservers b = if b ∈ d.path ++ d.overlap then some r else tget s.reservers b) ∧
  (∀ p, (tget t.points p).locks = (tget s.points p).locks + (d.locks.filter fun y => y.1 == p).length) ∧
  (tget t.signals d.entrance).control = some r ∧ .route r ∈ t.link.reports ∧
  (∀ b ∈ d.path ++ d.overlap, .block b ∈ t.link.reports) ∧ ∀ y ∈ d.locks, .point y.1 ∈ t.link.reports

/-- ENTERED route `r`, with these flags, has released path block `k`, which is `b`, `dt` µs on (R85, R97 to R100): the block's mark is
set and its reservation by `r` is gone; of each point's locks as many are given back as there are entries for it, in the point list
with release index `k` and, with the last path block, in the flank list; the last path block starts an overlap timer that has not
started; and with the overlap released too the route is FREE. -/
def State.releasedIn (s t : State) (r : Fin 64) (d : RouteDef) (danger : Bool) (timer : OverlapTimer) (m : Marks) (k : Nat)
    (b : Fin 48) (dt : Nat) : Prop :=
  let last : Prop := k + 1 = d.path.length
  let started : OverlapTimer :=
    if last ∧ timer = .stopped ∧ d.overlap ≠ [] then .running (s.clock.us + dt + 1000000 * s.params.overlapRelease)
    else timer
  tget t.routes r =
    (if last ∧ m.overlap = true then .free .released else .entered danger started { m with path := m.path.set k true }) ∧
  (∀ a, tget t.reservers a = if a = b ∧ tget s.reservers b = some r then none else tget s.reservers a) ∧
  (∀ p, (tget t.points p).locks = (tget s.points p).locks -
    ((d.points.filter fun x => x.point == p && x.release == k).length +
      if last then (d.flank.filter fun x => x.point == p).length else 0)) ∧
  .route r ∈ t.link.reports ∧ (tget s.reservers b = some r → .block b ∈ t.link.reports) ∧
  (∀ x ∈ d.points, x.release = k → .point x.point ∈ t.link.reports) ∧
  (last → ∀ x ∈ d.flank, .point x.point ∈ t.link.reports)

/-- The run `r` of show `i` is over (R193, R197): the show's last end is recorded and its runs counted, and a run that a key
started begins that key's hold-off. -/
def State.runOver (s : State) (i : Fin 8) (r : Run) (x : ShowState) (l : LastEnd) : State :=
  { s with
    shows := tset s.shows i { state := x, last := some l, runs := (tget s.shows i).runs + 1 }
    keys := match r.origin with
      | .host => s.keys
      | .key k =>
        if s.params.showHoldOff = 0 then s.keys
        else tset s.keys k { tget s.keys k with holdOff := some (s.clock.us + 1000000 * s.params.showHoldOff) } }

/-- Show `j`, taken from the head of the queue, stands at its first step, a PAUSE (R192, R194). -/
def State.nextShow (s : State) (j : Fin 8) (o : ShowOrigin) (ms : Nat) (rest : List (Fin 8)) : State :=
  { s with
    showQueue := rest
    shows := tset s.shows j
      { tget s.shows j with state := .running ⟨o, 0, .pause, some (s.clock.us + 1000 * ms), [], false⟩ } }

/-- A poll's reading of a key, the second in a row that disagrees with its debounced state, changes that state (R182). -/
abbrev State.keyFires (s : State) (m : Fin 24) (bytes : BitVec 16) (k : Fin 16) : Prop :=
  let x := tget (tget s.modules m).keys k
  bytes.getLsbD k.val ≠ x.down ∧ x.count ≠ 0

/-- The part after a poll of module `m` that succeeds, before any key's action: the bus is free, the poll no longer due, and every
reading debounced over two polls (R178, R182). -/
def State.polled (s : State) (dt : Nat) (m : Fin 24) (bytes : BitVec 16) : State :=
  let r := tget s.modules m
  { s.later dt with
    bus := { s.bus with state := .free }
    modules := tset s.modules m { r with
      consecutive := 0, pollDue := false
      keys := tgen 16 fun k =>
        let x := tget r.keys k
        let down := bytes.getLsbD k.val
        if down = x.down then ⟨x.down, 0⟩ else if x.count = 0 then ⟨x.down, 1⟩ else ⟨down, 0⟩ } }

/-- Binding `b` names a key of a module, and no other binding does (R183). -/
abbrev State.binds (s : State) (m : Fin 24) (k : Fin 16) (b : Fin 64) (d : KeyDef) : Prop :=
  tget s.tables.keys b = some d ∧ d.panel = m ∧ d.key = k ∧
    ∀ a x, a ≠ b → tget s.tables.keys a = some x → ¬ (x.panel = m ∧ x.key = k)

/-- Every entry of a list of a train's blocks is bridged (R57). -/
def State.allBridged (s : State) (l : List TrainBlock) : Prop := ∀ x ∈ l, (tget s.blockFlags x.block).bridged = true

/-- The LOST trains that block `b`, becoming OCCUPIED `dt` µs on, may adopt, each with the end in front (R55): seen within the
adoption window, at the block itself or beside it. -/
def State.offeredTo (s : State) (dt : Nat) (b : Fin 48) : List (Fin 24 × Side) :=
  (indices 24).flatMap fun t =>
    match tget s.trains t with
    | .lost _ seen _ _ =>
      if (s.later dt).ageOf seen.time ≤ 1000 * s.params.adoptionWindow then
        (if seen.block = b then [(t, seen.front)] else []) ++ [Side.e0, .e1].flatMap fun e =>
          if (s.neighbour b e).map (·.1) = some seen.block then [(t, e.other)] else []
      else []
    | _ => []

/-- The deck after a kill (R159, R160): a move ends STOPPED, its position lost only out of a step at more than twice v_min, a
homing by whether its position was known, and a deck at rest stays as it is. -/
def State.deckKilled (s : State) : Deck :=
  let killed (kept : Bool) : Deck := { s.deck with
    state := if kept then .stopped else .unhomed, pos := if kept then s.deck.pos else none, align := none, locked := false }
  let ended (m : MoveRec) (kept : Bool) : Deck := { killed kept with lastOutcome := some (.stopped, m.origin) }
  match s.tables.turntable, s.deck.state with
  | none, _ => s.deck
  | some t, .moving m (.ramp rate _ _) => ended m (decide (rate ≤ 2 * t.vMin))
  | some _, .moving m _ => ended m true
  | some _, .unlocking m _ => ended m true
  | some _, .settling m _ => ended m true
  | some _, .locking m _ => ended m true
  | some _, .homing known _ _ => killed known
  | some _, _ => s.deck

/-- The first move of a group that was IDLE, begun at once (R69, R71): SETUP, or, with a setup time of 0, PULSE. -/
def State.groupStarts (s : State) (g : Fin 8) (x : GroupRec) (p : Fin 64) (l : Lie) (rest : List (Fin 64 × Lie)) :
    GroupRec :=
  let now := s.clock.us
  let times := tget s.tables.groups g
  if times.setup = 0 then { x with
    phase := .pulse, current := some ⟨p, l, now, some now⟩, outcome := none, queue := rest
    phaseTimer := some (now + 1000 * times.pulse)
    windowTimer := if s.feedback p = .hold then some (now + 1000 * times.window) else none }
  else { x with
    phase := .setup, current := some ⟨p, l, now, none⟩, outcome := none, queue := rest
    phaseTimer := some (now + 1000 * times.setup), windowTimer := none }

/-- The record of the point whose move its group begins (R69, R71). -/
def State.pointStarts (s : State) (g : Fin 8) (y : PointRec) : PointRec :=
  { y with
    disagree := 0, asFound := false
    lie := if (tget s.tables.groups g).setup = 0 then none else y.lie }

/-- The part as group `g`, of record `x`, begins the move of point `p` to lie `l`, with `rest` left in its queue (R69). -/
def State.moveStarts (s : State) (g : Fin 8) (x : GroupRec) (p : Fin 64) (l : Lie) (rest : List (Fin 64 × Lie)) : State :=
  { s with
    groups := tset s.groups g (s.groupStarts g x p l rest), points := tset s.points p (s.pointStarts g (tget s.points p)) }

/-- The home moves of a drive group at entry into RUN from CONFIG (R81): of its points with a home lie that the lie they carry is
not, in ascending index. -/
def State.homeMoves (s : State) (g : Fin 8) : List (Fin 64 × Lie) :=
  (indices 64).flatMap fun p =>
    match tget s.tables.points p with
    | some d =>
      if d.group ≠ g then []
      else
        match d.home with
        | .normal => if (tget s.points p).lie = some .normal then [] else [(p, .normal)]
        | .reverse => if (tget s.points p).lie = some .reverse then [] else [(p, .reverse)]
        | .asFound => []
    | none => []

/-! ## The walk to a neighbour -/

/-- A drive group is moving point `p` to lie `l`, undecided as yet (R65): `l` is the point's moving target. -/
def State.movingTo (s : State) (p : Fin 64) (l : Lie) : Prop :=
  ∃ x m, tget s.tables.points p = some x ∧ (tget s.groups x.group).current = some m ∧
    (tget s.groups x.group).outcome = none ∧ m.point = p ∧ m.target = l

/-- A link leads, past at most so many points, to a block, entered by an end (R48): each point is at rest, its lie known and its
failed flag clear, and is passed from its toe to the leg of its lie or from that leg to its toe. -/
inductive State.LinkReaches (s : State) : Nat → Link → Fin 48 → Side → Prop
  | block (n : Nat) (b : Fin 48) (y : Side) : LinkReaches s n (.blockEnd b y) b y
  | point {n : Nat} {p : Fin 64} {g out : Leg} {x : PointDef} {l : Lie} {b : Fin 48} {y : Side} :
      tget s.tables.points p = some x → (tget s.points p).lie = some l → (tget s.points p).failed = false →
      (∀ k, ¬ s.movingTo p k) → (g = .toe ∧ out = Lie.leg l) ∨ (g = Lie.leg l ∧ out = .toe) →
      LinkReaches s n (x.link out) b y → LinkReaches s (n + 1) (.pointLeg p g) b y

/-- End `e` of the deck block faces road `q` across the join (R8, R49): the deck is IDLE, aligned and locked, and `q` is the road
of the alignment at the end that it names, and the road half a revolution from that one at the other end. -/
def State.deckFaces (s : State) (e : Side) (q : Fin 24) : Prop :=
  s.deck.state = .idle ∧ s.deck.locked = true ∧ ∃ al, s.deck.align = some al ∧
    ((Side.deckEnd e = al.side ∧ q = al.road ∧ (tget s.tables.roads q).isSome = true) ∨
      (Side.deckEnd e ≠ al.side ∧ ∃ tt x z, s.tables.turntable = some tt ∧ tget s.tables.roads al.road = some x ∧
        tget s.tables.roads q = some z ∧ z.position = (x.position + tt.r / 2) % tt.r))

/-- End `e` of block `b` is the pit end of road `q`'s block (R8): END_0 where that end has no link, and otherwise END_1. -/
def State.isPitEnd (s : State) (b : Fin 48) (e : Side) (q : Fin 24) : Prop :=
  ∃ z x, tget s.tables.roads q = some z ∧ z.block = b ∧ tget s.tables.blocks b = some x ∧
    e = if x.link0 = .noLink then .e0 else .e1

/-- Across end `e` of block `b` lies block `n`, entered by end `y` (R48, R49): across the join at the ends of the deck block and at
the pit end of a road block, and elsewhere along the end's link past at most 8 points. -/
def State.beside (s : State) (b : Fin 48) (e : Side) (n : Fin 48) (y : Side) : Prop :=
  let deck : Option (Fin 48) := s.tables.turntable.map (·.deckBlock)
  (deck = some b ∧ ∃ q, s.deckFaces e q ∧ s.isPitEnd n y q) ∨
    (deck ≠ some b ∧
      ((∃ q, s.isPitEnd b e q ∧ deck = some n ∧ s.deckFaces y q) ∨
        ((∀ q, ¬ s.isPitEnd b e q) ∧ ∃ x, tget s.tables.blocks b = some x ∧ s.LinkReaches 8 (x.link e) n y)))

/-! ## The takeable test and the examination of the queue -/

/-- Block `b` is clear (R47): its channel reads CLEAR, it is in no train's list, and it is not stray. -/
def State.standsClear (s : State) (b : Fin 48) : Prop :=
  (tget s.channels b).occupied = false ∧
    (∀ t n l speed overlong, tget s.trains t = .active n l speed overlong → ∀ x ∈ l, x.block ≠ b) ∧
    (tget s.blockFlags b).stray = none

/-- Route `r` holds elements, its point list or flank list names point `p` with lie `l`, and it has not released the point (R85,
R98): a point of the point list goes with the path block of its release index, and a flank point with the last path block. -/
def State.keepsPoint (s : State) (r p : Fin 64) (l : Lie) : Prop :=
  ∃ d m, tget s.tables.routes r = some d ∧ (tget s.routes r).marks = some m ∧
    ((∃ x ∈ d.points, x.point = p ∧ x.lie = l ∧ m.path[x.release]? = some false) ∨
      ((∃ x ∈ d.flank, x.point = p ∧ x.lie = l) ∧ m.path.getLast? = some false))

/-- Point `p` has an entry in its group's move queue with target `l` (R65). -/
def State.waitsFor (s : State) (p : Fin 64) (l : Lie) : Prop :=
  ∃ x, tget s.tables.points p = some x ∧ (tget s.groups x.group).queue.find? (fun e => e.1 == p) = some (p, l)

/-- What R89 asks of point `p` for a route that requires lie `l` of it: the failed flag clear; no lock, or each by a route that
requires `l` too; no moving target but `l`; and every leg block clear where the point must change lie. -/
def State.pointAllows (s : State) (p : Fin 64) (l : Lie) : Prop :=
  (tget s.points p).failed = false ∧
    ((tget s.points p).locks = 0 ∨ ∀ q k, s.keepsPoint q p k → k = l) ∧
    (∀ k, s.movingTo p k → k = l) ∧
    ((tget s.points p).lie ≠ some l ∨ (∃ k, k ≠ l ∧ (s.movingTo p k ∨ s.waitsFor p k)) →
      ∀ x g b y, tget s.tables.points p = some x → x.link g = .blockEnd b y → s.standsClear b)

/-- The turntable condition of R90 for route `r` and the road and end `q`: the deck block has no reserver, and the deck stands so
and locked, or the drive would take a TURN, which it does in RUN from IDLE and STOPPED while no other route that holds elements
has the deck block in its path. -/
def State.deckAllows (s : State) (r : Fin 64) (q : DeckReq) : Prop :=
  ∃ tt, s.tables.turntable = some tt ∧ tget s.reservers tt.deckBlock = none ∧
    ((s.deck.state = .idle ∧ s.deck.align = some q ∧ s.deck.locked = true) ∨
      (s.mode = .run ∧ (s.deck.state = .idle ∨ s.deck.state = .stopped) ∧
        ∀ a d, a ≠ r → tget s.tables.routes a = some d → (tget s.routes a).holds = true → tt.deckBlock ∉ d.path))

/-- The deck can be brought to the road and end `q` (R147): the road and the deck's position are there to choose a move by. -/
def State.hasWayTo (s : State) (d : RouteDef) (q : DeckReq) : Prop :=
  ∃ tt road pos k, s.tables.turntable = some tt ∧ tget s.tables.roads q.road = some road ∧ tt.deckBlock ∈ d.path ∧
    s.deck.pos = some pos ∧ bestOf (tt.candidates pos road.position (DeckEnd.ask q.side)) = some k

/-- `t` comes of an examination of the queue as it stands in `u` (R88, R91). The queue keeps its order, an entry that stays keeps
its record and is not takeable now, and one that leaves is QUEUED no more; with no takeable entry the queue stands; and of the
HOST entries in queue order, and then the VISITOR entries, the first that is takeable is taken: it has left the queue for SETTING
or SET, with nothing released, and reserves its blocks. -/
def State.examined (u t : State) : Prop :=
  t.queue.Sublist u.queue ∧
    (∀ r ∈ t.queue, tget t.routes r = tget u.routes r ∧
      ∀ k since, tget u.routes r = .queued k since → t.takeable r = false) ∧
    (∀ r ∈ u.queue, r ∉ t.queue → ∀ k since, tget t.routes r ≠ .queued k since) ∧
    ((∀ r ∈ u.queue, u.takeable r = false) → t.queue = u.queue) ∧
    ∀ (before after : List (Fin 64)) (r : Fin 64) (k : RouteClass) (since : MsCount) (d : RouteDef),
      u.queue = before ++ r :: after → tget u.routes r = .queued k since → tget u.tables.routes r = some d →
      u.takeable r = true →
      (∀ q ∈ before, ∀ y, tget u.routes q = .queued k y → u.takeable q = false) →
      (k = .visitor → ∀ q ∈ u.queue, ∀ y, tget u.routes q = .queued .host y → u.takeable q = false) →
      (∀ q, d.turntable = some q → u.deck.at' q = true ∨ u.hasWayTo d q) →
      let fresh : Marks := ⟨d.path.map fun _ => false, d.overlap.isEmpty⟩
      r ∉ t.queue ∧ ((∃ asked, tget t.routes r = .setting asked fresh) ∨ ∃ x y, tget t.routes r = .isSet x y fresh) ∧
        ∀ b ∈ d.path ++ d.overlap, tget t.reservers b = some r

/-- The part as route `r` frees its elements, for a reason, before the queue is examined (R85, R93, R98). -/
def State.freeing (s : State) (r : Fin 64) (d : RouteDef) (reason : FreeReason) : State :=
  { s with
    routes := tset s.routes r (.free reason)
    reservers := tgen 48 fun b =>
      if b ∈ d.path ++ d.overlap ∧ tget s.reservers b = some r then none else tget s.reservers b
    points := tgen 64 fun p =>
      { tget s.points p with
        locks := (tget s.points p).locks - ((s.lockedBy r).filter fun x => x.1 == p).length } }

/-! ## What the part sends -/

/-- A field of a report: its width in bytes, and its value where it is present (R208). -/
abbrev ReportField := Nat × Option Nat

/-- The bytes that spell fields (R201, R208): each value most significant byte first, an absent one with 0xFF in every byte. -/
def spelled (l : List ReportField) : List Byte :=
  l.flatMap fun x => (List.range x.1).map fun k =>
    match x.2 with
    | some n => BitVec.ofNat 8 (n / 256 ^ (x.1 - 1 - k))
    | none => 0xFF

/-- A value of one byte, where it is present. -/
def byteField (n : Option Nat) : ReportField := (1, n)

/-- A flag, off 0 and on 1 (R203). -/
def flagField (b : Bool) : ReportField := (1, some (if b then 1 else 0))

/-- A choice as its place in its list (R203), where it is present. -/
def choiceField {α : Type} [BEq α] (l : List α) (x : Option α) : ReportField := (1, x.map fun a => l.idxOf a)

/-- The ms left of a timer while it runs, at most 4 294 967 294 (R208), a part of a ms dropped (log entry 28). -/
def State.timerField (s : State) (t : Timer) : ReportField :=
  (4, t.map fun e => min ((e - s.clock.us) / 1000) 4294967294)

/-- An age in ms, at most 4 294 967 294 (R208). -/
def ageField (ms : Option Nat) : ReportField := (4, ms.map fun n => min n 4294967294)

/-- The refusal reasons, in the order of their codes from 1 (R205). -/
def reasonsInOrder : List Reason :=
  [.unknownKind, .badLength, .badValue, .wrongMode, .notDefined, .tableFull, .duplicate, .busy, .locked, .occupied, .queueFull,
    .notEligible, .notHomed, .invalidLayout]

/-- The tables that INVALID_LAYOUT names, in the order of their codes from 0 (R205). -/
def checkTablesInOrder : List CheckTable :=
  [.block, .point, .signal, .route, .turntable, .road, .trap, .panel, .key, .led, .showing, .cue]

/-- The origin of a deck move: HOST, ROUTE with its index or SHOW with its index (R142; log entry 30). -/
def TurnOrigin.fields : TurnOrigin → List ReportField
  | .host => [byteField (some 0)]
  | .route r => [byteField (some 1), byteField (some r.val)]
  | .showing i => [byteField (some 2), byteField (some i.val)]

/-- A line of bytes is a frame of a kind, a tag and a payload (R201): 0x7E, the number of bytes from the kind to the end of the
payload, those bytes, and the check, with which the XOR of all after the 0x7E is 0. -/
def isFrame (line : List Byte) (kind tag : Byte) (payload : List Byte) : Prop :=
  ∃ length check : Byte, line = 0x7E :: length :: kind :: tag :: (payload ++ [check]) ∧
    length = BitVec.ofNat 8 (payload.length + 2) ∧
    (length :: kind :: tag :: (payload ++ [check])).foldr (fun x y => x ^^^ y) 0 = 0

/-! ## The checks of START_RUN -/

/-- Entry `i` of a table fails its checks (R15). -/
def Tables.fails (t : Tables) : CheckTable → Nat → Prop
  | .block, i => ∃ h : i < 48, t.blockOk ⟨i, h⟩ = false
  | .point, i => ∃ h : i < 64, t.pointOk ⟨i, h⟩ = false
  | .signal, i => ∃ h : i < 32, t.signalOk ⟨i, h⟩ = false
  | .route, i => ∃ h : i < 64, t.routeOk ⟨i, h⟩ = false
  | .turntable, i => i = 0 ∧ t.turntableOk = false
  | .road, i => ∃ h : i < 24, t.roadOk ⟨i, h⟩ = false
  | .trap, i => ∃ h : i < 4, t.trapOk ⟨i, h⟩ = false
  | .panel, i => ∃ h : i < 24, t.moduleOk ⟨i, h⟩ = false
  | .key, i => ∃ h : i < 64, t.keyOk ⟨i, h⟩ = false
  | .led, i => ∃ d, (i, d) ∈ t.leds ∧ t.ledOk (i, d) = false
  | .showing, i => ∃ h : i < 8, t.showOk ⟨i, h⟩ = false
  | .cue, i => ∃ h : i < 16, t.cueOk ⟨i, h⟩ = false

/-- The place of a table in the check order (R15). -/
def CheckTable.place : CheckTable → Nat
  | .block => 0
  | .point => 1
  | .signal => 2
  | .route => 3
  | .turntable => 4
  | .road => 5
  | .trap => 6
  | .panel => 7
  | .key => 8
  | .led => 9
  | .showing => 10
  | .cue => 11

/-- A link leads to a block, entered by an end, through points of a route's point list, each left as the route requires it to
lie (R17). -/
inductive LinkLeads (t : Tables) (d : RouteDef) : Link → List (Fin 64) → Fin 48 → Side → Prop
  | block (b : Fin 48) (y : Side) : LinkLeads t d (.blockEnd b y) [] b y
  | point {p : Fin 64} {g out : Leg} {x : PointDef} {q : PointReq} {l : List (Fin 64)} {b : Fin 48} {y : Side} :
      tget t.points p = some x → q ∈ d.points → q.point = p →
      (g = .toe ∧ out = Lie.leg q.lie) ∨ (g = Lie.leg q.lie ∧ out = .toe) →
      LinkLeads t d (x.link out) l b y → LinkLeads t d (.pointLeg p g) (p :: l) b y

/-- A walk from end `e` of block `a` reaches block `b` by end `y`, past the points `l` (R17): across the join that the route
requires at the ends of the deck block and at the pit end of a road block, and elsewhere along the end's link past at most 8
points. -/
def Tables.walks (t : Tables) (d : RouteDef) (a : Fin 48) (e : Side) (l : List (Fin 64)) (b : Fin 48) (y : Side) : Prop :=
  ∃ x, tget t.blocks a = some x ∧
    ((t.turntable.map (·.deckBlock) = some a ∧ l = [] ∧ ∃ q, d.turntable = some q ∧ t.fromDeck q e = some (b, y)) ∨
      (t.turntable.map (·.deckBlock) ≠ some a ∧
        ((∃ r q, t.pitRoad a e = some r ∧ d.turntable = some q ∧ l = [] ∧ t.toDeck q r = some (b, y)) ∨
          (t.pitRoad a e = none ∧ l.length ≤ 8 ∧ LinkLeads t d (x.link e) l b y))))

/-- Walks from end `e` of block `a` reach the blocks of a list in turn, past these points and entering them by these ends
(R17). -/
inductive WalksAlong (t : Tables) (d : RouteDef) : Fin 48 → Side → List (Fin 48) → List (Fin 64) → List Side → Prop
  | nil (a : Fin 48) (e : Side) : WalksAlong t d a e [] [] []
  | cons {a b : Fin 48} {e y : Side} {l l' : List (Fin 64)} {rest : List (Fin 48)} {ys : List Side} :
      t.walks d a e l b y → WalksAlong t d b y.other rest l' ys →
      WalksAlong t d a e (b :: rest) (l ++ l') (y :: ys)

/-! ## Invariants -/

/-- The Link Port's bounds (R206, R207): at most 8 replies, the transmitter takes a waiting reply up at once and sends one
only from the FIFO, and no subject stands twice in the report list. -/
abbrev State.linkSound (s : State) : Prop :=
  s.link.fifo.length ≤ 8 ∧ (s.link.tx = .free → s.link.fifo = []) ∧ (s.link.tx = .reply → s.link.fifo ≠ []) ∧
    s.link.reports.Nodup

/-- A module that is not served: UNKNOWN, with nothing due or pending and no timer. -/
def ModuleRec.resting (r : ModuleRec) : Prop :=
  r.state = .unknown ∧ r.consecutive = 0 ∧ r.total = 0 ∧ r.cause = none ∧ r.lastSent = none ∧
    (∀ p ∈ r.parts, p.pending = false) ∧ r.readBackDue = false ∧ r.pollDue = false ∧ r.probeDue = false ∧
    r.proveTimer = none ∧ r.pollTimer = none ∧ r.probeTimer = none ∧ r.keys = tfill 16 KeyState.up

/-- Everything that service changes stands at its values for CONFIG (R23, R27, R34, R45 to R47, R67, R82, R106, R110, R127,
R130, R164, R181, R199); the cue flags, which SET_CUE may set, aside. -/
def State.resting (s : State) : Prop :=
  s.channels = tfill 48 Channel.initial ∧ s.contacts = tfill 64 Contact.initial ∧ s.feeds = tfill 48 Feed.initial ∧
  s.trains = tfill 24 Train.free ∧ s.blockFlags = tfill 48 BlockFlags.initial ∧ s.groups = tfill 8 GroupRec.initial ∧
  (∀ p, (tget s.points p).failed = false ∧ (tget s.points p).asFound = false ∧ (tget s.points p).disagree = 0 ∧
    (tget s.points p).locks = 0) ∧
  s.routes = tfill 64 (.free .none) ∧ s.queue = [] ∧ s.reservers = tfill 48 none ∧
  s.signals = tfill 32 SignalRec.initial ∧ s.filters = tfill 8 Filter.quiet ∧ s.traps = tfill 4 TrapRec.initial ∧
  s.deck.state = .unhomed ∧ s.deck.pos = none ∧ s.deck.align = none ∧ s.deck.locked = false ∧ s.deck.bolt = .off ∧
  s.deck.relay = .bothOpen ∧ (∀ t, s.bus.state ≠ .busy t) ∧ s.bus.calls = [] ∧ s.bus.safety = [] ∧ s.bus.prove = [] ∧
  s.bus.keys = [] ∧ s.bus.mimic = [] ∧ s.bus.text = [] ∧ (∀ m, (tget s.modules m).resting) ∧
  s.text.line2 = blankText ∧ s.text.hold = none ∧ s.shows = tfill 8 ShowRec.initial ∧ s.showQueue = [] ∧
  s.keys = tfill 64 KeyRec.initial ∧ s.work = Work.none

/-- Every module's image parts hold what its images show now (R174, R184), and the modules in each pending list are, once each, those
with due work in its class (R176, R177). -/
abbrev State.panelShows (s : State) : Prop :=
  (∀ m, (tget s.modules m).parts.map (·.content) =
    match tget s.tables.modules m with
    | some d => s.partContents m d
    | none => []) ∧
  ∀ x ∈ [(BusClass.safety, s.bus.safety), (.prove, s.bus.prove), (.keys, s.bus.keys), (.mimic, s.bus.mimic),
      (.text, s.bus.text)], x.2.Nodup ∧ ∀ m, m ∈ x.2 ↔ s.due x.1 m = true

/-- On a module ONLINE in both, every part whose content has changed from `s` to `t` is pending in `t`, and so is every part that
was pending in `s`, unless its write has started between the two (R174). -/
def State.changesPend (s t : State) : Prop :=
  ∀ (m : Fin 24) (k : Nat) (p q : Part), (tget s.modules m).state = .online → (tget t.modules m).state = .online →
    (tget s.modules m).parts[k]? = some p → (tget t.modules m).parts[k]? = some q →
    q.content ≠ p.content ∨ (p.pending = true ∧ ∀ l, s.bus.state = .free → t.bus.state ≠ .busy (.write m k l)) →
    q.pending = true

/-- In CONFIG the part is at rest. -/
def State.configAtRest (s : State) : Prop := s.mode = .config → s.resting

/-- Every signal shows the aspect that R112 and R113 derive for it. -/
abbrev State.signalsShow (s : State) : Prop := ∀ g, (tget s.signals g).aspect = s.settledAspect g

/-- The block list of a slot. -/
def State.listOf (s : State) (t : Fin 24) : List (Fin 48) := (Train.blocks (tget s.trains t)).map (·.block)

/-- Whether a block is bridged (R47). -/
def State.bridged (s : State) (b : Fin 48) : Bool := (tget s.blockFlags b).bridged

/-- The train records agree with one another and with the block flags (R46, R47): an ACTIVE list has 1 to 8 entries, names
no block twice, and neither its head nor its tail is bridged; no two lists share a block and no two records a number; a stray
block is in no list and a bridged block is in one. -/
def State.trainsSound (s : State) : Prop :=
  (∀ t n l speed o, tget s.trains t = .active n l speed o →
    l ≠ [] ∧ l.length ≤ 8 ∧ (l.map (·.block)).Nodup ∧
      (∀ x, l.head? = some x → s.bridged x.block = false) ∧ (∀ x, l.getLast? = some x → s.bridged x.block = false)) ∧
  (∀ t n, Train.number (tget s.trains t) = some n → 1 ≤ n ∧ n ≤ 9999) ∧
  (∀ t u, t ≠ u → ∀ b, b ∈ s.listOf t → b ∉ s.listOf u) ∧
  (∀ t u n, Train.number (tget s.trains t) = some n → Train.number (tget s.trains u) = some n → t = u) ∧
  (∀ b, (tget s.blockFlags b).stray.isSome = true → s.holder b = none) ∧
  (∀ b, s.bridged b = true → (s.holder b).isSome = true)

/-- In RUN and HALT the tables have passed the checks of START_RUN; in CONFIG every feed is OFF; and a feed is ON only while
it is demanded ON (R15, R35, R37). -/
abbrev State.feedsSound (s : State) : Prop :=
  (s.mode ≠ .config → s.tables.firstFailure = none) ∧
  (s.mode = .config → ∀ b, (tget s.feeds b).state = .off) ∧
  ∀ b, (tget s.feeds b).state = .on → s.feedDemand b = true

/-- The LED slots stand in ascending index, none twice (R10). -/
abbrev Tables.ledsOrdered (t : Tables) : Prop := t.leds.Pairwise fun a b => a.1 < b.1

/-- Whether a show is RUNNING. -/
def State.showRuns (s : State) (i : Fin 8) : Prop := ∃ r, (tget s.shows i).state = .running r

/-- Whether a show is QUEUED. -/
def State.showQueued (s : State) (i : Fin 8) : Prop := ∃ o, (tget s.shows i).state = .queued o

/-- The Show Sequencer runs at most one show, and its queue holds at most 4 shows, none twice, each QUEUED (R188). -/
def State.showsSound (s : State) : Prop :=
  (∀ i j, s.showRuns i → s.showRuns j → i = j) ∧ s.showQueue.length ≤ 4 ∧ s.showQueue.Nodup ∧
    ∀ i, i ∈ s.showQueue ↔ s.showQueued i

/-- Whether a route is QUEUED. -/
def State.routeQueued (s : State) (r : Fin 64) : Prop := ∃ c since, tget s.routes r = .queued c since

/-- The route request queue holds at most 16 routes and at most 4 of class VISITOR, none twice, and just the routes that are
QUEUED (R86). -/
def State.queueSound (s : State) : Prop :=
  s.queue.length ≤ 16 ∧ (s.entriesOf .visitor).length ≤ 4 ∧ s.queue.Nodup ∧ ∀ r, r ∈ s.queue ↔ s.routeQueued r

/-- A block is an element that a route with these marks has not released: a path block without its mark, or an overlap block
while the overlap has none (R84). -/
def RouteDef.unreleased (d : RouteDef) (m : Marks) (b : Fin 48) : Prop :=
  (∃ k, d.path[k]? = some b ∧ m.released k = false) ∨ (b ∈ d.overlap ∧ m.overlap = false)

/-- A reserved block is an element that the route which reserves it has not released, and that route is in SETTING, SET,
ENTERED or CANCELLING; every such route has one mark for each path block (R84, R85); and in CONFIG no block is reserved and no
route holds elements (R106). -/
def State.reservationsSound (s : State) : Prop :=
  (∀ b r, tget s.reservers b = some r →
    ∃ d m, s.routeDef r = some d ∧ (tget s.routes r).marks = some m ∧ d.unreleased m b) ∧
  (∀ r m, (tget s.routes r).marks = some m → ∃ d, s.routeDef r = some d ∧ m.path.length = d.path.length) ∧
  (s.mode = .config → ∀ r, (tget s.routes r).marks = none)

/-- Every route of the tables has a path, and a point of its point list names one of its path blocks (R7). -/
def Tables.routesShaped (t : Tables) : Prop :=
  ∀ r d, tget t.routes r = some d → d.path ≠ [] ∧ ∀ x ∈ d.points, x.release < d.path.length

/-- Locks (R85): each point's lock count is the number of routes that hold it, all of which require the same lie of it; its group
is not moving it to the other lie and has no entry for that in its queue; and a queue names points of its group, none twice
(R68). -/
def State.locksSound (s : State) : Prop :=
  s.tables.routesShaped ∧
  (∀ p, ∃ l : List (Fin 64), l.Nodup ∧ (tget s.points p).locks = l.length ∧ ∀ r, r ∈ l ↔ ∃ k, s.keepsPoint r p k) ∧
  (∀ q r p k l, s.keepsPoint q p k → s.keepsPoint r p l → k = l) ∧
  (∀ r p l, s.keepsPoint r p l → ¬ s.movingTo p (Lie.other l) ∧ ∀ g, (p, Lie.other l) ∉ (tget s.groups g).queue) ∧
  ∀ g, ((tget s.groups g).queue.map (·.1)).Nodup ∧
    ∀ e ∈ (tget s.groups g).queue, (tget s.tables.points e.1).map (·.group) = some g

end Sys2Proof.Machine
end

