-- ==== Sys2Proof/Certificates/Slice0/Obligations.lean ====
section
/-! DEFINITION. The statements for the provers. Each docstring names the rules it states. -/

open Sys2Proof Sys2Proof.Machine

/-! ## The machine -/

/-- The command at the front of the queue is taken, and an empty queue idles (the idling is log entry 2's choice). -/
def Obligations.StepTakesFrontCommand : Prop :=
  (∀ (c : Instr) (rest : List Instr) (s : State), s.pending = c :: rest → step s = exec c { s with pending := rest }) ∧
    ∀ s : State, s.pending = [] → step s = .next s

/-- Every command completes in every state, leaves the waiting commands, and, but for power-on and a RESET taking effect, lets
the clock only run on (log entry 1). -/
def Obligations.EveryCommandCompletes : Prop :=
  ∀ (c : Instr) (s : State), ∃ t, exec c s = .next t ∧ t.pending = s.pending ∧
    ((∀ dt, c ≠ .powerOn dt) → (∀ dt, c ≠ .resetTakesEffect dt) → ∃ d, t.clock = s.clock.plus d)

/-- Power-on and RESET (R1, R24, R210). The bolt contacts keep their levels and the time base runs on (log entries 4, 5); a
RESET takes effect only while one waits to (log entry 13). -/
def Obligations.PowerOnAndReset : Prop :=
  (∀ (s : State) (dt : Nat), exec (.powerOn dt) s = .next { State.reset with
      deck := { Deck.initial with boltOut := s.deck.boltOut, boltIn := s.deck.boltIn }, pending := s.pending }) ∧
  (∀ (s : State) (dt : Nat) (tag : Byte), s.hears tag → exec (.reset dt tag (.fields ())) s =
      .next { s.answered dt tag (.ack []) with
        link := { (s.answered dt tag (.ack [])).link with resetting := true } }) ∧
  (∀ (s : State) (dt : Nat), s.link.resetting = true → exec (.resetTakesEffect dt) s =
      .next { State.reset with
        clock := ⟨0, s.clock.base + BitVec.ofNat 32 dt⟩
        deck := { Deck.initial with boltOut := s.deck.boltOut, boltIn := s.deck.boltIn }, pending := s.pending }) ∧
  ∀ (s : State) (dt : Nat), s.link.resetting = false → exec (.resetTakesEffect dt) s = .next (s.later dt)

/-- The part right after power-on: CONFIG, every table empty, the default parameters, blank captions, clear cues, LAYOUT alone
in the report list; and it meets every invariant that a step keeps. -/
def Obligations.PowerOnMeetsInvariants : Prop :=
  (State.reset.mode = .config ∧ State.reset.tables = Tables.empty ∧ (∀ p, tget State.reset.tables.points p = none) ∧
    (∀ g, tget State.reset.tables.groups g = ⟨20, 100, 400, 1000⟩) ∧ (∀ c, tget State.reset.tables.cues c = .none) ∧
    State.reset.params = ⟨120, 30, 15, 10, 2000, 10, 3, 100, 60, 40, 250, 30, 87, none⟩ ∧
    (∀ k i, tget (tget State.reset.captions k) i = 0x20) ∧ State.reset.link = ⟨.hunt, [], .free, [.layout], false⟩) ∧
  State.reset.linkSound ∧ State.reset.configAtRest ∧ State.reset.signalsShow ∧ State.reset.trainsSound ∧
    State.reset.feedsSound ∧ State.reset.tables.ledsOrdered ∧ State.reset.reservationsSound ∧ State.reset.locksSound ∧
    State.reset.queueSound ∧ State.reset.showsSound ∧ State.reset.panelShows

/-! ## What every step keeps -/

/-- Every step keeps the Link Port's bounds (R206, R207). -/
def Obligations.StepKeepsLinkSound : Prop := ∀ s t : State, s.linkSound → step s = .next t → t.linkSound

/-- Every step keeps the part at rest in CONFIG (R23). -/
def Obligations.StepKeepsConfigAtRest : Prop := ∀ s t : State, s.configAtRest → step s = .next t → t.configAtRest

/-- After every step every signal shows the aspect of R112 and R113 (R115); and every part of every module's images holds what the
layout's state gives it, a part whose content has changed on an ONLINE module is pending, a pending part stays so until its
write starts, and the pending lists hold just the modules with due work (R174, R176, R177, R184). -/
def Obligations.StepKeepsSignalsShow : Prop :=
  ∀ s t : State, step s = .next t →
    (s.signalsShow → t.signalsShow) ∧ (s.configAtRest → s.panelShows → t.panelShows ∧ s.changesPend t)

/-- Every step keeps the train records and block flags in agreement (R46, R47). -/
def Obligations.StepKeepsTrainsSound : Prop := ∀ s t : State, s.trainsSound → step s = .next t → t.trainsSound

/-- After every step a feed is ON only while it is demanded ON (R36, R37), and in RUN and HALT the tables have passed the checks of
START_RUN (R15); the LED slots stay in ascending index. -/
def Obligations.StepKeepsFeedsSound : Prop :=
  ∀ s t : State, step s = .next t →
    (s.feedsSound → t.feedsSound) ∧ (s.tables.ledsOrdered → t.tables.ledsOrdered)

/-- Every step keeps reservations to what routes hold and have not released (R84, R85), and keeps the locks (R85): each point's
lock count is the number of routes that hold it, all of which require the same lie, and it is not moved to the other. -/
def Obligations.StepKeepsReservationsSound : Prop :=
  (∀ s t : State, s.reservationsSound → step s = .next t → t.reservationsSound) ∧
    ∀ s t : State, s.reservationsSound → s.feedsSound → s.configAtRest → s.locksSound → step s = .next t → t.locksSound

/-- Every step keeps the bounds of the route request queue (at most 16 entries, at most 4 of visitor class, never a route twice,
every route in it QUEUED, R86), and of the show queue, with at most one show RUNNING (R188). -/
def Obligations.StepKeepsQueuesSound : Prop :=
  ∀ s t : State, step s = .next t → (s.queueSound → t.queueSound) ∧ (s.showsSound → t.showsSound)

/-! ## Requests (R204 to R206) -/

/-- A request that is refused changes nothing but the time and the reply FIFO, whichever request it is (R204, R205). -/
def Obligations.RefusalChangesNothing : Prop :=
  ∀ (c : Instr) (dt : Nat) (tag : Byte) (s t : State) (r : Reason),
    requestOf c = some (dt, tag) → s.hears tag → exec c s = .next t → t.link.fifo.getLast? = some ⟨tag, .refused r⟩ →
    t = s.answered dt tag (.refused r)

/-- The examination of a complete frame (R202, R204, R210): discarded with the FIFO full or a RESET waiting; BAD_LENGTH; a tag
of 0; UNKNOWN_KIND; and the frames that fail before they are complete. -/
def Sys2Proof.Claims.frameExamination : Prop :=
  (∀ (c : Instr) (dt : Nat) (tag : Byte) (s : State), requestOf c = some (dt, tag) →
    (s.link.resetting = true ∨ 8 ≤ s.link.fifo.length → exec c s = .next (s.frameLost dt)) ∧
    (s.link.resetting = false → s.link.fifo.length < 8 →
      (lengthWrong c = true → exec c s = .next (s.answered dt tag (.refused .badLength))) ∧
      (lengthWrong c = false → tag = 0 → exec c s = .next (s.answered dt tag (.refused .badValue))))) ∧
  (∀ (dt : Nat) (tag kind : Byte) (s : State),
    (s.link.resetting = true ∨ 8 ≤ s.link.fifo.length → exec (.unknownKind dt tag kind) s = .next (s.frameLost dt)) ∧
    (s.link.resetting = false → s.link.fifo.length < 8 →
      exec (.unknownKind dt tag kind) s = .next (s.answered dt tag (.refused .unknownKind)))) ∧
  ∀ (dt : Nat) (s : State),
    exec (.badCheckFrame dt) s = .next (s.frameLost dt) ∧ exec (.framingError dt) s = .next (s.frameLost dt) ∧
    (s.link.rx = .hunt → exec (.frameGapTimeout dt) s = .next (s.later dt)) ∧
    ∀ at', s.link.rx.lastAt = some at' → exec (.frameGapTimeout dt) s =
      .next { s.frameLost dt with clock := (s.clock.plus dt).upTo (at' + 20000) }

/-! ## Tables, parameters, captions, text (chapter 1) -/

/-- Each DEFINE request but DEFINE_STEP (R2, R4 to R10): refused outside CONFIG with WRONG_MODE, for an index or a field out of
range with BAD_VALUE, and otherwise its entry is replaced as a whole and no other; a point entry that changes the point's proof
status marks POINT (R77, R83; log entry 33). -/
def Obligations.DefineReplacesTheEntry : Prop :=
  ∀ (s : State) (dt : Nat) (tag : Byte), s.hears tag →
    (∀ d, s.defines (n := 48) (.defineBlock dt tag (.fields d)) dt tag d.index (readBlock d)
      fun i x => { s.tables with blocks := tset s.tables.blocks i (some x) }) ∧
    (∀ d, s.definesAs (n := 64) (.definePoint dt tag (.fields d)) dt tag d.index (readPoint d)
      fun i x t => s.loadsPoint t dt tag i { s.tables with points := tset s.tables.points i (some x) }) ∧
    (∀ d, s.defines (n := 8) (.defineGroup dt tag (.fields d)) dt tag d.index (readGroup d)
      fun i x => { s.tables with groups := tset s.tables.groups i x }) ∧
    (∀ d, s.defines (n := 32) (.defineSignal dt tag (.fields d)) dt tag d.index (readSignal d)
      fun i x => { s.tables with signals := tset s.tables.signals i (some x) }) ∧
    (∀ d, s.defines (n := 64) (.defineRoute dt tag (.fields d)) dt tag d.index (readRoute d)
      fun i x => { s.tables with routes := tset s.tables.routes i (some x) }) ∧
    (∀ d, s.defines (n := 1) (.defineTurntable dt tag (.fields d)) dt tag d.index (readTurntable d)
      fun _ x => { s.tables with turntable := some x }) ∧
    (∀ d, s.defines (n := 24) (.defineRoad dt tag (.fields d)) dt tag d.index (readRoad d)
      fun i x => { s.tables with roads := tset s.tables.roads i (some x) }) ∧
    (∀ d, s.defines (n := 4) (.defineTrap dt tag (.fields d)) dt tag d.index (readTrap d)
      fun i x => { s.tables with traps := tset s.tables.traps i (some x) }) ∧
    (∀ d, s.defines (n := 24) (.defineModule dt tag (.fields d)) dt tag d.index (readModule d)
      fun i x => { s.tables with modules := tset s.tables.modules i (some x) }) ∧
    (∀ d, s.defines (n := 64) (.defineKey dt tag (.fields d)) dt tag d.index (readKey d)
      fun i x => { s.tables with keys := tset s.tables.keys i (some x) }) ∧
    (∀ d, s.defines (n := 1536) (.defineLed dt tag (.fields d)) dt tag d.number (readLed d)
      fun i x => { s.tables with
        leds := s.tables.leds.filter (fun y => decide (y.1 < i.val)) ++
          (i.val, x) :: s.tables.leds.filter fun y => decide (i.val < y.1) }) ∧
    ∀ d, s.defines (n := 16) (.defineCue dt tag (.fields d)) dt tag d.index (readCue d)
      fun i x => { s.tables with cues := tset s.tables.cues i x }

/-- A field that may be left out, with this default, stands for a value (R2). -/
def Sys2Proof.Claims.sentAs {α : Type} (default : α) (field : Sent α) (x : α) : Prop :=
  (field = .omitted ∧ x = default) ∨ field = .value x

/-- A link of the tables as it is sent (R4, R5). -/
def Sys2Proof.Claims.linkSent (field : RawLink) : Link → Prop
  | .noLink => field = .noLink
  | .blockEnd b e => field = .blockEnd b.val (.value e)
  | .pointLeg p g => field = .pointLeg p.val (.value g)

/-- The fields of a block, a point, a group profile, a signal and a route (R2, R4 to R7): an entry is read just where every value
sent is the one it holds, every field left out has its default, and every value lies in its range. -/
def Sys2Proof.Claims.layoutFields : Prop :=
  (∀ d x, readBlock d = some x ↔
    (d.kind = match x.kind with
      | .plain => .value .plain
      | .stop g => .value (.stop g.val)
      | .deck => .value .deck) ∧
    Sys2Proof.Claims.linkSent d.link0 x.link0 ∧ Sys2Proof.Claims.linkSent d.link1 x.link1 ∧
    Sys2Proof.Claims.sentAs 40 d.threshold x.threshold ∧ Sys2Proof.Claims.sentAs 8 d.hysteresis x.hysteresis ∧
    Sys2Proof.Claims.sentAs 3 d.dwellOn x.dwellOn ∧ Sys2Proof.Claims.sentAs 12 d.dwellOff x.dwellOff ∧
    Sys2Proof.Claims.sentAs .auto d.kill x.kill ∧ Sys2Proof.Claims.sentAs 0 d.restartGroup x.restartGroup ∧
    1 ≤ x.threshold ∧ x.threshold ≤ 254 ∧ x.hysteresis ≤ 63 ∧ 1 ≤ x.dwellOn ∧ x.dwellOn ≤ 15 ∧ 1 ≤ x.dwellOff ∧
    x.dwellOff ≤ 63 ∧ x.restartGroup ≤ 7) ∧
  (∀ d x, readPoint d = some x ↔
    Sys2Proof.Claims.linkSent d.toe x.toe ∧ Sys2Proof.Claims.linkSent d.normal x.normal ∧
    Sys2Proof.Claims.linkSent d.reverse x.reverse ∧ d.group = x.group.val ∧
    Sys2Proof.Claims.sentAs .none d.feedback x.feedback ∧ Sys2Proof.Claims.sentAs .asFound d.home x.home) ∧
  (∀ d x, readGroup d = some x ↔
    Sys2Proof.Claims.sentAs 20 d.setup x.setup ∧ Sys2Proof.Claims.sentAs 100 d.pulse x.pulse ∧
    Sys2Proof.Claims.sentAs 400 d.recovery x.recovery ∧ Sys2Proof.Claims.sentAs 1000 d.window x.window ∧
    x.setup ≤ 250 ∧ 10 ≤ x.pulse ∧ x.pulse ≤ 1000 ∧ x.recovery ≤ 5000 ∧ 100 ≤ x.window ∧ x.window ≤ 5000) ∧
  (∀ d x, readSignal d = some x ↔ d.block = x.block.val ∧ d.stands = .value x.stands ∧ d.aspects = x.aspects ∧
    d.lampModule = x.lampModule.val ∧ d.firstOutput = x.firstOutput ∧ 2 ≤ x.aspects ∧ x.aspects ≤ 4 ∧
    x.firstOutput ≤ 12 ∧ x.firstOutput % 4 = 0) ∧
  ∀ d x, readRoute d = some x ↔
    d.entrance = x.entrance.val ∧ d.exit = x.exit.map (·.val) ∧ d.path = x.path.map (·.val) ∧
    d.points = (x.points.map fun p => ⟨p.point.val, .value p.lie, p.release⟩) ∧
    d.flank = (x.flank.map fun p => ⟨p.point.val, .value p.lie⟩) ∧ d.overlap = x.overlap.map (·.val) ∧
    (d.turntable = match x.turntable with
      | none => .omitted
      | some q => .value ⟨q.road.val, .value q.side⟩) ∧
    (d.approach = match x.approach with
      | none => .omitted
      | some a => .value ⟨a.limit, a.trap.val, a.release⟩) ∧
    Sys2Proof.Claims.sentAs false d.visitor x.visitor ∧
    1 ≤ x.path.length ∧ x.path.length ≤ 8 ∧ x.points.length ≤ 8 ∧ x.flank.length ≤ 4 ∧ x.overlap.length ≤ 2 ∧
    (∀ p ∈ x.points, p.release < x.path.length) ∧
    ∀ a, x.approach = some a → 1 ≤ a.limit ∧ a.limit ≤ 9999 ∧ 1 ≤ a.release ∧ a.release ≤ 240

/-- The fields of the turntable, a road, a trap, a module, a key binding, an LED slot, a show step and a cue (R2, R8 to R11), in the
same way. -/
def Sys2Proof.Claims.equipmentFields : Prop :=
  (∀ d x, readTurntable d = some x ↔
    d.r = x.r ∧ d.vMin = x.vMin ∧ d.vMax = x.vMax ∧ d.increment = x.increment ∧
    Sys2Proof.Claims.sentAs false d.barrier x.barrier ∧ d.tolerance = x.tolerance ∧
    Sys2Proof.Claims.sentAs false d.homeAtStart x.homeAtStart ∧ Sys2Proof.Claims.sentAs 300 d.settle x.settle ∧
    Sys2Proof.Claims.sentAs 1500 d.bolt x.bolt ∧ Sys2Proof.Claims.sentAs 100 d.deadtime x.deadtime ∧
    d.deckBlock = x.deckBlock.val ∧ 1600 ≤ x.r ∧ x.r ≤ 64000 ∧ x.r % 2 = 0 ∧ 16 ≤ x.vMin ∧ x.vMin ≤ 2000 ∧
    x.vMin ≤ x.vMax ∧ x.vMax ≤ 20000 ∧ 1 ≤ x.increment ∧ x.increment ≤ 500 ∧ x.tolerance ≤ 255 ∧ x.settle ≤ 2000 ∧
    100 ≤ x.bolt ∧ x.bolt ≤ 5000 ∧ 10 ≤ x.deadtime ∧ x.deadtime ≤ 500) ∧
  (∀ d x, readRoad d = some x ↔ d.position = x.position ∧ d.block = x.block.val ∧ x.position ≤ 64000) ∧
  (∀ d x, readTrap d = some x ↔
    d.distance = x.distance ∧ Sys2Proof.Claims.sentAs 1 d.edges x.edges ∧ Sys2Proof.Claims.sentAs 50 d.quiet x.quiet ∧
    d.block = x.block.val ∧ d.abEnd = .value x.abEnd ∧ 10 ≤ x.distance ∧ x.distance ≤ 2000 ∧ 1 ≤ x.edges ∧
    x.edges ≤ 8 ∧ 5 ≤ x.quiet ∧ x.quiet ≤ 500) ∧
  (∀ d x, readModule d = some x ↔ d.address = x.address ∧ d.type = .value x.type ∧ 8 ≤ x.address ∧ x.address ≤ 119) ∧
  (∀ d x, readKey d = some x ↔ d.panel = x.panel.val ∧ d.key = x.key.val ∧
    d.action = match x.action with
      | .startShow i => .value (.startShow i.val)
      | .visitorRoute r => .value (.visitorRoute r.val)
      | .emergency => .value .emergency
      | .none => .value .none) ∧
  (∀ d x, readLed d = some x ↔ (d.kind, d.index) = match x with
    | .blockOcc b => (Sent.value .blockOcc, b.val)
    | .blockRes b => (.value .blockRes, b.val)
    | .pointN p => (.value .pointN, p.val)
    | .pointR p => (.value .pointR, p.val)
    | .signalProceed g => (.value .signalProceed, g.val)
    | .road r => (.value .road, r.val)
    | .showing i => (.value .showing, i.val)) ∧
  (∀ d x, readStep d = some x ↔
    (d = match x with
      | .route r => .route r.val
      | .turn q e => .turn q.val (.value e)
      | .waitRoute r t n => .waitRoute r.val (.value t) n
      | .waitTurntable n => .waitTurntable n
      | .waitCue c n => .waitCue c.val n
      | .pause ms => .pause ms
      | .clearCue c => .clearCue c.val
      | .caption k => .caption k.val
      | .cancel r => .cancel r.val
      | .finish => .finish) ∧
    match x with
    | .waitRoute _ _ n | .waitTurntable n | .waitCue _ n => n ≤ 600
    | .pause ms => 1 ≤ ms ∧ ms ≤ 60000
    | _ => True) ∧
  ∀ d x, readCue d = some x ↔ d.selector = match x with
    | .none => .omitted
    | .blockOccupied b => .value (.blockOccupied b.val)
    | .blockCleared b => .value (.blockCleared b.val)
    | .trapResult t => .value (.trapResult t.val)
    | .turntableAligned => .value .turntableAligned
    | .routeEntered r => .value (.routeEntered r.val)
    | .routeFreed r => .value (.routeFreed r.val)
    | .key m k => .value (.key m.val k.val)

/-- What each DEFINE request's fields come to, and when they are refused (R2, R4 to R11): the values sent, the defaults of the
fields left out, and the ranges. -/
def Obligations.FieldRangesAndDefaults : Prop := Sys2Proof.Claims.layoutFields ∧ Sys2Proof.Claims.equipmentFields

/-- DEFINE_STEP (R11): a position below the show's step count is replaced, the position at its end appends while the store of
128 has room, and any other is refused. -/
def Obligations.DefineStepPlacesTheStep : Prop :=
  ∀ (s : State) (dt : Nat) (tag : Byte) (d : DefStep), s.hears tag →
    let c : Instr := .defineStep dt tag (.fields d)
    (s.mode ≠ .config → exec c s = .next (s.answered dt tag (.refused .wrongMode))) ∧
    (s.mode = .config → 8 ≤ d.showNo ∨ (∀ x, d.step ≠ .value x) → exec c s = .next (s.answered dt tag (.refused .badValue))) ∧
    ∀ (h : d.showNo < 8) (x : RawStep), s.mode = .config → d.step = .value x →
      (readStep x = none → exec c s = .next (s.answered dt tag (.refused .badValue))) ∧
      ∀ y, readStep x = some y →
        let l := tget s.tables.shows ⟨d.showNo, h⟩
        let put (k : List Step) : Tables := { s.tables with shows := tset s.tables.shows ⟨d.showNo, h⟩ k }
        (d.position < l.length → ∃ t, exec c s = .next t ∧ s.loads t dt tag (put (l.set d.position y))) ∧
        (d.position = l.length → s.tables.stepsUsed < 128 → ∃ t, exec c s = .next t ∧ s.loads t dt tag (put (l ++ [y]))) ∧
        (d.position = l.length → 128 ≤ s.tables.stepsUsed → exec c s = .next (s.answered dt tag (.refused .tableFull))) ∧
        (l.length < d.position → exec c s = .next (s.answered dt tag (.refused .badValue)))

/-- ERASE (R3): the entry named, or with ALL every entry of the table, returns to undefined or to its defaults. -/
def Obligations.EraseReturnsEntries : Prop :=
  ∀ (s : State) (dt : Nat) (tag : Byte), s.hears tag →
    let c (x : EraseTable) (k : Option Nat) : Instr := .erase dt tag (.fields ⟨.value x, k⟩)
    let erases (x : EraseTable) (k : Option Nat) (u : Tables) : Prop := ∃ t, exec (c x k) s = .next t ∧ s.erases t dt tag u
    (s.mode ≠ .config → ∀ x k, exec (c x k) s = .next (s.answered dt tag (.refused .wrongMode))) ∧
    (s.mode = .config →
      (∀ x k, eraseSize x ≤ k → exec (c x (some k)) s = .next (s.answered dt tag (.refused .badValue))) ∧
      (∀ i : Fin 48, erases .block (some i) { s.tables with blocks := tset s.tables.blocks i none }) ∧
      erases .block none { s.tables with blocks := tfill 48 none } ∧
      (∀ i : Fin 64, erases .point (some i) { s.tables with points := tset s.tables.points i none }) ∧
      erases .point none { s.tables with points := tfill 64 none } ∧
      (∀ i : Fin 8, erases .group (some i) { s.tables with groups := tset s.tables.groups i ⟨20, 100, 400, 1000⟩ }) ∧
      erases .group none { s.tables with groups := tfill 8 ⟨20, 100, 400, 1000⟩ } ∧
      (∀ i : Fin 32, erases .signal (some i) { s.tables with signals := tset s.tables.signals i none }) ∧
      erases .signal none { s.tables with signals := tfill 32 none } ∧
      (∀ i : Fin 64, erases .route (some i) { s.tables with routes := tset s.tables.routes i none }) ∧
      erases .route none { s.tables with routes := tfill 64 none } ∧
      erases .turntable (some 0) { s.tables with turntable := none } ∧
      erases .turntable none { s.tables with turntable := none } ∧
      (∀ i : Fin 24, erases .road (some i) { s.tables with roads := tset s.tables.roads i none }) ∧
      erases .road none { s.tables with roads := tfill 24 none } ∧
      (∀ i : Fin 4, erases .trap (some i) { s.tables with traps := tset s.tables.traps i none }) ∧
      erases .trap none { s.tables with traps := tfill 4 none } ∧
      (∀ i : Fin 24, erases .panel (some i) { s.tables with modules := tset s.tables.modules i none }) ∧
      erases .panel none { s.tables with modules := tfill 24 none } ∧
      (∀ i : Fin 64, erases .key (some i) { s.tables with keys := tset s.tables.keys i none }) ∧
      erases .key none { s.tables with keys := tfill 64 none } ∧
      (∀ i : Fin 1536, erases .led (some i) { s.tables with leds := s.tables.leds.filter fun y => y.1 != i.val }) ∧
      erases .led none { s.tables with leds := [] } ∧
      (∀ i : Fin 16, erases .cue (some i) { s.tables with cues := tset s.tables.cues i .none }) ∧
      erases .cue none { s.tables with cues := tfill 16 .none } ∧
      (∀ i : Fin 8, erases .showing (some i) { s.tables with shows := tset s.tables.shows i [] }) ∧
      erases .showing none { s.tables with shows := tfill 8 [] } ∧
      erases .everything none Tables.empty)

/-- SET_PARAM (R13, R14) is taken in every mode. A value outside its range is clamped to it, the ACK carries the value used,
and no other parameter changes; a lowered stack timeout expires at once just the routes whose age reaches it (R87). -/
def Obligations.SetParamClampsTheValue : Prop :=
  (∀ (s : State) (dt : Nat) (tag : Byte) (x : ParamName) (n : Nat), s.hears tag → s.queue = [] →
    let v := if x = .displayTrap then if n < 4 then n else 65535 else max (ParamName.range x).1 (min (ParamName.range x).2 n)
    ∃ p : Params, exec (.setParam dt tag (.fields ⟨.value x, n⟩)) s =
        .next { s.answered dt tag (.ack [BitVec.ofNat 8 (v / 256), BitVec.ofNat 8 v]) with params := p } ∧
      p.value x = v ∧ ∀ y, y ≠ x → p.value y = s.params.value y) ∧
  (∀ (s : State) (dt : Nat) (tag : Byte) (n : Nat), s.hears tag →
    exec (.setParam dt tag (.fields ⟨.unlisted, n⟩)) s = .next (s.answered dt tag (.refused .badValue))) ∧
  ∀ (s : State) (dt : Nat) (tag : Byte) (n : Nat), s.hears tag → s.queueSound → s.noRun → 0 < n → n ≤ 600 →
    let due (r : Fin 64) : Prop :=
      ∃ cls since, tget s.routes r = .queued cls since ∧ 1000 * n ≤ (s.later dt).ageOf since
    ∃ t, exec (.setParam dt tag (.fields ⟨.value .stackTimeout, n⟩)) s = .next t ∧ t.params.stackTimeout = n ∧
      (∀ r, (due r → tget t.routes r = .free .expired ∧ .route r ∈ t.link.reports ∧ r ∉ t.queue) ∧
        (¬ due r → tget t.routes r = tget s.routes r ∧ (r ∈ t.queue ↔ r ∈ s.queue)))

/-- SET_CAPTION and SET_TEXT (R12, R185, R204): up to 20 printable codes, padded with spaces to 20. -/
def Obligations.CaptionsAndTextArePadded : Prop :=
  ∀ (s : State) (dt : Nat) (tag : Byte) (k : Nat) (codes : List Byte), s.hears tag →
    let caption : Instr := .setCaption dt tag (.fields ⟨k, codes⟩)
    let text : Instr := .setText dt tag (.fields codes)
    let good : Prop := ∀ c ∈ codes, 0x20 ≤ c.toNat ∧ c.toNat ≤ 0x7E
    (20 < codes.length → exec caption s = .next (s.answered dt tag (.refused .badLength)) ∧
      exec text s = .next (s.answered dt tag (.refused .badLength))) ∧
    (codes.length ≤ 20 →
      (16 ≤ k ∨ ¬ good → exec caption s = .next (s.answered dt tag (.refused .badValue))) ∧
      (¬ good → exec text s = .next (s.answered dt tag (.refused .badValue))) ∧
      (good → ∃ l : Text20, (∀ i : Fin 20, tget l i = codes.getD i 0x20) ∧
        (∀ h : k < 16, exec caption s =
          .next { s.answered dt tag (.ack []) with captions := tset s.captions ⟨k, h⟩ l }) ∧
        s.comesTo text { s.answered dt tag (.ack []) with text := { s.text with line1 := l } } []))

/-! ## Modes (chapter 1) -/

/-- START_RUN (R15): refused outside CONFIG, refused with INVALID_LAYOUT naming the first entry in check order that fails, and
taken just when every entry passes. -/
def Sys2Proof.Claims.startRunNamesTheFirstFailure : Prop :=
  (∀ (s : State) (dt : Nat) (tag : Byte), s.hears tag →
    (s.mode ≠ .config → exec (.startRun dt tag (.fields ())) s = .next (s.answered dt tag (.refused .wrongMode))) ∧
    ∀ x i, s.mode = .config → s.tables.firstFailure = some (x, i) →
      exec (.startRun dt tag (.fields ())) s = .next (s.answered dt tag (.invalid x i))) ∧
  (∀ t : Tables, t.firstFailure = none ↔
    (∀ b, t.blockOk b = true) ∧ (∀ p, t.pointOk p = true) ∧ (∀ g, t.signalOk g = true) ∧ (∀ r, t.routeOk r = true) ∧
    t.turntableOk = true ∧ (∀ q, t.roadOk q = true) ∧ (∀ x, t.trapOk x = true) ∧ (∀ m, t.moduleOk m = true) ∧
    (∀ k, t.keyOk k = true) ∧ (∀ x ∈ t.leds, t.ledOk x = true) ∧ (∀ i, t.showOk i = true) ∧ ∀ c, t.cueOk c = true) ∧
  (∀ (t : Tables) (b : Fin 48), t.blockOk b = false → (∀ a, a.val < b.val → t.blockOk a = true) →
    t.firstFailure = some (.block, b.val)) ∧
  (∀ (t : Tables) (r : Fin 64), (∀ b, t.blockOk b = true) → (∀ p, t.pointOk p = true) → (∀ g, t.signalOk g = true) →
    t.routeOk r = false → (∀ q, q.val < r.val → t.routeOk q = true) → t.firstFailure = some (.route, r.val)) ∧
  ∀ (t : Tables) (x : CheckTable) (i : Nat), t.ledsOrdered →
    (t.firstFailure = some (x, i) ↔
      t.fails x i ∧ ∀ y j, CheckTable.place y < CheckTable.place x ∨ (y = x ∧ j < i) → ¬ t.fails y j)

/-- The checks of blocks, points and signals (R16): links name what is defined and are returned, a STOP block's signal stands at
it, the first DECK block is the turntable's, a drive group holds at most 16 points, and no two signals share a place or a
lamp. -/
def Sys2Proof.Claims.trackIsChecked : Prop :=
  ∀ t : Tables,
    let named (l : Link) : Prop :=
      (∀ b y, l = .blockEnd b y → (tget t.blocks b).isSome = true) ∧ ∀ p g, l = .pointLeg p g → (tget t.points p).isSome = true
    let returned (l back : Link) : Prop :=
      (∀ b y d, l = .blockEnd b y → tget t.blocks b = some d → d.link y = back) ∧
        ∀ p g d, l = .pointLeg p g → tget t.points p = some d → d.link g = back
    (∀ b, tget t.blocks b = none → t.blockOk b = true) ∧
    (∀ b d, tget t.blocks b = some d → (t.blockOk b = true ↔
      (∀ y, named (d.link y) ∧ d.link y ≠ .blockEnd b y ∧ returned (d.link y) (.blockEnd b y)) ∧
      (∀ g, d.kind = .stop g → ∃ x, tget t.signals g = some x ∧ x.block = b) ∧
      (d.kind = .deck → (∀ y, d.link y = .noLink) ∧
        (∀ a x, a.val < b.val → tget t.blocks a = some x → x.kind ≠ .deck) ∧
        ∃ x, t.turntable = some x ∧ x.deckBlock = b))) ∧
    (∀ p, tget t.points p = none → t.pointOk p = true) ∧
    (∀ p d, tget t.points p = some d → (t.pointOk p = true ↔
      (∀ g, named (d.link g) ∧ returned (d.link g) (.pointLeg p g) ∧ d.link g ≠ .pointLeg p g) ∧
      ((indices 64).filter fun q =>
        decide (q.val ≤ p.val) && (tget t.points q).map (·.group) == some d.group).length ≤ 16)) ∧
    (∀ g, tget t.signals g = none → t.signalOk g = true) ∧
    ∀ g d, tget t.signals g = some d → (t.signalOk g = true ↔
      (tget t.blocks d.block).isSome = true ∧ (tget t.modules d.lampModule).map (·.type) = some .lamp ∧
      (∀ q e, q ≠ g → tget t.signals q = some e → ¬ (e.block = d.block ∧ e.stands = d.stands)) ∧
      ∀ q e, q.val < g.val → tget t.signals q = some e → ¬ (e.lampModule = d.lampModule ∧ e.firstOutput = d.firstOutput))

/-- The checks of a route (R17): what it names is defined and distinct, its turntable requirement fits its path, and the walks
join it up, past every point of its point list, to the end at which its exit signal stands. -/
def Sys2Proof.Claims.routesAreChecked : Prop :=
  ∀ (t : Tables) (r : Fin 64), (tget t.routes r = none → t.routeOk r = true) ∧
    ∀ d, tget t.routes r = some d →
      let blocks := d.path ++ d.overlap
      let points := d.points.map (·.point) ++ d.flank.map (·.point)
      let turntable : Prop :=
        (d.turntable = none → ∀ tt, t.turntable = some tt → tt.deckBlock ∉ blocks) ∧
        ∀ q, d.turntable = some q → ∃ tt road k, t.turntable = some tt ∧ tget t.roads q.road = some road ∧
          d.path[k]? = some tt.deckBlock ∧ tt.deckBlock ∉ d.overlap ∧
          ∀ beside, beside = (if k = 0 then [] else (d.path[k - 1]?).toList) ++ (d.path[k + 1]?).toList →
            road.block ∈ beside ∧ ∀ b ∈ beside, b = road.block ∨
              ∃ o x, t.opposite q.road = some o ∧ tget t.roads o = some x ∧ x.block = b
      (t.routeOk r = true ↔ ∃ g, tget t.signals d.entrance = some g ∧
        (∀ x, d.exit = some x → (tget t.signals x).isSome = true) ∧
        (∀ b ∈ blocks, (tget t.blocks b).isSome = true) ∧ blocks.Nodup ∧ g.block ∉ blocks ∧
        (∀ p ∈ points, (tget t.points p).isSome = true) ∧ points.Nodup ∧ turntable ∧
        (∀ a, d.approach = some a → (tget t.traps a.trap).isSome = true) ∧
        ∃ passed sides, WalksAlong t d g.block g.stands blocks passed sides ∧ (∀ x ∈ d.points, x.point ∈ passed) ∧
          ∀ x, d.exit = some x → ∃ e, tget t.signals x = some e ∧ d.path.getLast? = some e.block ∧
            sides[d.path.length - 1]? = some e.stands.other)

/-- The checks of the turntable, roads, traps and modules (R18) and of keys, LEDs, shows and cues (R19). -/
def Sys2Proof.Claims.otherTablesAreChecked : Prop :=
  ∀ t : Tables,
    let typed (m : Fin 24) (x : ModuleType) : Prop := (tget t.modules m).map (·.type) = some x
    let block (b : Fin 48) : Prop := (tget t.blocks b).isSome = true
    let point (p : Fin 64) : Prop := (tget t.points p).isSome = true
    let route (r : Fin 64) : Prop := (tget t.routes r).isSome = true
    (t.turntableOk = true ↔ ∀ x, t.turntable = some x → (tget t.blocks x.deckBlock).map (·.kind) = some .deck) ∧
    (∀ q, t.roadOk q = true ↔ ∀ d, tget t.roads q = some d → ∃ tt b, t.turntable = some tt ∧
      tget t.blocks d.block = some b ∧ d.position ≤ tt.r - 1 ∧ (tt.barrier = true → d.position ≠ 0) ∧ b.kind ≠ .deck ∧
      (b.link0 = .noLink ∨ b.link1 = .noLink) ∧
      ∀ o e, o.val < q.val → tget t.roads o = some e → e.position ≠ d.position ∧ e.block ≠ d.block) ∧
    (∀ x, t.trapOk x = true ↔ ∀ d, tget t.traps x = some d → block d.block) ∧
    (∀ m, t.moduleOk m = true ↔ ∀ d, tget t.modules m = some d → ∀ o e, o.val < m.val → tget t.modules o = some e →
      e.address ≠ d.address ∧ ¬ (e.type = .text ∧ d.type = .text)) ∧
    (∀ k, t.keyOk k = true ↔ ∀ d, tget t.keys k = some d → typed d.panel .keys ∧
      (∀ o e, o.val < k.val → tget t.keys o = some e → ¬ (e.panel = d.panel ∧ e.key = d.key)) ∧
      (∀ i, d.action = .startShow i → tget t.shows i ≠ []) ∧ ∀ r, d.action = .visitorRoute r → route r) ∧
    (∀ (n : Nat) (m : Fin 24) (x : LedDef), n / 64 = m.val → (t.ledOk (n, x) = true ↔ typed m .mimic ∧
      (∀ b, x = .blockOcc b ∨ x = .blockRes b → block b) ∧ (∀ p, x = .pointN p ∨ x = .pointR p → point p) ∧
      (∀ g, x = .signalProceed g → (tget t.signals g).isSome = true) ∧
      (∀ q, x = .road q → (tget t.roads q).isSome = true) ∧ ∀ i, x = .showing i → tget t.shows i ≠ [])) ∧
    (∀ i, t.showOk i = true ↔ tget t.shows i = [] ∨ ((tget t.shows i).length ≤ 24 ∧
      (tget t.shows i).getLast? = some .finish ∧ ∀ x ∈ tget t.shows i,
        (∀ r, x = .route r ∨ x = .cancel r ∨ (∃ w n, x = .waitRoute r w n) → route r) ∧
        ∀ q e, x = .turn q e → (tget t.roads q).isSome = true ∧ t.turntable.isSome = true)) ∧
    ∀ c, t.cueOk c = true ↔ ∀ x, tget t.cues c = x →
      (∀ b, x = .blockOccupied b ∨ x = .blockCleared b → block b) ∧
      (∀ y, x = .trapResult y → (tget t.traps y).isSome = true) ∧ (x = .turntableAligned → t.turntable.isSome = true) ∧
      (∀ r, x = .routeEntered r ∨ x = .routeFreed r → route r) ∧ ∀ m k, x = .key m k → typed m .keys

/-- START_RUN and its checks (R15 to R19). -/
def Obligations.StartRunChecksTheTables : Prop :=
  Sys2Proof.Claims.startRunNamesTheFirstFailure ∧ Sys2Proof.Claims.trackIsChecked ∧ Sys2Proof.Claims.routesAreChecked ∧
    Sys2Proof.Claims.otherTablesAreChecked

/-- START_RUN taken (R20, R27, R34, R43, R47, R81, R122, R163, R171, R181, R199): the stale timers start, the panel is probed and
RESET_OUTPUTS called for, each PLAIN block's feed goes ON or is given its restart due time, every other feed stays OFF, an
AS_FOUND point's lie becomes UNKNOWN, each drive group begins the first of its home moves with the others waiting, a deck with
home-at-start on begins to home, and what the end of an event never touches is as it was. -/
def Obligations.StartRunBeginsService : Prop :=
  ∀ (s : State) (dt : Nat) (tag : Byte), s.hears tag → s.configAtRest → s.mode = .config → s.tables.firstFailure = none →
    let now := s.clock.us + dt
    ∃ t, exec (.startRun dt tag (.fields ())) s = .next t ∧
      ({ t with feeds := s.feeds } : State).steady =
        ({ s.answered dt tag (.ack []) with
          mode := .run
          channels := tgen 48 fun b =>
            { Channel.initial with timer := if (tget s.tables.blocks b).isSome then some (now + 500000) else none }
          contacts := tgen 64 fun p =>
            { Contact.initial with timer := if (tget s.tables.points p).isSome then some (now + 500000) else none }
          bus := { s.bus with calls := [(.resetOutputs, 0)] }
          modules := tgen 24 fun m =>
            if (tget s.tables.modules m).isSome then
              { tget s.modules m with probeDue := true, probeTimer := some (now + 1000000) }
            else tget s.modules m } : State).steady ∧
      (∀ b, tget t.feeds b =
        match tget s.tables.blocks b with
        | some d =>
          let delay := d.restartGroup * s.params.restartStagger
          if d.kind = .plain then
            if delay = 0 then { Feed.initial with state := .on } else { Feed.initial with restart := some (now + 1000 * delay) }
          else Feed.initial
        | none => Feed.initial) ∧
      (∀ p d, tget s.tables.points p = some d → .point p ∈ t.link.reports ∧
        (d.home = .asFound → (tget t.points p).lie = none ∧ (tget t.points p).asFound = (d.feedback != .none)) ∧
        (d.home ≠ .asFound → (tget t.points p).asFound = false ∧
          (tget t.points p).lie =
            if (tget t.groups d.group).phase = .pulse ∧ ((tget t.groups d.group).current.map (·.point)) = some p then none
            else (tget s.points p).lie)) ∧
      (∀ g, tget t.groups g =
        match s.homeMoves g with
        | [] => GroupRec.initial
        | (p, l) :: rest => (s.later dt).groupStarts g GroupRec.initial p l rest) ∧
      (∀ tt, s.tables.turntable = some tt → tt.homeAtStart = true → .turntable ∈ t.link.reports ∧
        let homing (d : Deck) (x : HomePart) : Deck := { d with state := .homing false 0 x }
        (s.deck.boltOut = false →
          t.deck = homing { s.deck with bolt := .driveOut } (.bolt (now + 1000 * tt.bolt))) ∧
        (s.deck.boltOut = true → s.deck.lastDir = some .reverse → t.deck = homing s.deck (.deadtime (now + 1000 * tt.deadtime))) ∧
        (s.deck.boltOut = true → s.deck.lastDir ≠ some .reverse →
          t.deck = homing { s.deck with stepDir := .forward } (.search (now + interval tt.vMin)))) ∧
      ((∀ tt, s.tables.turntable = some tt → tt.homeAtStart = false) → t.deck = s.deck) ∧
      (∀ g, (tget s.tables.signals g).isSome → .signal g ∈ t.link.reports) ∧
      (∀ i, tget s.tables.shows i ≠ [] → .showing i ∈ t.link.reports) ∧ .layout ∈ t.link.reports ∧ t.queue = [] ∧
      t.cues = s.cues

/-- STOP_RUN (R23, R82, R160, R164, R181, R210): refused in CONFIG; otherwise the tables, parameters and captions are kept,
every block's dynamic state is cleared, a point keeps its lie unless its own move is in PULSE or undecided in RECOVERY, a move
of the deck ends STOPPED, a bus recovery runs to its end, and LAYOUT alone is marked. -/
def Obligations.StopRunClearsDynamicState : Prop :=
  ∀ (s : State) (dt : Nat) (tag : Byte), s.hears tag →
    (s.mode = .config → exec (.stopRun dt tag (.fields ())) s = .next (s.answered dt tag (.refused .wrongMode))) ∧
    (s.mode ≠ .config → ∃ t, exec (.stopRun dt tag (.fields ())) s = .next t ∧ t.link.reports = [.layout] ∧
      t.calm = ({ State.reset with
        clock := s.clock.plus dt, mode := .config, tables := s.tables, params := s.params, captions := s.captions
        points := tgen 64 fun p =>
          { PointRec.initial with
            lie := match tget s.tables.points p with
              | none => (tget s.points p).lie
              | some d =>
                let x := tget s.groups d.group
                match x.current with
                | none => (tget s.points p).lie
                | some m =>
                  if m.point = p ∧ (x.phase = .pulse ∨ (x.phase = .recovery ∧ x.outcome = none)) then none
                  else (tget s.points p).lie }
        deck := { Deck.initial with
          lastDir := s.deck.lastDir, corrections := s.deck.corrections, lastCorrection := s.deck.lastCorrection
          stepDir := s.deck.stepDir, boltOut := s.deck.boltOut, boltIn := s.deck.boltIn
          lastOutcome := match s.tables.turntable, s.deck.state.move with
            | some _, some m => some (.stopped, m.origin)
            | _, _ => s.deck.lastOutcome }
        bus := { Bus.initial with
          state := match s.bus.state with
            | .recovery _ => .recovery false
            | _ => .free }
        text := ⟨s.text.line1, blankText, none⟩
        link := (s.answered dt tag (.ack [])).link, pending := s.pending } : State).calm)

/-- HALT_LAYOUT (R21, R44, R80, R104, R159, R160, R171, R199): every ON feed goes OFF and every restart is removed, every group is
paused, the deck is killed, DANGER_ALL is called for, the visitor requests and the shows end; nothing else of the feeds, channels,
groups and deck changes, and what the end of an event never touches is as it was. HOST entries stay queued in their order with their
records, but for a route that the aborted show requested; a route that leaves the queue is FREE, HALTED or, requested by that show,
CANCELLED; and a route that holds elements keeps its state and all that it holds, but for a SETTING route whose deck move is
killed. In HALT nothing changes. -/
def Obligations.HaltStopsTheLayout : Prop :=
  ∀ (s : State) (dt : Nat) (tag : Byte), s.hears tag →
    let c : Instr := .haltLayout dt tag (.fields ())
    (s.mode = .config → exec c s = .next (s.answered dt tag (.refused .wrongMode))) ∧
    (∀ cause, s.mode = .halt cause → exec c s = .next (s.answered dt tag (.ack []))) ∧
    (s.mode = .run → s.showsSound → s.queueSound → ∃ t, exec c s = .next t ∧ .layout ∈ t.link.reports ∧
      ({ t with feeds := s.feeds, groups := s.groups, deck := s.deck, bus := { t.bus with calls := s.bus.calls } } :
          State).steady =
        ({ s.answered dt tag (.ack []) with mode := .halt .host } : State).steady ∧
      (∀ b, let on : Prop := (tget s.feeds b).state = .on
        tget t.feeds b =
          { tget s.feeds b with state := if on then .off else (tget s.feeds b).state, restart := none } ∧
        tget t.channels b = { tget s.channels b with held := if on then false else (tget s.channels b).held }) ∧
      (∀ g, tget t.groups g = { tget s.groups g with paused := true }) ∧ t.deck = s.deckKilled ∧
      (∃ n, (.dangerAll, n) ∈ t.bus.calls) ∧ (∀ x ∈ s.bus.calls, x ∈ t.bus.calls) ∧
      (∀ r ∈ t.queue, ∃ since, tget t.routes r = .queued .host since) ∧ t.showQueue = [] ∧
      (∀ i, ¬ t.showRuns i ∧ ¬ t.showQueued i) ∧
      (let asked (r : Fin 64) : Prop := (tget s.tables.routes r).isSome = true ∧
         ∃ i run, (tget s.shows i).state = .running run ∧ r ∈ run.routes
       t.queue.Sublist s.queue ∧
       (∀ r, r ∈ t.queue ↔ (∃ since, tget s.routes r = .queued .host since) ∧ ¬ asked r) ∧
       (∀ r ∈ t.queue, tget t.routes r = tget s.routes r) ∧
       ∀ r k since, tget s.routes r = .queued k since → r ∉ t.queue →
         (tget t.routes r = .free .halted ∨ asked r ∧ tget t.routes r = .free .cancelled) ∧ .route r ∈ t.link.reports) ∧
      ∀ r m, (tget s.routes r).marks = some m →
        let fails : Prop := tget s.routes r = .setting true m ∧ s.tables.turntable.isSome = true ∧
          ∃ x, s.deck.state.move = some x ∧ x.origin = .route r
        (fails → tget t.routes r = .free .turntable ∧ .route r ∈ t.link.reports ∧
          ∀ d, tget s.tables.routes r = some d → ∀ b ∈ d.path ++ d.overlap, tget t.reservers b ≠ some r) ∧
        (¬ fails →
          (tget t.routes r = tget s.routes r ∨ s.deckKilled ≠ s.deck ∧
            ∃ d y, tget s.tables.routes r = some d ∧ d.turntable.isSome = true ∧ tget s.routes r = .isSet true y m ∧
              tget t.routes r = .isSet false true m) ∧
          ∀ b, tget s.reservers b = some r → tget t.reservers b = some r))

/-- RESUME (R22, R40, R44, R80): refused outside HALT; otherwise the mode is RUN, a LATCHED feed is released where its restore was
deferred and only there, each OFF feed demanded ON goes ON or is given its restart due time, the pauses are lifted, each IDLE
group with a queue starts its next move, and nothing else of the feeds, and with no route and no show waiting of the groups,
changes; what the end of an event never touches is as it was. -/
def Obligations.ResumeReturnsToRun : Prop :=
  ∀ (s : State) (dt : Nat) (tag : Byte), s.hears tag →
    let c : Instr := .resume dt tag (.fields ())
    (s.mode.isHalt = false → exec c s = .next (s.answered dt tag (.refused .wrongMode))) ∧
    (s.mode.isHalt = true → ∃ t, exec c s = .next t ∧ .layout ∈ t.link.reports ∧
      ({ t with feeds := s.feeds, groups := s.groups } : State).steady =
        ({ s.answered dt tag (.ack []) with mode := .run } : State).steady ∧
      (∀ g, (tget t.groups g).paused = false) ∧
      (s.quiet → ∀ g, let x := tget s.groups g
        tget t.groups g =
          match x.phase, x.queue with
          | .idle, (p, l) :: rest => (s.later dt).groupStarts g { x with paused := false } p l rest
          | _, _ => { x with paused := false }) ∧
      ∀ b, (tget s.feeds b).state ≠ .on →
        let f := tget s.feeds b
        let released : Feed :=
          if f.state = .latched ∧ f.deferred = true then { f with state := .off, log := [], deferred := false } else f
        tget t.feeds b =
          match tget s.tables.blocks b with
          | none => released
          | some d =>
            let delay := d.restartGroup * s.params.restartStagger
            if released.state ≠ .off ∨ t.feedDemand b = false then released
            else if delay = 0 then { released with state := .on }
            else { released with restart := some (s.clock.us + dt + 1000 * delay) })

/-! ## Feeds and detection (chapter 2) -/

/-- ISOLATE_FEED and RESTORE_FEED (R41, R42). An isolated index out of range is log entry 8's. -/
def Sys2Proof.Claims.feedRequests : Prop :=
  ∀ (s : State) (dt : Nat) (tag : Byte), s.hears tag →
    let isolate (n : Nat) (on : Sent Bool) : Instr := .isolateFeed dt tag (.fields ⟨n, on⟩)
    let restore (n : Nat) : Instr := .restoreFeed dt tag (.fields n)
    (s.mode = .config → ∀ n on, exec (isolate n on) s = .next (s.answered dt tag (.refused .wrongMode)) ∧
      exec (restore n) s = .next (s.answered dt tag (.refused .wrongMode))) ∧
    (s.mode ≠ .config →
      (∀ n on, 48 ≤ n → exec (isolate n on) s = .next (s.answered dt tag (.refused .badValue)) ∧
        exec (restore n) s = .next (s.answered dt tag (.refused .badValue))) ∧
      ∀ b : Fin 48,
        (tget s.tables.blocks b = none → ∀ on,
          exec (isolate b (.value on)) s = .next (s.answered dt tag (.refused .notDefined)) ∧
          exec (restore b) s = .next (s.answered dt tag (.refused .notDefined))) ∧
        ((tget s.tables.blocks b).isSome = true →
          (exec (isolate b (.value (tget s.feeds b).isolated)) s = .next (s.answered dt tag (.ack []))) ∧
          (∀ on, on ≠ (tget s.feeds b).isolated →
            let u : State := { s.answered dt tag (.ack []) with
              feeds := tset s.feeds b { tget s.feeds b with isolated := on } }
            ∃ t, exec (isolate b (.value on)) s = .next t ∧ t.calm = u.calm ∧ .block b ∈ t.link.reports ∧
              (∀ a, a ≠ b → tget t.feeds a = tget s.feeds a) ∧
              (tget t.feeds b).state =
                match (tget s.feeds b).state with
                | .on => if u.feedDemand b then .on else .off
                | .off =>
                  if u.feedDemand b = true ∧ (tget s.feeds b).restart = none ∧ s.work.entering = false then .on else .off
                | x => x) ∧
          ((tget s.feeds b).state ≠ .latched → exec (restore b) s = .next (s.answered dt tag (.ack []))) ∧
          ((tget s.feeds b).state = .latched →
            (s.mode.isHalt = true → exec (restore b) s = .next { s.answered dt tag (.ack []) with
              feeds := tset s.feeds b { tget s.feeds b with deferred := true } }) ∧
            (s.mode = .run →
              ∃ t, exec (restore b) s = .next t ∧
                t.calm = ({ s.answered dt tag (.ack []) with
                  feeds := tset s.feeds b { tget s.feeds b with log := [] } } : State).calm ∧
                .block b ∈ t.link.reports ∧ (∀ a, a ≠ b → tget t.feeds a = tget s.feeds a) ∧
                (tget t.feeds b).state =
                  if s.feedDemand b = true ∧ (tget s.feeds b).restart = none then .on else .off))))

/-- The cool timer and the restart due time (R40, R43): a COOLING feed leaves for its demand, the trip log kept; a feed whose
restart falls due follows its demand; nothing else changes, and an expiry without its timer lets only time pass (log entries 1,
3). -/
def Sys2Proof.Claims.feedTimers : Prop :=
  ∀ (s : State) (dt : Nat) (b : Fin 48),
    let f := tget s.feeds b
    ((f.state ≠ .cooling ∨ f.cool = none) → exec (.feedCoolExpiry dt b) s = .next (s.later dt)) ∧
    (∀ e, f.state = .cooling → f.cool = some e →
      let u : State := { s with clock := (s.clock.plus dt).upTo e, feeds := tset s.feeds b { f with cool := none } }
      ∃ t, exec (.feedCoolExpiry dt b) s = .next t ∧ t.calm = u.calm ∧ .block b ∈ t.link.reports ∧
        (∀ a, a ≠ b → tget t.feeds a = tget s.feeds a) ∧
        (tget t.feeds b).state = if s.feedDemand b = true ∧ f.restart = none then .on else .off) ∧
    (f.restart = none → exec (.restartDue dt b) s = .next (s.later dt)) ∧
    ∀ e, f.restart = some e →
      let u : State := { s with clock := (s.clock.plus dt).upTo e, feeds := tset s.feeds b { f with restart := none } }
      ∃ t, exec (.restartDue dt b) s = .next t ∧ t.calm = u.calm ∧ (∀ a, a ≠ b → tget t.feeds a = tget s.feeds a) ∧
        (tget t.feeds b).state =
          match f.state with
          | .on => if s.feedDemand b then .on else .off
          | .off => if s.feedDemand b = true ∧ s.work.entering = false then .on else .off
          | x => x

/-- The feeds' requests and timers (R40 to R43). -/
def Obligations.FeedsObeyRequestsAndTimers : Prop := Sys2Proof.Claims.feedRequests ∧ Sys2Proof.Claims.feedTimers

/-- An overload sample on an ON feed (R28, R29, R38, R39): the trip is logged, the log keeping its last five, the latch decision
is taken, and the channel reads OCCUPIED and is held, whatever it read before. Where it read OCCUPIED already, nothing else changes,
no other feed and no other channel among them where the signals show what R112 and R113 give. Where it read CLEAR, its BLOCK_OCCUPIED
cues are set (R33, R196), and what else the block's occupation brings on is in statements TrainGrowsOntoTheBlock and
RoutesAreEnteredAndReleased. -/
def Obligations.OverloadTripsTheFeed : Prop :=
  ∀ (s : State) (dt : Nat) (b : Fin 48) (d : BlockDef), s.work = Work.none → s.mode ≠ .config →
    tget s.tables.blocks b = some d → (tget s.feeds b).state = .on →
    let now := s.later dt
    let f := tget s.feeds b
    let log := (f.log ++ [now.ms]).drop (f.log.length + 1 - 5)
    let counted := (log.filter fun x => decide (now.ageOf x ≤ 1000 * s.params.tripWindow)).length
    let tripped : Feed :=
      if d.kill = .latch ∨ s.params.tripsToLatch ≤ counted then { f with state := .latched, log := log }
      else { f with state := .cooling, log := log, cool := some (now.clock.us + 1000 * s.params.coolTime) }
    let u : State := { now with
      feeds := tset s.feeds b tripped
      channels := tset s.channels b ⟨true, 0, true, false, some (now.clock.us + 500000)⟩ }
    ∃ t, exec (sampleOf dt b 255#8) s = .next t ∧ tget t.feeds b = tripped ∧ tget t.channels b = tget u.channels b ∧
      .block b ∈ t.link.reports ∧
      ((tget s.channels b).occupied = true →
        t.calm = u.calm ∧ (s.signalsShow → t.feeds = u.feeds ∧ t.channels = u.channels)) ∧
      ((tget s.channels b).occupied = false → s.runningShow = none →
        ∀ k, tget s.tables.cues k = .blockOccupied b → tget t.cues k = true)

/-- A good sample that is not an overload sample counts toward the other occupancy (R30, R31, R32), whatever else the event
brings about. -/
def Obligations.DwellCountsSamples : Prop :=
  ∀ (s : State) (dt : Nat) (b : Fin 48) (d : BlockDef) (value : Byte), s.mode ≠ .config →
    tget s.tables.blocks b = some d → ¬ (value = 255 ∧ (tget s.feeds b).state = .on) →
    (tget s.channels b).held = false →
    let c := tget s.channels b
    let level := value.toNat
    let from' := if c.stale then 0 else c.count
    let after (occupied : Bool) (count : Nat) : Channel :=
      ⟨occupied, count, false, false, some (s.clock.us + dt + 500000)⟩
    let releaseLevel := if d.threshold - d.hysteresis < 1 then 1 else d.threshold - d.hysteresis
    ∃ t, exec (.levelSample dt (BitVec.ofNat 7 b.val) value (recordCheck false (BitVec.ofNat 7 b.val) value)) s = .next t ∧
      (c.occupied = false →
        (d.threshold ≤ level → from' + 1 < d.dwellOn → tget t.channels b = after false (from' + 1)) ∧
        (d.threshold ≤ level → d.dwellOn ≤ from' + 1 → tget t.channels b = after true 0) ∧
        (level < d.threshold → tget t.channels b = after false 0)) ∧
      (c.occupied = true →
        (level < releaseLevel → from' + 1 < d.dwellOff → tget t.channels b = after true (from' + 1)) ∧
        (level < releaseLevel → d.dwellOff ≤ from' + 1 → tget t.channels b = after false 0) ∧
        (releaseLevel ≤ level → tget t.channels b = after true 0))

/-- Sense records that are discarded or ignored (R25, R26) let only time pass; a channel or contact without a good record for
500 ms becomes stale and keeps its reading (R32, R34); and an expiry without its timer lets only time pass (log entry 3). -/
def Obligations.BadRecordsAndStaleness : Prop :=
  ∀ (s : State) (dt : Nat),
    (∀ (index : BitVec 7) (value : Byte) (check : BitVec 4),
      (check ≠ recordCheck false index value ∨ s.mode = .config ∨ 48 ≤ index.toNat →
        exec (.levelSample dt index value check) s = .next (s.later dt)) ∧
      (∀ b : Fin 48, index.toNat = b.val → tget s.tables.blocks b = none →
        exec (.levelSample dt index value check) s = .next (s.later dt)) ∧
      (check ≠ recordCheck true index value ∨ s.mode = .config ∨ 64 ≤ index.toNat →
        exec (.contactReading dt index value check) s = .next (s.later dt)) ∧
      ∀ p : Fin 64, index.toNat = p.val → tget s.tables.points p = none →
        exec (.contactReading dt index value check) s = .next (s.later dt)) ∧
    (∀ b, (tget s.channels b).timer = none → exec (.channelStale dt b) s = .next (s.later dt)) ∧
    (∀ b e, (tget s.channels b).timer = some e → exec (.channelStale dt b) s = .next { s with
      clock := (s.clock.plus dt).upTo e
      channels := tset s.channels b { tget s.channels b with stale := true, count := 0, timer := none }
      link := { s.link with
        reports := if (tget s.channels b).stale = true ∨ .block b ∈ s.link.reports then s.link.reports
          else s.link.reports ++ [.block b] } }) ∧
    (∀ p, (tget s.contacts p).timer = none → exec (.contactStale dt p) s = .next (s.later dt)) ∧
    ∀ p e, s.still → (tget s.contacts p).timer = some e →
      s.comesTo (.contactStale dt p) { s with
        clock := (s.clock.plus dt).upTo e
        contacts := tset s.contacts p { tget s.contacts p with stale := true, timer := none }
        points := if (tget s.contacts p).stale then s.points else tset s.points p { tget s.points p with disagree := 0 } }
        (if (tget s.contacts p).stale then [] else [.point p])

/-- A good contact reading (R34, R66, R75, R76): the reading is replaced and its timer restarts; a point at rest takes its lie
as found, or is watched and fails at the third reading in a row that disagrees; a point without feedback takes nothing else. -/
def Sys2Proof.Claims.contactAtRest : Prop :=
  ∀ (s : State) (dt : Nat) (p : Fin 64) (d : PointDef) (value : Byte), s.still → s.mode ≠ .config →
    tget s.tables.points p = some d →
    let c : Instr := .contactReading dt (BitVec.ofNat 7 p.val) value (recordCheck true (BitVec.ofNat 7 p.val) value)
    let v : Reading := if value = 1 then .normal else if value = 2 then .reverse else .neither
    let x : PointRec := { tget s.points p with
      disagree := if (tget s.contacts p).stale then 0 else (tget s.points p).disagree }
    let g := tget s.groups d.group
    let u (y : PointRec) (h : GroupRec) : State := { s.later dt with
      contacts := tset s.contacts p ⟨v, false, some (s.clock.us + dt + 500000)⟩
      points := tset s.points p y, groups := tset s.groups d.group h }
    let marks : List Subject := if (tget s.contacts p).stale = true ∨ (tget s.contacts p).reading ≠ v then [.point p] else []
    (d.feedback = .none → s.comesTo c (u x g) marks) ∧
    (d.feedback ≠ .none → s.movingTarget p = none →
      (x.asFound = true → v = .neither → s.comesTo c (u x g) marks) ∧
      (∀ l, x.asFound = true → v = Lie.reading l → s.comesTo c
        (u { x with lie := some l, asFound := false } { g with queue := g.queue.filter fun e => !(e == (p, l)) })
        [.point p]) ∧
      (x.asFound = false → x.lie = none ∨ x.failed = true → s.comesTo c (u x g) marks) ∧
      ∀ l, x.asFound = false → x.lie = some l → x.failed = false →
        (v = Lie.reading l → s.comesTo c (u { x with disagree := 0 } g) marks) ∧
        (v ≠ Lie.reading l → x.disagree + 1 < 3 → s.comesTo c (u { x with disagree := x.disagree + 1 } g) marks) ∧
        (v ≠ Lie.reading l → 3 ≤ x.disagree + 1 →
          s.comesTo c (u { x with failed := true, lie := none, disagree := 0 } g) [.point p]))

/-- A good contact reading for a point that is MOVING (R72, R73): it ends a HOLD pulse held on past its time and decides a
CONFIRM move in RECOVERY, where it reads the target, and is only recorded elsewhere. -/
def Sys2Proof.Claims.contactWhileMoving : Prop :=
  ∀ (s : State) (dt : Nat) (p : Fin 64) (d : PointDef) (m : Move) (value : Byte), s.still → s.mode ≠ .config →
    tget s.tables.points p = some d → (tget s.groups d.group).current = some m → m.point = p →
    (tget s.groups d.group).outcome = none → (tget s.groups d.group).queue = [] →
    0 < (tget s.tables.groups d.group).recovery →
    let c : Instr := .contactReading dt (BitVec.ofNat 7 p.val) value (recordCheck true (BitVec.ofNat 7 p.val) value)
    let v : Reading := if value = 1 then .normal else if value = 2 then .reverse else .neither
    let x : PointRec := { tget s.points p with
      disagree := if (tget s.contacts p).stale then 0 else (tget s.points p).disagree }
    let g := tget s.groups d.group
    let now := s.clock.us + dt
    let u (y : PointRec) (h : GroupRec) : State := { s.later dt with
      contacts := tset s.contacts p ⟨v, false, some (now + 500000)⟩
      points := tset s.points p y, groups := tset s.groups d.group h }
    let there : PointRec := { x with lie := some m.target, failed := false }
    let recorded : Prop := s.comesTo c (u x g)
      (if (tget s.contacts p).stale = true ∨ (tget s.contacts p).reading ≠ v then [.point p] else [])
    (v ≠ Lie.reading m.target ∨ d.feedback = .none → recorded) ∧
    (v = Lie.reading m.target →
      (d.feedback = .hold →
        (g.phase = .pulse → g.phaseTimer = none → s.comesTo c (u there { g with
          phase := .recovery, current := some { m with phaseAt := now }, outcome := some .isSet
          phaseTimer := some (now + 1000 * (tget s.tables.groups d.group).recovery), windowTimer := none }) [.point p]) ∧
        (g.phase ≠ .pulse ∨ g.phaseTimer ≠ none → recorded)) ∧
      (d.feedback = .confirm →
        (g.phase = .recovery → g.phaseTimer ≠ none →
          s.comesTo c (u there { g with outcome := some .isSet, windowTimer := none }) [.point p]) ∧
        (g.phase = .recovery → g.phaseTimer = none → s.comesTo c (u there { g with
          phase := .idle, current := none, outcome := none, windowTimer := none }) [.point p]) ∧
        (g.phase ≠ .recovery → recorded)))

/-- Good contact readings, for a point at rest and for one that is MOVING (R34, R66, R72, R73, R75, R76). -/
def Obligations.ContactReadings : Prop := Sys2Proof.Claims.contactAtRest ∧ Sys2Proof.Claims.contactWhileMoving

/-! ## The Train Register (chapter 3) -/

/-- PLACE_TRAIN (R61): the checks in their order, and the train placed. -/
def Sys2Proof.Claims.placeTrainFillsASlot : Prop :=
  ∀ (s : State) (dt : Nat) (tag : Byte) (n k : Nat) (e : Sent Side), s.hears tag →
    let c : Instr := .placeTrain dt tag (.fields ⟨n, k, e⟩)
    let refused (r : Reason) : Prop := exec c s = .next (s.answered dt tag (.refused r))
    (s.mode = .config → refused .wrongMode) ∧
    (s.mode ≠ .config → n < 1 ∨ 9999 < n ∨ 48 ≤ k ∨ (∀ y, e ≠ .value y) → refused .badValue) ∧
    ∀ (b : Fin 48) (y : Side), s.mode ≠ .config → 1 ≤ n → n ≤ 9999 → k = b.val → e = .value y →
      (tget s.tables.blocks b = none → refused .notDefined) ∧
      ((tget s.tables.blocks b).isSome = true →
        (∀ t, Train.number (tget s.trains t) = some n → refused .duplicate) ∧
        ((∀ t, Train.number (tget s.trains t) ≠ some n) →
          ((∀ t, tget s.trains t ≠ .free) → refused .tableFull) ∧
          ∀ t, tget s.trains t = .free → (∀ q : Fin 24, q.val < t.val → tget s.trains q ≠ .free) →
            ((tget s.channels b).occupied = false ∨ (∃ q, b ∈ s.listOf q) → refused .occupied) ∧
            ((tget s.channels b).occupied = true → (∀ q, b ∉ s.listOf q) → s.work = Work.none →
              s.comesTo c { s.answered dt tag (.ack [BitVec.ofNat 8 t.val]) with
                trains := tset s.trains t (.active n [⟨b, y⟩] none false)
                blockFlags := tset s.blockFlags b { tget s.blockFlags b with stray := none } }
                [.train t, .block b])))

/-- REMOVE_TRAIN (R62): the checks in their order, and the record freed, each entry dealt with by its block's channel. -/
def Sys2Proof.Claims.removeTrainFreesTheRecord : Prop :=
  ∀ (s : State) (dt : Nat) (tag : Byte) (n : Nat), s.hears tag →
    let c : Instr := .removeTrain dt tag (.fields n)
    let refused (r : Reason) : Prop := exec c s = .next (s.answered dt tag (.refused r))
    (s.mode = .config → refused .wrongMode) ∧
    (s.mode ≠ .config → n < 1 ∨ 9999 < n → refused .badValue) ∧
    (s.mode ≠ .config → 1 ≤ n → n ≤ 9999 → (∀ t, Train.number (tget s.trains t) ≠ some n) → refused .notDefined) ∧
    ∀ t, s.mode ≠ .config → 1 ≤ n → n ≤ 9999 → s.trainsSound → s.still → Train.number (tget s.trains t) = some n →
      s.comesTo c { s.answered dt tag (.ack []) with
        trains := tset s.trains t .free
        blockFlags := tgen 48 fun b =>
          if b ∈ s.listOf t then
            ⟨if (tget s.channels b).occupied then some .removed else (tget s.blockFlags b).stray, false⟩
          else tget s.blockFlags b }
        (.train t :: (s.listOf t).map .block)

/-- PLACE_TRAIN and REMOVE_TRAIN (R61, R62). -/
def Obligations.TrainsArePlacedAndRemoved : Prop := Sys2Proof.Claims.placeTrainFillsASlot ∧ Sys2Proof.Claims.removeTrainFreesTheRecord

/-- When the channel of the only block of a train's list changes to CLEAR, the train becomes LOST (R58). -/
def Sys2Proof.Claims.lastBlockClears : Prop :=
  ∀ (s : State) (dt : Nat) (b : Fin 48) (d : BlockDef) (value : Byte) (t : Fin 24) (n : Nat) (front : Side)
      (speed : Option Nat) (overlong : Bool),
    s.mode ≠ .config → s.trainsSound → tget s.tables.blocks b = some d →
    (tget s.channels b).occupied = true → (tget s.channels b).held = false →
    value.toNat < max 1 (d.threshold - d.hysteresis) → ¬ (value = 255 ∧ (tget s.feeds b).state = .on) →
    d.dwellOff ≤ (if (tget s.channels b).stale then 0 else (tget s.channels b).count) + 1 →
    tget s.trains t = .active n [⟨b, front⟩] speed overlong →
    ∃ u, exec (.levelSample dt (BitVec.ofNat 7 b.val) value (recordCheck false (BitVec.ofNat 7 b.val) value)) s = .next u ∧
      u.trains = tset s.trains t (.lost n ⟨b, front, (s.later dt).ms⟩ speed overlong) ∧ u.blockFlags = s.blockFlags ∧
      u.holder b = none ∧ u.isClear b = true ∧ .train t ∈ u.link.reports ∧ .block b ∈ u.link.reports

/-- When the channel of one of two or more blocks of a train's list changes to CLEAR (R57): the head or the tail leaves the
list, with the bridged entries that exposes; a middle block is bridged; and a stray block is stray no more (R59). -/
def Sys2Proof.Claims.blockLeavesItsTrain : Prop :=
  ∀ (s : State) (dt : Nat) (b : Fin 48) (d : BlockDef) (value : Byte), s.mode ≠ .config → s.trainsSound →
    tget s.tables.blocks b = some d → s.becomesClear b d value →
    let unbridged (l : List TrainBlock) : Tab BlockFlags 48 := tgen 48 fun a =>
      if a ∈ l.map (·.block) then { tget s.blockFlags a with bridged := false } else tget s.blockFlags a
    (∀ (t : Fin 24) n l speed overlong y, tget s.trains t = .active n l speed overlong →
      (∀ gone z rest, l = ⟨b, y⟩ :: (gone ++ z :: rest) → s.allBridged gone → s.bridged z.block = false →
        ∃ u, exec (sampleOf dt b value) s = .next u ∧
          u.trains = tset s.trains t (.active n (z :: rest) speed overlong) ∧ u.blockFlags = unbridged gone ∧
          .train t ∈ u.link.reports ∧ .block b ∈ u.link.reports) ∧
      (∀ rest z gone, l = rest ++ z :: gone ++ [⟨b, y⟩] → s.allBridged gone → s.bridged z.block = false →
        ∃ u, exec (sampleOf dt b value) s = .next u ∧
          u.trains = tset s.trains t (.active n (rest ++ [z]) speed overlong) ∧ u.blockFlags = unbridged gone ∧
          .train t ∈ u.link.reports ∧ .block b ∈ u.link.reports) ∧
      ∀ before after, l = before ++ ⟨b, y⟩ :: after → before ≠ [] → after ≠ [] →
        ∃ u, exec (sampleOf dt b value) s = .next u ∧ u.trains = s.trains ∧
          u.blockFlags = tset s.blockFlags b { tget s.blockFlags b with bridged := true } ∧
          .block b ∈ u.link.reports ∧ u.isClear b = false) ∧
    ((∀ t, b ∉ s.listOf t) → ∃ u, exec (sampleOf dt b value) s = .next u ∧ u.trains = s.trains ∧
      u.blockFlags = tset s.blockFlags b { tget s.blockFlags b with stray := none } ∧ .block b ∈ u.link.reports ∧
      u.isClear b = true)

/-- What the Train Register does when a block clears (R57 to R59). -/
def Obligations.SingleBlockClearsAndTrainIsLost : Prop := Sys2Proof.Claims.lastBlockClears ∧ Sys2Proof.Claims.blockLeavesItsTrain

/-- A block that becomes OCCUPIED, by its samples or by an overload, with exactly one candidacy joins that train's list as its
head: the list as it stands for a candidacy at the head, the list turned round for one at the tail (R52, R53). -/
def Sys2Proof.Claims.singleCandidacyGrows : Prop :=
  ∀ (s : State) (dt : Nat) (b : Fin 48) (d : BlockDef) (value : Byte) (x : Candidacy) (n : Nat) (l : List TrainBlock)
      (speed : Option Nat) (overlong : Bool),
    s.mode ≠ .config → tget s.tables.blocks b = some d →
    (tget s.channels b).occupied = false → (tget s.channels b).held = false →
    (value = 255 ∧ (tget s.feeds b).state = .on) ∨ (d.threshold ≤ value.toNat ∧
      d.dwellOn ≤ (if (tget s.channels b).stale then 0 else (tget s.channels b).count) + 1) →
    tget s.blockFlags b = ⟨none, false⟩ → (∀ t, b ∉ s.listOf t) → s.candidacies b = [x] →
    tget s.trains x.slot = .active n l speed overlong → l.length < 8 →
    ∃ u, exec (.levelSample dt (BitVec.ofNat 7 b.val) value (recordCheck false (BitVec.ofNat 7 b.val) value)) s = .next u ∧
      u.trains = tset s.trains x.slot (.active n
        (⟨b, x.across.other⟩ :: if x.atHead then l else l.reverse.map fun e => ⟨e.block, e.front.other⟩) speed overlong) ∧
      u.blockFlags = s.blockFlags ∧ .train x.slot ∈ u.link.reports ∧ .block b ∈ u.link.reports

/-- A block that becomes OCCUPIED and is not the one candidacy's gain (R50, R54 to R56): a bridged block is bridged no more; a
full list makes the block stray and the train OVERLONG; without a candidacy the one LOST train seen within the adoption window at
the block or beside it is adopted onto it; and with none or several to choose from the block is stray. -/
def Sys2Proof.Claims.otherBlocksAreSoughtATrain : Prop :=
  ∀ (s : State) (dt : Nat) (b : Fin 48) (d : BlockDef) (value : Byte), s.mode ≠ .config →
    tget s.tables.blocks b = some d → s.becomesOccupied b d value →
    let strayed (r : StrayReason) (trains : Tab Train 24) (marks : List Subject) : Prop :=
      ∃ u, exec (sampleOf dt b value) s = .next u ∧ u.trains = trains ∧
        u.blockFlags = tset s.blockFlags b { tget s.blockFlags b with stray := some r } ∧ u.isClear b = false ∧
        .block b ∈ u.link.reports ∧ ∀ x ∈ marks, x ∈ u.link.reports
    let offered := s.offeredTo dt b
    ((tget s.blockFlags b).bridged = true → ∃ u, exec (sampleOf dt b value) s = .next u ∧ u.trains = s.trains ∧
      u.blockFlags = tset s.blockFlags b { tget s.blockFlags b with bridged := false } ∧ .block b ∈ u.link.reports) ∧
    (tget s.blockFlags b = ⟨none, false⟩ → (∀ t, b ∉ s.listOf t) →
      (∀ x n l speed overlong, s.candidacies b = [x] → tget s.trains x.slot = .active n l speed overlong → 8 ≤ l.length →
        strayed .overlong (tset s.trains x.slot (.active n l speed true)) [.train x.slot]) ∧
      (∀ x y l, s.candidacies b = x :: y :: l → strayed .ambiguous s.trains []) ∧
      (s.candidacies b = [] →
        (offered = [] → strayed .noTrain s.trains []) ∧
        (∀ t front n seen speed overlong, offered = [(t, front)] → tget s.trains t = .lost n seen speed overlong →
          ∃ u, exec (sampleOf dt b value) s = .next u ∧
            u.trains = tset s.trains t (.active n [⟨b, front⟩] speed overlong) ∧ u.blockFlags = s.blockFlags ∧
            .train t ∈ u.link.reports ∧ .block b ∈ u.link.reports) ∧
        ∀ x y l, offered = x :: y :: l → strayed .ambiguous s.trains []))

/-- The neighbour across an end of a block, where no two roads share a position or a block and the turntable has two steps at
least, as R8 and R18 make it: the block that the walk of R48 or the join of R49 leads to, by the end it is entered by. -/
def Sys2Proof.Claims.neighbourIsFound : Prop :=
  ∀ (s : State) (b : Fin 48) (e : Side) (n : Fin 48) (y : Side),
    (∀ p q x z, tget s.tables.roads p = some x → tget s.tables.roads q = some z →
      x.position = z.position ∨ x.block = z.block → p = q) →
    (∀ tt, s.tables.turntable = some tt → 2 ≤ tt.r) →
    (s.neighbour b e = some (n, y) ↔ s.beside b e n y)

/-- The candidacies for a block (R51): one for each end across which an OCCUPIED or held neighbour lies and each ACTIVE train whose
head entry is that neighbour with the end facing the block in front, or whose tail entry has that end behind. -/
def Sys2Proof.Claims.candidaciesAreOffered : Prop :=
  ∀ (s : State) (b : Fin 48), (s.candidacies b).Nodup ∧
    ∀ c, c ∈ s.candidacies b ↔
      ∃ n y k l speed overlong, s.neighbour b c.across = some (n, y) ∧
        ((tget s.channels n).occupied = true ∨ (tget s.channels n).held = true) ∧
        tget s.trains c.slot = .active k l speed overlong ∧
        ((c.atHead = true ∧ l.head? = some ⟨n, y⟩) ∨
          (c.atHead = false ∧ l.getLast? = some ⟨n, y.other⟩ ∧ l.head? ≠ some ⟨n, y⟩))

/-- What the Train Register does when a block becomes OCCUPIED (R48 to R56). -/
def Obligations.TrainGrowsOntoTheBlock : Prop :=
  Sys2Proof.Claims.neighbourIsFound ∧ Sys2Proof.Claims.candidaciesAreOffered ∧ Sys2Proof.Claims.singleCandidacyGrows ∧
    Sys2Proof.Claims.otherBlocksAreSoughtATrain

/-! ## The Point Drive (chapter 4) -/

/-- THROW_POINT (R68, R69, R71, R79): the checks in their order. A request for the lie that a point at rest has, or that a
MOVING one moves to, queues nothing and removes the point's entry; one for another lie replaces that entry's target in its
place, or waits at the tail of the queue. With its group IDLE and nothing queued the move begins at once, with a setup time of 0
in PULSE. -/
def Obligations.ThrowPointAsksAMove : Prop :=
  ∀ (s : State) (dt : Nat) (tag : Byte) (k : Nat) (e : Sent Lie), s.hears tag →
    let c : Instr := .throwPoint dt tag (.fields ⟨k, e⟩)
    let refused (r : Reason) : Prop := exec c s = .next (s.answered dt tag (.refused r))
    (s.mode ≠ .run → refused .wrongMode) ∧
    (s.mode = .run → 64 ≤ k ∨ (∀ l, e ≠ .value l) → refused .badValue) ∧
    ∀ (p : Fin 64) (l : Lie), s.mode = .run → k = p.val → e = .value l →
      (tget s.tables.points p = none → refused .notDefined) ∧
      ∀ d, tget s.tables.points p = some d →
        let clear : Prop := ∀ b y, .blockEnd b y ∈ [d.toe, d.normal, d.reverse] → s.isClear b = true
        (0 < (tget s.points p).locks → refused .locked) ∧
        ((tget s.points p).locks = 0 → ¬ clear → refused .occupied) ∧
        ((tget s.points p).locks = 0 → clear → s.still →
          let g := tget s.groups d.group
          let u := s.answered dt tag .accepted
          let there : Prop := s.movingTarget p = some l ∨ (s.movingTarget p = none ∧ (tget s.points p).lie = some l)
          let queues (q : List (Fin 64 × Lie)) (marks : List Subject) : Prop :=
            s.comesTo c { u with groups := tset s.groups d.group { g with queue := q } } marks
          let waits : Prop := g.phase ≠ .idle ∨ g.paused = true
          (there → (∀ x ∈ g.queue, x.1 ≠ p) → waits ∨ g.queue = [] → s.comesTo c u []) ∧
          (¬ there → (∀ x ∈ g.queue, x.1 ≠ p) → waits → queues (g.queue ++ [(p, l)]) [.point p]) ∧
          (∀ before after' k, g.queue = before ++ (p, k) :: after' → (∀ x ∈ before ++ after', x.1 ≠ p) → waits →
            (there → queues (before ++ after') [.point p]) ∧
            (¬ there → k ≠ l → queues (before ++ (p, l) :: after') [.point p]) ∧
            (¬ there → k = l → s.comesTo c u [])) ∧
          (¬ there → g.queue = [] → ¬ waits → s.comesTo c (u.moveStarts d.group g p l []) [.point p]))

/-- The end of the setup time (R71): PULSE, with the point's lie UNKNOWN; and the end of the recovery time (R74): the group
leaves RECOVERY for IDLE once its move is decided, and begins its next move where one waits and it is not paused (R69). Neither
does anything to a group in another phase (log entry 3). -/
def Sys2Proof.Claims.setupAndRecoveryEnd : Prop :=
  ∀ (s : State) (dt : Nat) (g : Fin 8),
    let x := tget s.groups g
    (x.phase ≠ .setup ∨ x.phaseTimer = none → exec (.setupEnd dt g) s = .next (s.later dt)) ∧
    (x.phase ≠ .recovery ∨ x.phaseTimer = none → exec (.recoveryEnd dt g) s = .next (s.later dt)) ∧
    (∀ e m, s.still → x.phase = .setup → x.phaseTimer = some e → x.current = some m →
      let now := ((s.clock.plus dt).upTo e).us
      s.comesTo (.setupEnd dt g) { s with
        clock := (s.clock.plus dt).upTo e
        groups := tset s.groups g { x with
          phase := .pulse, current := some { m with phaseAt := now, pulseAt := some now }
          phaseTimer := some (now + 1000 * (tget s.tables.groups g).pulse)
          windowTimer :=
            if s.feedback m.point = .hold then some (now + 1000 * (tget s.tables.groups g).window) else none }
        points := tset s.points m.point { tget s.points m.point with lie := none } } [.point m.point]) ∧
    ∀ e, s.still → x.phase = .recovery → x.phaseTimer = some e →
      let u : State := { s with clock := (s.clock.plus dt).upTo e }
      let idle : GroupRec :=
        { x with phase := .idle, current := none, outcome := none, phaseTimer := none, windowTimer := none }
      (x.outcome = none → s.comesTo (.recoveryEnd dt g) { u with groups := tset s.groups g { x with phaseTimer := none } } []) ∧
      (x.outcome ≠ none → x.queue = [] ∨ x.paused = true ∨ s.mode ≠ .run →
        s.comesTo (.recoveryEnd dt g) { u with groups := tset s.groups g idle } []) ∧
      ∀ p l rest, x.outcome ≠ none → x.queue = (p, l) :: rest → x.paused = false → s.mode = .run →
        s.comesTo (.recoveryEnd dt g) (u.moveStarts g idle p l rest) [.point p]

/-- The end of the pulse time (R70 to R73) for each feedback mode: NONE decides SET; HOLD decides SET while the contact reads
the target, holds the pulse on while its window runs, and decides FAILED once the window is over; CONFIRM goes to RECOVERY
undecided with its confirm wait. A decision SET takes a queued entry for the new lie off the queue (R68). -/
def Obligations.PulseTimeEnds : Prop :=
  ∀ (s : State) (dt : Nat) (g : Fin 8) (e : Nat) (m : Move),
    let x := tget s.groups g
    s.still → x.phase = .pulse → x.phaseTimer = some e → x.current = some m → x.outcome = none →
    0 < (tget s.tables.groups g).recovery →
    let now := ((s.clock.plus dt).upTo e).us
    let recovery (o : Option MoveOutcome) (w : Timer) : GroupRec := { x with
      phase := .recovery, current := some { m with phaseAt := now }, outcome := o
      phaseTimer := some (now + 1000 * (tget s.tables.groups g).recovery), windowTimer := w }
    let u (h : GroupRec) (y : PointRec) : State := { s with
      clock := (s.clock.plus dt).upTo e, groups := tset s.groups g h, points := tset s.points m.point y }
    let y := tget s.points m.point
    let reads : Prop := (tget s.contacts m.point).stale = false ∧ (tget s.contacts m.point).reading = Lie.reading m.target
    let c : Instr := .pulseTimeEnd dt g
    let set : Prop := s.comesTo c (u { recovery (some .isSet) none with queue := x.queue.filter fun a => a != (m.point, m.target) }
      { y with lie := some m.target, failed := false }) [.point m.point]
    let fails : Prop := s.comesTo c (u (recovery (some .failed) none) { y with lie := none, failed := true }) [.point m.point]
    (s.feedback m.point = .none → set) ∧
    (s.feedback m.point = .hold →
      (reads → set) ∧ (¬ reads → (∀ w, x.windowTimer = some w → w ≤ now) → fails) ∧
      ∀ w, ¬ reads → x.windowTimer = some w → now < w → s.comesTo c (u { x with phaseTimer := none } y) []) ∧
    (s.feedback m.point = .confirm →
      s.comesTo c (u (recovery none (some (now + 1000 * (tget s.tables.groups g).window))) y) [])

/-- The end of a feedback window and of a confirm wait (R72 to R74): a HOLD pulse past its time ends, and a CONFIRM move that
nothing confirmed is decided, each FAILED, the group then beginning its next move where its recovery time is over; a window that
ends within the pulse time decides nothing. -/
def Sys2Proof.Claims.feedbackRunsOut : Prop :=
  ∀ (s : State) (dt : Nat) (g : Fin 8),
    let x := tget s.groups g
    (x.phase ≠ .pulse ∨ x.windowTimer = none → exec (.feedbackWindowEnd dt g) s = .next (s.later dt)) ∧
    (x.phase ≠ .recovery ∨ x.windowTimer = none → exec (.confirmWaitEnd dt g) s = .next (s.later dt)) ∧
    ∀ (e : Nat) (m : Move), s.still → x.windowTimer = some e → x.current = some m → x.outcome = none →
      0 < (tget s.tables.groups g).recovery →
      let now := ((s.clock.plus dt).upTo e).us
      let u (h : GroupRec) (y : PointRec) : State := { s with
        clock := (s.clock.plus dt).upTo e, groups := tset s.groups g h, points := tset s.points m.point y }
      let y := tget s.points m.point
      let failed := { y with lie := none, failed := true }
      (x.phase = .pulse → x.phaseTimer = none → s.comesTo (.feedbackWindowEnd dt g)
        (u { x with
          phase := .recovery, current := some { m with phaseAt := now }, outcome := some .failed
          phaseTimer := some (now + 1000 * (tget s.tables.groups g).recovery), windowTimer := none } failed)
        [.point m.point]) ∧
      (x.phase = .pulse → x.phaseTimer ≠ none →
        s.comesTo (.feedbackWindowEnd dt g) (u { x with windowTimer := none } y) []) ∧
      (x.phase = .recovery → x.phaseTimer ≠ none → s.comesTo (.confirmWaitEnd dt g)
        (u { x with outcome := some .failed, windowTimer := none } failed) [.point m.point]) ∧
      (x.phase = .recovery → x.phaseTimer = none →
        let idle : GroupRec := { x with phase := .idle, current := none, outcome := none, windowTimer := none }
        (x.queue = [] ∨ x.paused = true ∨ s.mode ≠ .run →
          s.comesTo (.confirmWaitEnd dt g) (u idle failed) [.point m.point]) ∧
        ∀ p l rest, x.queue = (p, l) :: rest → x.paused = false → s.mode = .run →
          s.comesTo (.confirmWaitEnd dt g) ((u idle failed).moveStarts g idle p l rest) [.point m.point, .point p])

/-- The timers of a drive group other than the pulse time: setup, recovery, feedback window and confirm wait (R70 to R74). -/
def Obligations.PointTimersEnd : Prop := Sys2Proof.Claims.setupAndRecoveryEnd ∧ Sys2Proof.Claims.feedbackRunsOut

/-! ## The Route Interlock (chapter 5) -/

/-- The takeable test (R89, R90), with what it asks of the entrance signal, of the blocks, of each point and of the deck; an
undefined route is not takeable. -/
def Sys2Proof.Claims.takeableTest : Prop :=
  ∀ (s : State) (r : Fin 64),
    (tget s.tables.routes r = none → s.takeable r = false) ∧
    ∀ d, tget s.tables.routes r = some d →
      (s.takeable r = true ↔
        (∀ q x, q ≠ r → tget s.tables.routes q = some x → (tget s.routes q).holds = true → x.entrance ≠ d.entrance) ∧
        (∀ b ∈ d.path ++ d.overlap, tget s.reservers b = none ∧ s.standsClear b) ∧
        (∀ x ∈ d.points, s.pointAllows x.point x.lie) ∧ (∀ x ∈ d.flank, s.pointAllows x.point x.lie) ∧
        ∀ q, d.turntable = some q → s.deckAllows r q)

/-- REQUEST_ROUTE from the host (R87, R88): the checks in their order; a request accepted in HALT waits; and so does one in RUN
that is not takeable, with nothing else waiting. -/
def Sys2Proof.Claims.requestIsCheckedAndQueued : Prop :=
  ∀ (s : State) (dt : Nat) (tag : Byte) (n : Nat), s.hears tag →
    let c : Instr := .requestRoute dt tag (.fields n)
    let refused (r : Reason) : Prop := exec c s = .next (s.answered dt tag (.refused r))
    (s.mode = .config → refused .wrongMode) ∧
    (s.mode ≠ .config → 64 ≤ n → refused .badValue) ∧
    ∀ r : Fin 64, s.mode ≠ .config → n = r.val →
      (tget s.tables.routes r = none → refused .notDefined) ∧
      ((tget s.tables.routes r).isSome = true →
        ((∀ x, tget s.routes r ≠ .free x) → refused .duplicate) ∧
        ∀ x, tget s.routes r = .free x →
          (16 ≤ s.queue.length → refused .queueFull) ∧
          (s.queue.length < 16 →
            let u : State := { s.answered dt tag .accepted with
              routes := tset s.routes r (.queued .host (s.later dt).ms), queue := s.queue ++ [r] }
            (s.mode.isHalt = true → s.work = Work.none → s.comesTo c u [.route r]) ∧
            (s.mode = .run → s.quiet → u.takeable r = false → s.comesTo c u [.route r])))

/-- REQUEST_ROUTE from the host, and the takeable test that decides whether the request waits (R87 to R90). -/
def Obligations.RouteRequestIsQueued : Prop := Sys2Proof.Claims.takeableTest ∧ Sys2Proof.Claims.requestIsCheckedAndQueued

/-- A takeable route is taken within its request (R88 to R92), whatever other routes hold: as `takenIn`; where it requires the
turntable and the deck does not stand so, step 4 of R91 asks for the move of R147 with the route as its origin. -/
def Sys2Proof.Claims.takeableRouteIsTaken : Prop :=
  ∀ (s : State) (dt : Nat) (tag : Byte) (r : Fin 64) (d : RouteDef) (x : FreeReason), s.hears tag → s.quiet →
    s.mode = .run → tget s.tables.routes r = some d → tget s.routes r = .free x →
    let u : State := { s.answered dt tag .accepted with
      routes := tset s.routes r (.queued .host (s.later dt).ms), queue := [r] }
    u.takeable r = true →
    let c : Instr := .requestRoute dt tag (.fields r.val)
    ((∀ q, d.turntable = some q → s.deck.at' q = true) →
      ∃ t, exec c s = .next t ∧ s.takenIn t r d false ∧ t.deck = s.deck ∧ t.steady = (s.answered dt tag .accepted).steady) ∧
    ∀ q tt road pos k, d.turntable = some q → s.deck.at' q = false → s.tables.turntable = some tt →
      tget s.tables.roads q.road = some road → tt.deckBlock ∈ d.path → s.deck.pos = some pos →
      bestOf (tt.candidates pos road.position (DeckEnd.ask q.side)) = some k →
      ∃ t, exec c s = .next t ∧ s.takenIn t r d true ∧ t.steady = (s.answered dt tag .accepted).steady ∧
        .turntable ∈ t.link.reports ∧
        (s.deck.boltOut = false → t.deck = { s.deck with
          state := .unlocking ⟨.route r, q.road, k.side, k.target, k.dir, k.distance, 0⟩ (s.clock.us + dt + 1000 * tt.bolt)
          align := none, locked := false, bolt := .driveOut })

/-- A SETTING route is SET by the last proof it lacks, and fails with a point that fails (R92, R93): the last move decided is
that of a point without feedback, and the failed one that of a point held on past its window. The approach timer starts with an
approach block that reads OCCUPIED then (R118). -/
def Sys2Proof.Claims.settingRouteIsDecided : Prop :=
  ∀ (s : State) (dt : Nat) (g : Fin 8) (m : Move) (r : Fin 64) (d : RouteDef) (asked : Bool) (marks : Marks), s.quiet →
    let x := tget s.groups g
    tget s.tables.routes r = some d → tget s.routes r = .setting asked marks → x.current = some m → x.outcome = none →
    x.phase = .pulse → x.queue = [] → (tget s.tables.points m.point).map (·.group) = some g →
    (∀ e, x.phaseTimer = some e → s.feedback m.point = .none → (m.point, m.target) ∈ d.locks →
      (∀ y ∈ d.locks, y = (m.point, m.target) ∨ (y.1 ≠ m.point ∧ s.provedIn y.1 y.2 = true)) →
      (∀ q, d.turntable = some q → s.deck.at' q = true) →
      ∃ t, exec (.pulseTimeEnd dt g) s = .next t ∧ tget t.routes r = .isSet true false marks ∧
        .route r ∈ t.link.reports ∧
        ∀ a, d.approach = some a → (tget t.signals d.entrance).release = some false ∧
          ((∀ q y, q ≠ r → tget s.tables.routes q = some y → y.entrance = d.entrance → (tget s.routes q).holds = false) →
            ∀ sd, tget s.tables.signals d.entrance = some sd → (tget t.signals d.entrance).timer =
              if (tget s.channels sd.block).occupied then some (((s.clock.plus dt).upTo e).us + 1000000 * a.release)
              else none)) ∧
    ∀ e, x.windowTimer = some e → x.phaseTimer = none → (∃ l, (m.point, l) ∈ d.locks) →
      ∃ t, exec (.feedbackWindowEnd dt g) s = .next t ∧ tget t.routes r = .free .pointFailed ∧
        .route r ∈ t.link.reports ∧ (tget t.points m.point).failed = true ∧
        (∀ b ∈ d.path ++ d.overlap, tget t.reservers b ≠ some r) ∧ (tget t.signals d.entrance).control = none ∧
        ∀ k, tget s.tables.cues k = .routeFreed r → tget t.cues k = true

/-- A SET route loses its proof with the contact of one of its points, and has it back when the contact reads the point's lie
again; and it loses it with the lock of the deck that it requires, and has it back with that (R77, R95, R161). While its proof is
lost its signal shows what R112 and R113 then give, where the signals showed that before (statement StepKeepsSignalsShow). -/
def Sys2Proof.Claims.setRouteFollowsProof : Prop :=
  (∀ (s : State) (dt : Nat) (r : Fin 64) (d : RouteDef) (q : DeckReq) (marks : Marks) (lost : Bool), s.quiet →
    s.mode ≠ .config → tget s.tables.routes r = some d → d.turntable = some q → s.deck.state = .idle →
    s.deck.align = some q →
    (s.deck.locked = true → s.deck.boltIn = true → tget s.routes r = .isSet true lost marks →
      ∃ t, exec (.boltInContact dt false) s = .next t ∧ tget t.routes r = .isSet false true marks ∧ .route r ∈ t.link.reports ∧
        (s.signalsShow → (tget t.signals d.entrance).aspect = t.settledAspect d.entrance)) ∧
    (s.deck.locked = false → s.deck.boltIn = false → (∀ y ∈ d.locks, s.provedIn y.1 y.2 = true) →
      tget s.routes r = .isSet false lost marks →
      ∃ t, exec (.boltInContact dt true) s = .next t ∧ tget t.routes r = .isSet true false marks ∧
        .route r ∈ t.link.reports)) ∧
  ∀ (s : State) (dt : Nat) (p : Fin 64) (x : PointDef) (l : Lie) (r : Fin 64) (d : RouteDef) (marks : Marks), s.quiet →
    s.mode ≠ .config → tget s.tables.points p = some x → x.feedback ≠ .none → tget s.tables.routes r = some d →
    (p, l) ∈ d.locks →
    (∀ e lost, s.provedIn p l = true → (tget s.contacts p).timer = some e → tget s.routes r = .isSet true lost marks →
      ∃ t, exec (.contactStale dt p) s = .next t ∧ tget t.routes r = .isSet false true marks ∧ .route r ∈ t.link.reports ∧
        (s.signalsShow → (tget t.signals d.entrance).aspect = t.settledAspect d.entrance)) ∧
    ∀ lost, s.proof p = none → (tget s.points p).lie = some l → s.movingTarget p = none → (tget s.points p).failed = false →
      (tget s.points p).asFound = false → (∀ y ∈ d.locks, y = (p, l) ∨ (y.1 ≠ p ∧ s.provedIn y.1 y.2 = true)) →
      (∀ q, d.turntable = some q → s.deck.at' q = true) → tget s.routes r = .isSet false lost marks →
      let value : Byte := if l = .normal then 1 else 2
      ∃ t, exec (.contactReading dt (BitVec.ofNat 7 p.val) value (recordCheck true (BitVec.ofNat 7 p.val) value)) s =
          .next t ∧
        tget t.routes r = .isSet true false marks ∧ .route r ∈ t.link.reports

/-- Queue examination (R88, R91): in RUN the queue, as it stands when the command has made its changes, is examined when a
request is added to it, a block becomes clear, a point move ends, a route frees its elements, a train is removed, the deck comes to
IDLE, overlap blocks are released, and the mode enters RUN from HALT (R105); in HALT none of these brings an examination. -/
def Sys2Proof.Claims.queueIsExamined : Prop :=
  ∀ (s : State) (dt : Nat), s.noRun → s.mode ≠ .config →
    let examines (c : Instr) (u : State) : Prop := ∃ t, exec c s = .next t ∧ (s.mode = .run → u.examined t) ∧
      (s.mode ≠ .run → t.queue = u.queue ∧ ∀ r ∈ u.queue, tget t.routes r = tget u.routes r)
    let now := s.later dt
    (∀ (tag : Byte) (r : Fin 64) (d : RouteDef) (x : FreeReason), s.hears tag → tget s.tables.routes r = some d →
      tget s.routes r = .free x → s.queue.length < 16 →
      examines (.requestRoute dt tag (.fields r.val))
        { now with routes := tset s.routes r (.queued .host now.ms), queue := s.queue ++ [r] }) ∧
    (∀ (b : Fin 48) (d : BlockDef) (value : Byte), tget s.tables.blocks b = some d → s.becomesClear b d value →
      (∀ t, b ∉ s.listOf t) →
      (∀ r x danger timer m, tget s.tables.routes r = some x → tget s.routes r = .entered danger timer m → b ∉ x.path) →
      examines (sampleOf dt b value) { now with
        channels := tset s.channels b { tget s.channels b with occupied := false }
        blockFlags := tset s.blockFlags b { tget s.blockFlags b with stray := none } }) ∧
    (∀ (g : Fin 8) (e : Nat) (m : Move), let x := tget s.groups g
      x.phase = .pulse → x.phaseTimer = some e → x.current = some m → x.outcome = none →
      0 < (tget s.tables.groups g).recovery → s.feedback m.point = .none →
      examines (.pulseTimeEnd dt g) { s with
        groups := tset s.groups g { x with
          outcome := some .isSet, queue := x.queue.filter fun a => a != (m.point, m.target) }
        points := tset s.points m.point { tget s.points m.point with lie := some m.target, failed := false } }) ∧
    (∀ (tag : Byte) (r : Fin 64) (d : RouteDef) (m : Marks), s.hears tag → tget s.tables.routes r = some d →
      (∃ x, tget s.routes r = .setting x m) ∨ (tget s.signals d.entrance).cleared = false ∧
        ∃ x y, tget s.routes r = .isSet x y m →
      examines (.cancelRoute dt tag (.fields r.val)) (now.freeing r d .cancelled)) ∧
    (∀ (tag : Byte) (n : Nat) (t : Fin 24), s.hears tag → s.trainsSound → Train.number (tget s.trains t) = some n →
      (∀ r x danger timer m, tget s.tables.routes r = some x → tget s.routes r = .entered danger timer m →
        ∀ b ∈ s.listOf t, b ∉ x.path) →
      examines (.removeTrain dt tag (.fields n)) { now with
        trains := tset s.trains t .free
        blockFlags := tgen 48 fun b =>
          if b ∈ s.listOf t then
            ⟨if (tget s.channels b).occupied then some .removed else (tget s.blockFlags b).stray, false⟩
          else tget s.blockFlags b }) ∧
    (∀ (m : MoveRec) (e : Nat), s.tables.turntable.isSome = true → s.deck.state = .locking m e → s.deck.boltIn = false →
      examines (.boltInContact dt true) { now with
        deck := { s.deck with state := .idle, pos := some m.target, align := some ⟨m.road, m.side⟩, locked := true } }) ∧
    (∀ (r : Fin 64) (d : RouteDef) (danger : Bool) (e : Nat) (m : Marks), tget s.tables.routes r = some d →
      tget s.routes r = .entered danger (.running e) m → (∃ k : Nat, m.path[k]? = some false) →
      (∃ b ∈ d.overlap, tget s.reservers b = some r) →
      examines (.overlapTimerExpiry dt r) { s with
        routes := tset s.routes r (.entered danger .expired { m with overlap := true })
        reservers := tgen 48 fun b =>
          if b ∈ d.overlap ∧ tget s.reservers b = some r then none else tget s.reservers b }) ∧
    ∀ tag : Byte, s.hears tag → s.mode.isHalt = true → (∀ g, (tget s.groups g).phase = .idle → (tget s.groups g).queue = []) →
      ∃ t, exec (.resume dt tag (.fields ())) s = .next t ∧ ({ now with mode := .run } : State).examined t

/-- A takeable route is taken, at once or when the queue is examined, and follows the proof of its points and the lock of its deck
(R77, R88 to R93, R95, R105). -/
def Obligations.TakeableRouteIsTaken : Prop :=
  Sys2Proof.Claims.takeableRouteIsTaken ∧ Sys2Proof.Claims.queueIsExamined ∧ Sys2Proof.Claims.settingRouteIsDecided ∧
    Sys2Proof.Claims.setRouteFollowsProof

/-- CANCEL_ROUTE (R101): the checks in their order, and the effect by the route's state, where it does not free elements. -/
def Obligations.CancelRouteByState : Prop :=
  ∀ (s : State) (dt : Nat) (tag : Byte) (n : Nat), s.hears tag →
    let c : Instr := .cancelRoute dt tag (.fields n)
    let refused (r : Reason) : Prop := exec c s = .next (s.answered dt tag (.refused r))
    (s.mode = .config → refused .wrongMode) ∧
    (s.mode ≠ .config → 64 ≤ n → refused .badValue) ∧
    ∀ r : Fin 64, s.mode ≠ .config → n = r.val →
      (tget s.tables.routes r = none → refused .notDefined) ∧
      ∀ d, tget s.tables.routes r = some d →
        (∀ x y m, tget s.routes r = .entered x y m → refused .locked) ∧
        (s.noRun →
          (∀ x, tget s.routes r = .free x → s.comesTo c (s.answered dt tag (.ack [])) []) ∧
          (∀ x m, tget s.routes r = .cancelling x m → s.comesTo c (s.answered dt tag (.ack [])) []) ∧
          (∀ x y, tget s.routes r = .queued x y → s.comesTo c { s.answered dt tag (.ack []) with
            routes := tset s.routes r (.free .cancelled), queue := s.queue.filter fun q => q != r
            cues := s.cued (.routeFreed r) } [.route r]) ∧
          ∀ x y m g, tget s.routes r = .isSet x y m → tget s.tables.signals d.entrance = some g →
            (tget s.signals d.entrance).cleared = true → s.isClear g.block = false →
            s.comesTo c { s.answered dt tag (.ack []) with
              routes := tset s.routes r (.cancelling (s.clock.us + dt + 1000000 * s.params.approachLock) m)
              signals := tset s.signals d.entrance { tget s.signals d.entrance with release := none, timer := none } }
              [.route r])

/-- FORCE_RELEASE's first checks, in their order (R103): the mode, the index, and whether the route is defined. -/
def Sys2Proof.Claims.forceReleaseIsChecked : Prop :=
  ∀ (s : State) (dt : Nat) (tag : Byte) (n : Nat), s.hears tag →
    let refused (x : Reason) : Prop := exec (.forceRelease dt tag (.fields n)) s = .next (s.answered dt tag (.refused x))
    (s.mode = .config → refused .wrongMode) ∧ (s.mode ≠ .config → 64 ≤ n → refused .badValue) ∧
    ∀ r : Fin 64, s.mode ≠ .config → n = r.val → tget s.tables.routes r = none → refused .notDefined

/-- A route that holds elements is freed (R85, R101, R102, R103): by CANCEL_ROUTE in SETTING, and in SET where the approach
condition does not hold; by FORCE_RELEASE in ENTERED with every path block clear of detection; and at the end of the
approach-lock time. Every block it reserves and every point it locks is given back, its ROUTE_FREED cues are set, and
FORCE_RELEASE of a defined route is refused by its state as R103 gives. -/
def Sys2Proof.Claims.heldElementsAreGivenBack : Prop :=
  ∀ (s : State) (dt : Nat) (r : Fin 64) (d : RouteDef), tget s.tables.routes r = some d →
    let freed (c : Instr) (reason : FreeReason) (u : State) : Prop :=
      ∃ t, exec c s = .next t ∧ s.freedIn t r d reason ∧ t.cues = s.cued (.routeFreed r) ∧ t.steady = u.steady
    (∀ tag : Byte, s.hears tag → s.mode ≠ .config →
      let cancel : Instr := .cancelRoute dt tag (.fields r.val)
      let force : Instr := .forceRelease dt tag (.fields r.val)
      let refused (x : Reason) : Prop := exec force s = .next (s.answered dt tag (.refused x))
      let ack := s.answered dt tag (.ack [])
      (s.quiet →
        (∀ x m, tget s.routes r = .setting x m → freed cancel .cancelled ack) ∧
        (∀ x y m g, tget s.routes r = .isSet x y m → tget s.tables.signals d.entrance = some g →
          (tget s.signals d.entrance).cleared = false ∨ s.isClear g.block = true → freed cancel .cancelled ack) ∧
        (∀ x y m, tget s.routes r = .entered x y m → (∀ b ∈ d.path, s.occupiedOrHeld b = false) →
          freed force .forced ack)) ∧
      (∀ x, s.work = Work.none → tget s.routes r = .free x → s.comesTo force ack []) ∧
      (∀ x y, tget s.routes r = .queued x y → refused .busy) ∧ (∀ x m, tget s.routes r = .setting x m → refused .busy) ∧
      (∀ x y m, tget s.routes r = .isSet x y m → refused .busy) ∧
      (∀ x m, tget s.routes r = .cancelling x m → refused .busy) ∧
      ∀ x y m b, tget s.routes r = .entered x y m → b ∈ d.path → s.occupiedOrHeld b = true → refused .occupied) ∧
    ((∀ x m, tget s.routes r ≠ .cancelling x m) → exec (.approachLockExpiry dt r) s = .next (s.later dt)) ∧
    ∀ e m, s.quiet → tget s.routes r = .cancelling e m →
      freed (.approachLockExpiry dt r) .cancelled { s with clock := (s.clock.plus dt).upTo e }

/-- FORCE_RELEASE's checks, and the ways in which a route that holds elements is freed (R85, R101 to R103). -/
def Obligations.HeldRouteIsFreed : Prop :=
  Sys2Proof.Claims.forceReleaseIsChecked ∧ Sys2Proof.Claims.heldElementsAreGivenBack

/-- The stack timeout of a QUEUED route (R87) and the overlap timer of an ENTERED one (R99, R100). An expiry without its timer
lets only time pass (log entry 3). -/
def Obligations.StackAndOverlapExpiry : Prop :=
  ∀ (s : State) (dt : Nat) (r : Fin 64),
    ((∀ x y, tget s.routes r ≠ .queued x y) ∨ s.params.stackTimeout = 0 →
      exec (.stackTimeoutExpiry dt r) s = .next (s.later dt)) ∧
    (∀ cls since, s.noRun → tget s.routes r = .queued cls since → s.params.stackTimeout ≠ 0 →
      let now := s.later dt
      let due := 1000 * (now.clock.us / 1000 + (1000 * s.params.stackTimeout - now.ageOf since))
      s.comesTo (.stackTimeoutExpiry dt r) { s with
        clock := (s.clock.plus dt).upTo due, routes := tset s.routes r (.free .expired)
        queue := s.queue.filter fun q => q != r, cues := s.cued (.routeFreed r) } [.route r]) ∧
    ((∀ x e m, tget s.routes r ≠ .entered x (.running e) m) →
      exec (.overlapTimerExpiry dt r) s = .next (s.later dt)) ∧
    ∀ (d : RouteDef) (danger : Bool) (e : Nat) (m : Marks), s.quiet → tget s.tables.routes r = some d →
      tget s.routes r = .entered danger (.running e) m →
      let u (x : RouteRec) : State := { s with
        clock := (s.clock.plus dt).upTo e, routes := tset s.routes r x
        reservers := tgen 48 fun b =>
          if b ∈ d.overlap ∧ tget s.reservers b = some r then none else tget s.reservers b }
      (m.path.all id = false → s.comesTo (.overlapTimerExpiry dt r)
        (u (.entered danger .expired { m with overlap := true })) [.route r]) ∧
      (m.path.all id = true → s.comesTo (.overlapTimerExpiry dt r) { u (.free .released) with
        signals := tset s.signals d.entrance { tget s.signals d.entrance with control := none }
        cues := s.cued (.routeFreed r) } [.route r])

/-- The first path block of a SET or CANCELLING route becomes OCCUPIED, by its samples or by an overload (R96, R99): the route is
ENTERED, at danger from CANCELLING, its ROUTE_ENTERED cues are set, and with one path block its overlap timer starts. -/
def Sys2Proof.Claims.routeIsEntered : Prop :=
  ∀ (s : State) (dt : Nat) (r : Fin 64) (d : RouteDef) (b : Fin 48) (x : BlockDef) (value : Byte), s.quiet →
    s.mode ≠ .config → tget s.tables.routes r = some d → d.path.head? = some b → tget s.tables.blocks b = some x →
    s.becomesOccupied b x value →
    let timer : OverlapTimer :=
      if d.path.length = 1 ∧ d.overlap ≠ [] then .running (s.clock.us + dt + 1000000 * s.params.overlapRelease) else .stopped
    let entered (danger : Bool) (m : Marks) : Prop :=
      ∃ t, exec (sampleOf dt b value) s = .next t ∧ tget t.routes r = .entered danger timer m ∧ .route r ∈ t.link.reports ∧
        (∀ q, (tget s.routes q).holds = false → tget t.routes q = tget s.routes q) ∧
        ∀ k, tget s.tables.cues k = .routeEntered r → tget t.cues k = true
    (∀ y z m, tget s.routes r = .isSet y z m → entered false m) ∧
    ∀ y m, tget s.routes r = .cancelling y m → entered true m

/-- Sequential release (R97, R100): a path block of an ENTERED route is released just when it is clear, every block before it
has been released, and the block after it, if there is one, is OCCUPIED or held. -/
def Sys2Proof.Claims.blocksReleaseInSequence : Prop :=
  ∀ (s : State) (r : Fin 64) (d : RouteDef) (danger : Bool) (timer : OverlapTimer) (m : Marks) (k : Nat) (b : Fin 48),
    tget s.tables.routes r = some d → tget s.routes r = .entered danger timer m → d.path[k]? = some b → k < 8 →
    m.path.length = d.path.length → m.path[k]? = some false →
    let goes : Prop := s.isClear b = true ∧ (∀ j, j < k → m.path[j]? = some true) ∧
      ∀ a, d.path[k + 1]? = some a → s.occupiedOrHeld a = true
    (¬ goes → s.testRelease r k = s.testReleased r) ∧
    (goes → tget (s.testRelease r k).reservers b ≠ some r ∧ .route r ∈ (s.testRelease r k).link.reports ∧
      (tget (s.testRelease r k).routes r = .free .released ∨
        ∃ y m', tget (s.testRelease r k).routes r = .entered danger y m' ∧ m'.path[k]? = some true))

/-- Sequential release by the commands that clear a block (R47, R97 to R100): a sample that clears a path block in no train's list
or at a train's tail and not stray, and REMOVE_TRAIN of the train that alone keeps a path block from being clear. Where no other
route that holds elements has the block in its path, the release is as `releasedIn`. -/
def Sys2Proof.Claims.clearedBlocksAreReleased : Prop :=
  ∀ (s : State) (dt : Nat) (r : Fin 64) (d : RouteDef) (danger : Bool) (timer : OverlapTimer) (m : Marks) (k : Nat)
      (b : Fin 48), s.quiet → s.mode ≠ .config →
    tget s.tables.routes r = some d → tget s.routes r = .entered danger timer m → d.path[k]? = some b → k < 8 →
    d.path.Nodup → m.path.length = d.path.length → m.path[k]? = some false →
    let goes : Prop := (∀ j, j < k → m.path[j]? = some true) ∧ ∀ a, d.path[k + 1]? = some a → s.occupiedOrHeld a = true
    let alone : Prop := ∀ q x, q ≠ r → tget s.tables.routes q = some x → (tget s.routes q).holds = true → b ∉ x.path
    let released (c : Instr) : Prop := ∃ t, exec c s = .next t ∧
      (¬ goes → tget t.routes r = tget s.routes r ∧ (alone → ∀ p, (tget t.points p).locks = (tget s.points p).locks)) ∧
      (goes → tget t.reservers b ≠ some r ∧ .route r ∈ t.link.reports ∧
        (tget t.routes r = .free .released ∨
          ∃ y m', tget t.routes r = .entered danger y m' ∧ m'.path[k]? = some true) ∧
        (alone → (∀ a, d.path[k + 1]? = some a → (tget s.channels a).occupied = true) → s.releasedIn t r d danger timer m k b dt))
    (∀ x value, tget s.tables.blocks b = some x → s.becomesClear b x value →
      ((∀ t, b ∉ s.listOf t) ∨
        ∃ t n before z y speed overlong, tget s.trains t = .active n (before ++ [z, ⟨b, y⟩]) speed overlong ∧
          s.bridged z.block = false ∧ z.block ≠ b ∧ (∀ e ∈ before, e.block ≠ b) ∧ (tget s.blockFlags b).stray = none ∧
          ∀ q, q ≠ t → b ∉ s.listOf q) →
      released (sampleOf dt b value)) ∧
    ∀ (tag : Byte) (t : Fin 24) n, s.hears tag → s.trainsSound → Train.number (tget s.trains t) = some n →
      b ∈ s.listOf t → (tget s.channels b).occupied = false → (tget s.blockFlags b).stray = none →
      (∀ a ∈ s.listOf t, a ≠ b → (tget s.channels a).occupied = true) →
      released (.removeTrain dt tag (.fields n))

/-- A path block of an ENTERED route after the first becomes OCCUPIED, by its samples or by an overload (R97 to R99): the block
before it is released where it is clear and those before it have been, with the points whose release index is that block's, and
the last path block starts an overlap timer that has not started. -/
def Sys2Proof.Claims.occupiedBlocksReleaseTheOneBefore : Prop :=
  ∀ (s : State) (dt : Nat) (r : Fin 64) (d : RouteDef) (danger : Bool) (timer : OverlapTimer) (m : Marks) (k : Nat)
      (a b : Fin 48) (x : BlockDef) (value : Byte), s.quiet → s.mode ≠ .config →
    tget s.tables.routes r = some d → tget s.routes r = .entered danger timer m → d.path[k]? = some a →
    d.path[k + 1]? = some b → k < 8 → d.path.Nodup → m.path.length = d.path.length → m.path[k + 1]? = some false →
    (∀ q y, q ≠ r → tget s.tables.routes q = some y → (tget s.routes q).holds = true → b ∉ y.path) →
    tget s.tables.blocks b = some x → s.becomesOccupied b x value →
    let started : OverlapTimer :=
      if timer = .stopped ∧ k + 2 = d.path.length ∧ d.overlap ≠ [] then
        .running (s.clock.us + dt + 1000000 * s.params.overlapRelease)
      else timer
    let goes : Prop := m.path[k]? = some false ∧ s.isClear a = true ∧ ∀ j, j < k → m.path[j]? = some true
    ∃ t, exec (sampleOf dt b value) s = .next t ∧ (goes → s.releasedIn t r d danger started m k a dt) ∧
      (¬ goes → tget t.routes r = .entered danger started m ∧ (started ≠ timer → .route r ∈ t.link.reports) ∧
        ∀ p, (tget t.points p).locks = (tget s.points p).locks)

/-- The entry of a route and its sequential release (R96 to R100). -/
def Obligations.RoutesAreEnteredAndReleased : Prop :=
  Sys2Proof.Claims.routeIsEntered ∧ Sys2Proof.Claims.blocksReleaseInSequence ∧
    Sys2Proof.Claims.clearedBlocksAreReleased ∧ Sys2Proof.Claims.occupiedBlocksReleaseTheOneBefore

/-! ## The Aspect Unit (chapter 6) -/

/-- The settled aspects are the one assignment in which every signal shows what R112 and R113 give from the inputs and the
other signals' aspects: it exists and no other does, rings of routes included (R115). -/
def Obligations.AspectsAreTheOneAssignment : Prop :=
  ∀ (s : State) (f : Fin 32 → Aspect), (∀ g, f g = (s.aspectCase g).aspect f) ↔ f = s.settledAspect

/-- Which case of R112 decides a signal's aspect. -/
def Sys2Proof.Claims.aspectCasesFollowTheInputs : Prop :=
  ∀ (s : State) (g : Fin 32),
    (tget s.tables.signals g = none → s.aspectCase g = .fixed .dark) ∧
    ∀ d, tget s.tables.signals g = some d →
      let online : Prop := (tget s.modules d.lampModule).state = .online
      (s.mode = .config ∨ ¬ online → s.aspectCase g = .fixed .dark) ∧
      (s.mode.isHalt = true → online → s.aspectCase g = .fixed .danger) ∧
      (s.mode = .run → online →
        (∀ r rd m, (tget s.signals g).control = some r → tget s.tables.routes r = some rd →
          tget s.routes r = .isSet true false m → (∀ b ∈ rd.path ++ rd.overlap, s.isClear b = true) →
          rd.approach = none ∨ (tget s.signals g).release = some true →
          s.aspectCase g = .proceed d.aspects rd.exit) ∧
        ((∀ r rd m, (tget s.signals g).control = some r → tget s.tables.routes r = some rd →
          tget s.routes r = .isSet true false m → rd.approach = none ∨ (tget s.signals g).release = some true →
          ∃ b ∈ rd.path ++ rd.overlap, s.isClear b = false) → s.aspectCase g = .fixed .danger))

/-- The proceed aspect: one step above the exit signal's, fitted to the head (R113). -/
def Sys2Proof.Claims.proceedAspectStepsUp : Prop :=
  ∀ (shown : Fin 32 → Aspect) (e : Fin 32),
    let four (x : Option (Fin 32)) : Aspect := (AspectCase.proceed 4 x).aspect shown
    let three (x : Option (Fin 32)) : Aspect := (AspectCase.proceed 3 x).aspect shown
    let two (x : Option (Fin 32)) : Aspect := (AspectCase.proceed 2 x).aspect shown
    (four none = .caution ∧ three none = .caution ∧ two none = .clear) ∧
    (shown e = .dark ∨ shown e = .danger →
      four (some e) = .caution ∧ three (some e) = .caution ∧ two (some e) = .clear) ∧
    (shown e = .caution → four (some e) = .prelim ∧ three (some e) = .clear ∧ two (some e) = .clear) ∧
    (shown e = .prelim ∨ shown e = .clear →
      four (some e) = .clear ∧ three (some e) = .clear ∧ two (some e) = .clear)

/-- A signal's aspect by R112 and R113: the case its inputs decide, and the proceed aspect. -/
def Obligations.AspectFollowsTheRule : Prop := Sys2Proof.Claims.aspectCasesFollowTheInputs ∧ Sys2Proof.Claims.proceedAspectStepsUp

/-- The approach timer's start and its discard (R118): while the controlling route is SET and the release flag is clear, the
approach block becoming OCCUPIED starts the timer for the route's release time, and its becoming CLEAR discards it. -/
def Sys2Proof.Claims.approachTimerFollowsTheBlock : Prop :=
  ∀ (s : State) (dt : Nat) (g : Fin 32) (d : SignalDef) (r : Fin 64) (rd : RouteDef) (a : ApproachDef) (x : BlockDef)
      (value : Byte), s.quiet → s.mode ≠ .config → tget s.tables.signals g = some d →
    (tget s.signals g).control = some r → (tget s.signals g).release = some false → tget s.tables.routes r = some rd →
    rd.approach = some a → (∃ y z m, tget s.routes r = .isSet y z m) → d.block ∉ rd.path →
    (∀ q e, q ≠ r → tget s.tables.routes q = some e → e.entrance = g → (tget s.routes q).holds = false) →
    tget s.tables.blocks d.block = some x →
    let timer (e : Timer) : Prop := ∃ t, exec (sampleOf dt d.block value) s = .next t ∧
      (tget t.signals g).timer = e ∧ (tget t.signals g).release = some false ∧
      ((tget s.signals g).timer ≠ e → .signal g ∈ t.link.reports)
    (s.becomesOccupied d.block x value → timer (some (s.clock.us + dt + 1000000 * a.release))) ∧
    (s.becomesClear d.block x value → timer none)

/-- The approach timer's expiry sets the release flag (R118); and a trap result offered to a signal that awaits its release for
that trap sets the flag at or below the limit, and is counted as an overspeed above it, where it is toward the signal (R117,
R119). -/
def Sys2Proof.Claims.approachIsReleased : Prop :=
  (∀ (s : State) (dt : Nat) (g : Fin 32),
    ((tget s.signals g).timer = none → exec (.approachTimerExpiry dt g) s = .next (s.later dt)) ∧
    ∀ e, s.work = Work.none → (tget s.signals g).timer = some e →
      s.comesTo (.approachTimerExpiry dt g) { s with
        clock := (s.clock.plus dt).upTo e
        signals := tset s.signals g { tget s.signals g with release := some true, timer := none } } [.signal g]) ∧
  ∀ (s : State) (trap : Fin 4) (b : Fin 48) (e : Side) (v : Nat) (g : Fin 32),
    let x := tget s.signals g
    let y := tget (s.aspectTakesResult trap b e v).signals g
    let offered (d : SignalDef) (a : ApproachDef) : Prop :=
      tget s.tables.signals g = some d ∧ x.release = some false ∧
        (∃ r rd, x.control = some r ∧ tget s.tables.routes r = some rd ∧ rd.approach = some a) ∧ a.trap = trap ∧
        ((b = d.block ∧ e = d.stands) ∨ (b ≠ d.block ∧ s.neighbour b e = some (d.block, d.stands.other)))
    (∀ d a, offered d a → v ≤ a.limit → y = { x with release := some true, timer := none }) ∧
    (∀ d a, offered d a → a.limit < v → y = { x with overspeeds := x.overspeeds + 1, lastOverspeed := some v }) ∧
    ((∀ d a, ¬ offered d a) → y = x)

/-- Approach control (R117 to R119). -/
def Obligations.ApproachControlReleases : Prop :=
  Sys2Proof.Claims.approachTimerFollowsTheBlock ∧ Sys2Proof.Claims.approachIsReleased

/-! ## The Gate Timer (chapter 7) -/

/-- The scale speed of a completed timing (R135): 36 000 × S × d ÷ t to the nearest whole number, halves up, 9999 for t = 0 and
for anything above it; and the 36-bit bound of its product. -/
def Obligations.ScaleSpeedIsRounded : Prop :=
  ∀ d S t : Nat, 10 ≤ d → d ≤ 2000 → 1 ≤ S → S ≤ 220 → t ≤ 10000000 →
    scaleSpeed d S t ≤ 9999 ∧ (t = 0 → scaleSpeed d S t = 9999) ∧
    (1 ≤ t → (∀ q, 2 * t * q ≤ 72000 * S * d + t → 72000 * S * d + t < 2 * t * (q + 1) → scaleSpeed d S t = min q 9999) ∧
      ∃ q, 2 * t * q ≤ 72000 * S * d + t ∧ 72000 * S * d + t < 2 * t * (q + 1)) ∧
    72000 * S * d + t < 2 ^ 35

/-- A gate edge in either direction, stamped with the time base as it stands then (R126, R128, R131, R132, R134): discarded in
CONFIG and without a trap; counted by the filter; and, with the hit it gives, taken by the trap: a timing starts, or restarts at
its own gate, and HOLDOFF disregards it. -/
def Sys2Proof.Claims.gateEdgesAreFiltered : Prop :=
  ∀ (s : State) (dt : Nat) (g : Fin 8) (level : Bool), s.work = Work.none →
    let c : Instr := .gateEdge dt g level
    let stamp : Stamp := s.clock.base + BitVec.ofNat 32 dt
    let trap : Fin 4 := ⟨g.val / 2, by omega⟩
    (s.mode = .config ∨ tget s.tables.traps trap = none → s.comesTo c (s.later dt) []) ∧
    ∀ d, s.mode ≠ .config → tget s.tables.traps trap = some d →
      let expiry : Stamp := stamp + BitVec.ofNat 32 (1000 * d.quiet)
      let put (f : Filter) : State := { s.later dt with filters := tset s.filters g f }
      (tget s.filters g = .quiet → 1 < d.edges → s.comesTo c (put (.counting 1 expiry)) []) ∧
      (∀ n e, tget s.filters g = .counting n e → n + 1 < d.edges → s.comesTo c (put (.counting (n + 1) expiry)) []) ∧
      (∀ e, tget s.filters g = .spent e → s.comesTo c (put (.spent expiry)) []) ∧
      ((tget s.filters g = .quiet ∧ d.edges ≤ 1) ∨
          (∃ n e, tget s.filters g = .counting n e ∧ d.edges ≤ n + 1) →
        let x := tget s.traps trap
        let dir : TrapDir := if g.val % 2 = 0 then .ab else .ba
        let timing (overwritten : Bool) : State := { put (.spent expiry) with
          traps := tset s.traps trap { x with
            state := .timing dir stamp overwritten (stamp + BitVec.ofNat 32 10000000) } }
        (x.state = .idle → s.comesTo c (timing false) [.trap trap]) ∧
        (∀ t0 o e, x.state = .timing dir t0 o e → s.comesTo c (timing true) [.trap trap]) ∧
        (x.state = .holdoff → s.comesTo c (put (.spent expiry)) []))

/-- A hit on the other gate, be it the first edge or the last of those the trap counts, completes the timing (R128, R132, R135 to
R137): the result is recorded, replaces the last speed of the
ACTIVE train that holds the trap block (R63), sets the TRAP_RESULT cues, and shows on text line 2 where the display trap names
the trap (R186); it is offered to the signals (R119), and nothing else changes. -/
def Sys2Proof.Claims.timingCompletes : Prop :=
  ∀ (s : State) (dt : Nat) (g : Fin 8) (level : Bool) (t0 e : Stamp) (overwritten : Bool) (d : TrapDef), s.noRun →
    s.mode ≠ .config → tget s.tables.traps ⟨g.val / 2, by omega⟩ = some d →
    (tget s.filters g = .quiet ∧ d.edges ≤ 1) ∨ (∃ n e', tget s.filters g = .counting n e' ∧ d.edges ≤ n + 1) →
    let trap : Fin 4 := ⟨g.val / 2, by omega⟩
    let stamp : Stamp := s.clock.base + BitVec.ofNat 32 dt
    let x := tget s.traps trap
    x.state = .timing (if g.val % 2 = 0 then .ba else .ab) t0 overwritten e →
    let v := scaleSpeed d.distance s.params.scaleDivisor (stamp - t0).toNat
    let toward := if g.val % 2 = 0 then d.abEnd.other else d.abEnd
    let r : TrapResult := ⟨v, toward, (stamp - t0).toNat, overwritten, x.results + 1⟩
    ∃ t, exec (.gateEdge dt g level) s = .next t ∧ .trap trap ∈ t.link.reports ∧
      t.calm = ({ s.later dt with
        signals := (s.aspectTakesResult trap d.block toward v).signals
        filters := tset s.filters g (.spent (stamp + BitVec.ofNat 32 (1000 * d.quiet)))
        traps := tset s.traps trap { x with
          state := .holdoff, last := some r, results := x.results + 1, outcome := some .result }
        trains := match s.holder d.block with
          | some q =>
            match tget s.trains q with
            | .active n l _ o => tset s.trains q (.active n l (some v) o)
            | _ => s.trains
          | none => s.trains
        cues := s.cued (.trapResult trap)
        text := if s.params.displayTrap = some trap then
            { s.text with line2 := speedLine v, hold := some (s.clock.us + dt + 1000000 * s.params.speedHold) }
          else s.text } : State).calm

/-- GATE_EDGE: the filter, the trap, and the result (R63, R126, R128, R131, R132, R134 to R137, R186). -/
def Obligations.GateEdgesTimeTrains : Prop := Sys2Proof.Claims.gateEdgesAreFiltered ∧ Sys2Proof.Claims.timingCompletes

/-- A quiet timer's expiry (R129, R134): the filter enters QUIET, and with both filters of the trap QUIET a trap in HOLDOFF
enters IDLE. A trap's timeout (R133): the timing is abandoned and counted. Nothing else changes, and an expiry without its
timer lets only time pass (log entry 3). -/
def Obligations.GateTimersRunOut : Prop :=
  ∀ (s : State) (dt : Nat),
    (∀ g : Fin 8, tget s.filters g = .quiet → exec (.quietTimerExpiry dt g) s = .next (s.later dt)) ∧
    (∀ (g : Fin 8) (e : Stamp), (∃ n, tget s.filters g = .counting n e) ∨ tget s.filters g = .spent e →
      let trap : Fin 4 := ⟨g.val / 2, by omega⟩
      let other : Fin 8 := ⟨if g.val % 2 = 0 then g.val + 1 else g.val - 1, by have := g.isLt; split <;> omega⟩
      let u : State := { s with
        clock := (s.clock.plus dt).upToStamp e, filters := tset s.filters g .quiet }
      exec (.quietTimerExpiry dt g) s =
        if (tget s.traps trap).state = .holdoff ∧ tget s.filters other = .quiet then
          .next { u with
            traps := tset s.traps trap { tget s.traps trap with state := .idle }
            link := { s.link with
              reports := if .trap trap ∈ s.link.reports then s.link.reports else s.link.reports ++ [.trap trap] } }
        else .next u) ∧
    (∀ t : Fin 4, (∀ dir t0 o e, (tget s.traps t).state ≠ .timing dir t0 o e) →
      exec (.trapTimeout dt t) s = .next (s.later dt)) ∧
    ∀ (t : Fin 4) dir t0 o (e : Stamp), (tget s.traps t).state = .timing dir t0 o e →
      exec (.trapTimeout dt t) s = .next { s with
        clock := (s.clock.plus dt).upToStamp e
        traps := tset s.traps t { tget s.traps t with
          state := .idle, timeouts := (tget s.traps t).timeouts + 1, outcome := some .timeout }
        link := { s.link with
          reports := if .trap t ∈ s.link.reports then s.link.reports else s.link.reports ++ [.trap t] } }

/-! ## The Turntable Drive (chapter 8) -/

/-- Targets, distances and the barrier (R145, R146): the distances either way add up to R, or are both 0 at the target; under the
barrier a target ahead is reached FORWARD and one behind REVERSE, without passing 0, so that a move is always allowed. -/
def Obligations.DeckDistances : Prop :=
  ∀ (t : TurntableDef) (p x target : Nat), 2 ≤ t.r → t.r % 2 = 0 → p < t.r → x < t.r → target < t.r →
    t.targetOf p .a = p ∧ t.targetOf p .b = (p + t.r / 2) % t.r ∧ t.targetOf p .b < t.r ∧
    ((t.dist x target .forward : Nat) : Int) = ((target : Int) - x) % t.r ∧
    ((t.dist x target .reverse : Nat) : Int) = ((x : Int) - target) % t.r ∧
    t.dist x target .forward + t.dist x target .reverse = (if x = target then 0 else t.r) ∧
    (∀ d, t.barrier = false → t.allowed x (t.dist x target d) d = true) ∧
    (∀ d, t.barrier = true → (t.allowed x d .forward = false ↔ t.r - 1 < x + d) ∧
      (t.allowed x d .reverse = false ↔ x < d)) ∧
    (t.barrier = true →
      (x ≤ target → t.dist x target .forward = target - x ∧ t.allowed x (t.dist x target .forward) .forward = true) ∧
      (target ≤ x → t.dist x target .reverse = x - target ∧ t.allowed x (t.dist x target .reverse) .reverse = true)) ∧
    ∃ d, t.allowed x (t.dist x target d) d = true

/-- The choice of a move (R147): some pair is always chosen; it is allowed, no allowed pair is nearer, of those as near none has
end A where it has B, and of those with its end none is FORWARD where it is REVERSE; and with the barrier off it lies within half
a turn. -/
def Sys2Proof.Claims.nearestMoveIsChosen : Prop :=
  ∀ (t : TurntableDef) (x p : Nat) (e : DeckAsk), 2 ≤ t.r → t.r % 2 = 0 → p < t.r → x < t.r →
    ∃ c, bestOf (t.candidates x p e) = some c ∧
      (e = .a → c.side = .a) ∧ (e = .b → c.side = .b) ∧ c.target = t.targetOf p c.side ∧
      c.distance = t.dist x c.target c.dir ∧ t.allowed x c.distance c.dir = true ∧
      (t.barrier = false → c.distance ≤ t.r / 2) ∧
      ∀ (side : DeckEnd) (d : StepDir), (e = .any ∨ side = c.side) →
        let n := t.dist x (t.targetOf p side) d
        t.allowed x n d = true → c.distance ≤ n ∧
          (n = c.distance → (c.side = .b → side = .b) ∧ (side = c.side → c.dir = .reverse → d = .reverse))

/-- The ramp (R148): the rate rises with the steps made and falls with the steps left, between v_min and v_max, the last step at
v_min; an interval is the nearest whole number of µs, halves up, and the table's ranges keep it within 50 to 65 535 µs unheld. -/
def Sys2Proof.Claims.rampRatesAndIntervals : Prop :=
  (∀ (t : TurntableDef) (s rem : Nat), t.vMin ≤ t.vMax → 1 ≤ rem →
    t.vMin ≤ t.rate s rem ∧ t.rate s rem ≤ t.vMax ∧ t.rate s 1 = t.vMin ∧ t.rate 0 rem = t.vMin ∧
    (t.vMin + t.increment * min s (rem - 1) ≤ t.vMax → t.rate s rem = t.vMin + t.increment * min s (rem - 1)) ∧
    (t.vMax ≤ t.vMin + t.increment * min s (rem - 1) → t.rate s rem = t.vMax)) ∧
  ∀ rate : Nat, 16 ≤ rate → rate ≤ 20000 →
    50 ≤ interval rate ∧ interval rate ≤ 62500 ∧
      2 * rate * interval rate ≤ 2000000 + rate ∧ 2000000 + rate < 2 * rate * (interval rate + 1)

/-- The choice of a deck move and its ramp (R147, R148). -/
def Obligations.MoveIsChosenAndRamped : Prop := Sys2Proof.Claims.nearestMoveIsChosen ∧ Sys2Proof.Claims.rampRatesAndIntervals

/-- TURN from the host (R143, R144, R150): the checks in their order; ACK with the deck there already; otherwise ACCEPTED, and
the deck enters UNLOCKING with the move of R147, also where it stands at the road by its other end. -/
def Sys2Proof.Claims.turnStartsAMove : Prop :=
  ∀ (s : State) (dt : Nat) (tag : Byte) (n : Nat) (e : Sent DeckAsk), s.hears tag →
    let c : Instr := .turn dt tag (.fields ⟨n, e⟩)
    let refused (r : Reason) : Prop := exec c s = .next (s.answered dt tag (.refused r))
    (s.mode ≠ .run → refused .wrongMode) ∧
    (s.mode = .run → 24 ≤ n ∨ (∀ ask, e ≠ .value ask) → refused .badValue) ∧
    ∀ (q : Fin 24) (ask : DeckAsk), s.mode = .run → n = q.val → e = .value ask →
      (s.tables.turntable = none ∨ tget s.tables.roads q = none → refused .notDefined) ∧
      ∀ t d, s.tables.turntable = some t → tget s.tables.roads q = some d →
        (s.deck.state.busy = true → refused .busy) ∧
        (s.deck.state = .unhomed ∨ (∃ k, s.deck.state = .faulted k) → refused .notHomed) ∧
        (s.deck.state = .idle ∨ s.deck.state = .stopped →
          let locked : Prop := ∃ r rd, (tget s.routes r).holds = true ∧ tget s.tables.routes r = some rd ∧ t.deckBlock ∈ rd.path
          let occupied : Prop := (tget s.channels t.deckBlock).occupied = true ∧
            ∃ al y b z, s.deck.joined = some al ∧ s.tables.fromDeck al y = some (b, z) ∧ (tget s.channels b).occupied = true
          (locked → refused .locked) ∧ (¬ locked → occupied → refused .occupied) ∧
          (¬ locked → ¬ occupied → s.still →
            (∀ side, s.deck.joined = some ⟨q, side⟩ → (ask = .any ∨ (ask = .a ∧ side = .a) ∨ (ask = .b ∧ side = .b)) →
              s.comesTo c (s.answered dt tag (.ack [])) []) ∧
            ∀ x k, (∀ side, s.deck.joined = some ⟨q, side⟩ → ¬ (ask = .any ∨ (ask = .a ∧ side = .a) ∨ (ask = .b ∧ side = .b))) →
              s.deck.boltOut = false → s.deck.pos = some x →
              bestOf (t.candidates x d.position ask) = some k →
              s.comesTo c { s.answered dt tag .accepted with
                deck := { s.deck with
                  state := .unlocking ⟨.host, q, k.side, k.target, k.dir, k.distance, 0⟩
                    (s.clock.us + dt + 1000 * t.bolt)
                  align := none, locked := false, bolt := .driveOut } } [.turntable]))

/-- TURN and HOME with the bolt-out contact already closed (R150, R151, R152, R158): the bolt part ends within the request. -/
def Sys2Proof.Claims.boltIsOutAlready : Prop :=
  ∀ (s : State) (dt : Nat) (tag : Byte) (t : TurntableDef), s.hears tag → s.still → s.mode = .run →
    s.tables.turntable = some t → s.deck.boltOut = true →
    let now := s.clock.us + dt
    let occupied : Prop := (tget s.channels t.deckBlock).occupied = true ∧
      ∃ al y b z, s.deck.joined = some al ∧ s.tables.fromDeck al y = some (b, z) ∧ (tget s.channels b).occupied = true
    ¬ occupied →
    let u (d : Deck) : State := { s.answered dt tag .accepted with deck := d }
    let out : Deck := { s.deck with align := none, locked := false, bolt := .off, relay := .bothOpen }
    (∀ (q : Fin 24) (ask : DeckAsk) d x k, tget s.tables.roads q = some d → s.deck.state = .idle ∨ s.deck.state = .stopped →
      (∀ side, s.deck.joined = some ⟨q, side⟩ → ¬ (ask = .any ∨ (ask = .a ∧ side = .a) ∨ (ask = .b ∧ side = .b))) →
      s.deck.pos = some x → bestOf (t.candidates x d.position ask) = some k →
      let c : Instr := .turn dt tag (.fields ⟨q.val, .value ask⟩)
      let m : MoveRec := ⟨.host, q, k.side, k.target, k.dir, k.distance, 0⟩
      (k.distance = 0 → s.comesTo c (u { out with
        state := .settling m (if t.settle = 0 then .relay (now + 1000 * t.deadtime) else .settle (now + 1000 * t.settle)) })
        [.turntable]) ∧
      (0 < k.distance →
        (s.deck.lastDir = none ∨ s.deck.lastDir = some k.dir →
          let rate := t.rate 0 (t.dist x k.target k.dir)
          s.comesTo c (u { out with
            stepDir := k.dir, state := .moving m (.ramp rate (interval rate) (now + interval rate)) }) [.turntable]) ∧
        (s.deck.lastDir = some k.dir.other →
          s.comesTo c (u { out with state := .moving m (.deadtime (now + 1000 * t.deadtime)) }) [.turntable]))) ∧
    (s.deck.state.busy = false →
      let c : Instr := .home dt tag (.fields ())
      let known := s.deck.state = .idle ∨ s.deck.state = .stopped
      let lost : Deck := { out with pos := if known then s.deck.pos else none }
      (s.deck.lastDir = some .reverse → s.comesTo c (u { lost with
        state := .homing (decide known) 0 (.deadtime (now + 1000 * t.deadtime)) }) [.turntable]) ∧
      (s.deck.lastDir ≠ some .reverse → s.comesTo c (u { lost with
        stepDir := .forward, state := .homing (decide known) 0 (.search (now + interval t.vMin)) }) [.turntable]))

/-- HOME (R157, R158): the checks in their order, and the bolt part of a homing, known from IDLE and STOPPED. -/
def Sys2Proof.Claims.homeStartsAHoming : Prop :=
  ∀ (s : State) (dt : Nat) (tag : Byte), s.hears tag →
    let c : Instr := .home dt tag (.fields ())
    let refused (r : Reason) : Prop := exec c s = .next (s.answered dt tag (.refused r))
    (s.mode ≠ .run → refused .wrongMode) ∧
    (s.mode = .run → s.tables.turntable = none → refused .notDefined) ∧
    ∀ t, s.mode = .run → s.tables.turntable = some t →
      (s.deck.state.busy = true → refused .busy) ∧
      (s.deck.state.busy = false →
        let locked : Prop := ∃ r rd, (tget s.routes r).holds = true ∧ tget s.tables.routes r = some rd ∧ t.deckBlock ∈ rd.path
        let occupied : Prop := (tget s.channels t.deckBlock).occupied = true ∧
          ∃ al y b z, s.deck.joined = some al ∧ s.tables.fromDeck al y = some (b, z) ∧ (tget s.channels b).occupied = true
        let known := s.deck.state = .idle ∨ s.deck.state = .stopped
        (locked → refused .locked) ∧ (¬ locked → occupied → refused .occupied) ∧
        (¬ locked → ¬ occupied → s.still → s.deck.boltOut = false →
          s.comesTo c { s.answered dt tag .accepted with
            deck := { s.deck with
              state := .homing (decide known) 0 (.bolt (s.clock.us + dt + 1000 * t.bolt))
              pos := if known then s.deck.pos else none, align := none, locked := false
              bolt := .driveOut } } [.turntable]))

/-- TURN and HOME (R143, R144, R150, R157, R158). -/
def Obligations.TurnAndHomeStart : Prop :=
  Sys2Proof.Claims.turnStartsAMove ∧ Sys2Proof.Claims.homeStartsAHoming ∧ Sys2Proof.Claims.boltIsOutAlready

/-- The bolt contacts (R141, R150, R151, R153, R158, R161). A level that is no change lets only time pass. The bolt-out contact
closing ends UNLOCKING, into SETTLING with no way to go and otherwise into MOVING, and the bolt part of a homing; the bolt-in
contact closing ends LOCKING with the deck aligned and locked; on an aligned IDLE deck it is the lock; elsewhere a contact
stops a drive that has reached it, and nothing more. -/
def Sys2Proof.Claims.boltContactsAct : Prop :=
  ∀ (s : State) (dt : Nat) (t : TurntableDef), s.still → s.tables.turntable = some t →
    let now := s.clock.us + dt
    let u (d : Deck) : State := { s.later dt with deck := d }
    (∀ v, s.deck.boltOut = v → exec (.boltOutContact dt v) s = .next (s.later dt)) ∧
    (∀ v, s.deck.boltIn = v → exec (.boltInContact dt v) s = .next (s.later dt)) ∧
    (s.deck.boltOut = false →
      let c : Instr := .boltOutContact dt true
      let d : Deck := { s.deck with boltOut := true, bolt := .off, relay := .bothOpen }
      (∀ m e, s.deck.state = .unlocking m e →
        (m.distance = 0 → s.comesTo c (u { d with
          state := .settling m (if t.settle = 0 then .relay (now + 1000 * t.deadtime) else .settle (now + 1000 * t.settle)) })
          [.turntable]) ∧
        (0 < m.distance →
          (∀ x, s.deck.pos = some x → s.deck.lastDir = none ∨ s.deck.lastDir = some m.dir →
            let rate := t.rate m.steps (t.dist x m.target m.dir)
            s.comesTo c (u { d with
              stepDir := m.dir, state := .moving m (.ramp rate (interval rate) (now + interval rate)) }) [.turntable]) ∧
          ∀ x, s.deck.pos = some x → s.deck.lastDir = some m.dir.other →
            s.comesTo c (u { d with state := .moving m (.deadtime (now + 1000 * t.deadtime)) }) [.turntable])) ∧
      (∀ k n e, s.deck.state = .homing k n (.bolt e) →
        (s.deck.lastDir = some .reverse → s.comesTo c
          (u { d with state := .homing k n (.deadtime (now + 1000 * t.deadtime)) }) []) ∧
        (s.deck.lastDir ≠ some .reverse → s.comesTo c
          (u { d with stepDir := .forward, state := .homing k n (.search (now + interval t.vMin)) }) [])) ∧
      ((∀ m e, s.deck.state ≠ .unlocking m e) → (∀ k n e, s.deck.state ≠ .homing k n (.bolt e)) →
        s.comesTo c (u { s.deck with
          boltOut := true, bolt := if s.deck.bolt = .driveOut then .off else s.deck.bolt }) [])) ∧
    (s.deck.boltOut = true → s.comesTo (.boltOutContact dt false) (u { s.deck with boltOut := false }) []) ∧
    (∀ v, s.deck.boltIn = !v →
      let c : Instr := .boltInContact dt v
      let d : Deck := { s.deck with boltIn := v, bolt := if v = true ∧ s.deck.bolt = .driveIn then .off else s.deck.bolt }
      (∀ m e, s.deck.state = .locking m e → v = true → s.comesTo c { u { d with
          state := .idle, bolt := .off, pos := some m.target, align := some ⟨m.road, m.side⟩, locked := true
          lastOutcome := some (.aligned, m.origin) } with cues := s.cued .turntableAligned } [.turntable]) ∧
      (s.deck.state = .idle → s.deck.align.isSome = true → s.deck.locked = !v →
        s.comesTo c (u { d with locked := v }) [.turntable]) ∧
      (s.deck.state ≠ .idle ∨ s.deck.align = none → (∀ m e, s.deck.state = .locking m e → v = false) →
        s.comesTo c (u d) []))

/-- Steps, deadtimes, the reversal and the creep of a move, and the search of a homing (R149, R151, R156, R158). -/
def Sys2Proof.Claims.deckStepsAndDeadtimes : Prop :=
  ∀ (s : State) (dt : Nat) (t : TurntableDef), s.still → s.tables.turntable = some t →
    let clock (e : Nat) : Clock := (s.clock.plus dt).upTo e
    let u (e : Nat) (d : Deck) : State := { s with clock := clock e, deck := d }
    let settling (m : MoveRec) (e : Nat) : DeckState := .settling m
      (if t.settle = 0 then .relay ((clock e).us + 1000 * t.deadtime) else .settle ((clock e).us + 1000 * t.settle))
    let ramp (m : MoveRec) (x e : Nat) : DeckState :=
      let rate := t.rate m.steps (t.dist x m.target m.dir)
      .moving m (.ramp rate (interval rate) ((clock e).us + interval rate))
    let forward (x : Nat) := (x + 1) % t.r
    let back (x : Nat) := (x + t.r - 1) % t.r
    let along (x : Nat) : StepDir → Nat
      | .forward => forward x
      | .reverse => back x
    (∀ m e x, s.deck.state = .moving m (.deadtime e) → s.deck.pos = some x → s.comesTo (.deadtimeExpiry dt)
      (u e { s.deck with stepDir := m.dir, state := ramp m x e }) [.turntable]) ∧
    (∀ k n e, s.deck.state = .homing k n (.deadtime e) → s.comesTo (.deadtimeExpiry dt)
      (u e { s.deck with
        stepDir := .forward, state := .homing k n (.search ((clock e).us + interval t.vMin)) }) []) ∧
    (∀ m rate i e x, s.deck.state = .moving m (.ramp rate i e) → s.deck.pos = some x →
      let x' := along x m.dir
      let m' : MoveRec := { m with steps := m.steps + 1 }
      let d : Deck := { s.deck with pos := some x', lastDir := some m.dir }
      (t.dist x' m.target m.dir = 0 → s.comesTo (.stepComplete dt) (u e { d with state := settling m' e }) [.turntable]) ∧
      (t.dist x' m.target m.dir ≠ 0 → s.comesTo (.stepComplete dt)
        (u e { d with stepDir := m.dir, state := ramp m' x' e }) [.turntable])) ∧
    (∀ m n e, s.deck.state = .moving m (.reversal n e) → s.comesTo (.reversalEnd dt)
      (u e { s.deck with
        stepDir := m.dir.other, state := .moving m (.creep n ((clock e).us + interval t.vMin)) }) [.turntable]) ∧
    (∀ m n e x, s.deck.state = .moving m (.creep n e) → s.deck.pos = some x →
      let d : Deck := { s.deck with pos := some (along x m.dir.other), lastDir := some m.dir.other }
      (n ≤ 1 → s.comesTo (.creepStepComplete dt) (u e { d with state := settling m e }) [.turntable]) ∧
      (1 < n → s.comesTo (.creepStepComplete dt) (u e { d with
        stepDir := m.dir.other, state := .moving m (.creep (n - 1) ((clock e).us + interval t.vMin)) }) [.turntable])) ∧
    ∀ k n e, s.deck.state = .homing k n (.search e) →
      (4 * (n + 1) < 5 * t.r → s.comesTo (.homingStepComplete dt) (u e { s.deck with
        lastDir := some .forward, stepDir := .forward, pos := if k then s.deck.pos.map forward else s.deck.pos
        state := .homing k (n + 1) (.search ((clock e).us + interval t.vMin)) }) [.turntable]) ∧
      (5 * t.r ≤ 4 * (n + 1) → s.comesTo (.homingStepComplete dt) (u e { s.deck with
        lastDir := some .forward, state := .faulted .indexNotFound, pos := none, align := none, locked := false
        bolt := .off, relay := .bothOpen }) [.turntable])

/-- An index edge (R155, R156, R158): taken in RAMP with the barrier off and in a homing's search, and disregarded elsewhere. -/
def Sys2Proof.Claims.indexEdgeCorrectsTheCount : Prop :=
  ∀ (s : State) (dt : Nat) (t : TurntableDef), s.still → s.tables.turntable = some t →
    let now := s.clock.us + dt
    let c : Instr := .indexEdge dt
    let u (d : Deck) : State := { s.later dt with deck := d }
    ((∀ m r i e, s.deck.state ≠ .moving m (.ramp r i e)) → (∀ k n e, s.deck.state ≠ .homing k n (.search e)) →
      exec c s = .next (s.later dt)) ∧
    (∀ m r i e x, s.deck.state = .moving m (.ramp r i e) → s.deck.pos = some x → t.barrier = true →
      exec c s = .next (s.later dt)) ∧
    (∀ m r i e x, s.deck.state = .moving m (.ramp r i e) → s.deck.pos = some x → t.barrier = false →
      let err : Int := if x < t.r / 2 then (x : Int) else (x : Int) - t.r
      let rem := t.dist 0 m.target m.dir
      let d : Deck := { s.deck with pos := some 0, corrections := s.deck.corrections + 1, lastCorrection := some err }
      (err.natAbs ≤ t.tolerance →
        (rem = 0 → s.comesTo c (u { d with
          state := .settling m (if t.settle = 0 then .relay (now + 1000 * t.deadtime) else .settle (now + 1000 * t.settle)) })
          [.turntable]) ∧
        (1 ≤ rem → rem ≤ t.r / 2 → s.comesTo c (u d) [.turntable]) ∧
        (t.r / 2 < rem → s.comesTo c (u { d with
          state := .moving m (.reversal (t.r - rem) (now + 1000 * t.deadtime)) }) [.turntable])) ∧
      (t.tolerance < err.natAbs → s.comesTo c (u { s.deck with
        state := .faulted .indexError, pos := none, align := none, locked := false, bolt := .off, relay := .bothOpen
        lastOutcome := some (.fault, m.origin) }) [.turntable])) ∧
    ∀ k n e, s.deck.state = .homing k n (.search e) →
      s.comesTo c (u { s.deck with state := .idle, pos := some 0, align := none, locked := false }) [.turntable]

/-- The deck's steps and the index (R149, R151, R155, R156, R158). -/
def Obligations.DeckStepsAndIndex : Prop := Sys2Proof.Claims.deckStepsAndDeadtimes ∧ Sys2Proof.Claims.indexEdgeCorrectsTheCount

/-- The settle time and the relay deadtime (R152, R153): both relays stay open until the relay for the move's end closes, the
bolt drives in, and the deck is LOCKING, or IDLE and aligned at once where the bolt-in contact reads closed. -/
def Sys2Proof.Claims.settlingEndsInLocking : Prop :=
  ∀ (s : State) (dt : Nat) (t : TurntableDef), s.tables.turntable = some t →
    ((∀ m e, s.deck.state ≠ .settling m (.settle e)) → exec (.settleTimeExpiry dt) s = .next (s.later dt)) ∧
    (∀ m e, s.deck.state = .settling m (.settle e) → exec (.settleTimeExpiry dt) s = .next { s with
      clock := (s.clock.plus dt).upTo e
      deck := { s.deck with
        state := .settling m (.relay (((s.clock.plus dt).upTo e).us + 1000 * t.deadtime)) } }) ∧
    ((∀ m e, s.deck.state ≠ .settling m (.relay e)) → exec (.relayDeadtimeExpiry dt) s = .next (s.later dt)) ∧
    ∀ m e, s.still → s.deck.state = .settling m (.relay e) →
      let c : Clock := (s.clock.plus dt).upTo e
      let d : Deck := { s.deck with relay := match m.side with
        | .a => .normal
        | .b => .reverse }
      (s.deck.boltIn = false → s.comesTo (.relayDeadtimeExpiry dt) { s with
        clock := c, deck := { d with state := .locking m (c.us + 1000 * t.bolt), bolt := .driveIn } } [.turntable]) ∧
      (s.deck.boltIn = true → s.comesTo (.relayDeadtimeExpiry dt) { s with
        clock := c, cues := s.cued .turntableAligned
        deck := { d with
          state := .idle, bolt := .off, pos := some m.target, align := some ⟨m.road, m.side⟩, locked := true
          lastOutcome := some (.aligned, m.origin) } } [.turntable])

/-- The outcome of a move is handed to its origin (R93, R154, R193): ALIGNED lets a SETTING route that asked for the move be SET
where its points are proved, and a STOPPED move fails it; ALIGNED clears a run's turn pending flag, and STOPPED aborts it. -/
def Sys2Proof.Claims.outcomeReachesItsOrigin : Prop :=
  ∀ (s : State) (dt : Nat) (t : TurntableDef) (m : MoveRec) (e : Nat), s.tables.turntable = some t → s.queue = [] →
    s.work = Work.none → s.deck.state = .locking m e →
    let stop (tag : Byte) : Instr := .stopTurntable dt tag (.fields ())
    let aligned (u : State) : Prop := u.deck = { s.deck with
      state := .idle, boltIn := true, bolt := .off, pos := some m.target, align := some ⟨m.road, m.side⟩, locked := true
      lastOutcome := some (.aligned, m.origin) } ∧ .turntable ∈ u.link.reports
    let stopped (u : State) : Prop := u.deck = { s.deck with
      state := .stopped, align := none, locked := false, lastOutcome := some (.stopped, m.origin) } ∧
        .turntable ∈ u.link.reports
    (∀ r d marks, m.origin = .route r → s.runningShow = none → tget s.tables.routes r = some d →
      tget s.routes r = .setting true marks →
      (s.deck.boltIn = false → d.turntable = some ⟨m.road, m.side⟩ →
        ∃ u, exec (.boltInContact dt true) s = .next u ∧ aligned u ∧
          tget u.routes r =
            if d.locks.all fun y => s.provedIn y.1 y.2 then .isSet true false marks else .setting false marks) ∧
      ∀ tag : Byte, s.hears tag → s.mode ≠ .config → (∀ q, q ≠ r → (tget s.routes q).holds = false) →
        ∃ u, exec (stop tag) s = .next u ∧ stopped u ∧ s.freedIn u r d .turntable) ∧
    ∀ i run, m.origin = .showing i → (∀ j, s.showRuns j → j = i) → (∀ r, (tget s.routes r).holds = false) →
      (tget s.shows i).state = .running run → run.turnPending = true → run.wait = .pause →
      (∃ ms, (tget s.tables.shows i)[run.step]? = some (.pause ms)) →
      (s.deck.boltIn = false → ∃ u, exec (.boltInContact dt true) s = .next u ∧ aligned u ∧
        u.shows = tset s.shows i { tget s.shows i with state := .running { run with turnPending := false } } ∧
        .showing i ∈ u.link.reports) ∧
      ∀ tag : Byte, s.hears tag → s.mode ≠ .config → s.showQueue = [] → run.routes = [] →
        ∃ u, exec (stop tag) s = .next u ∧ stopped u ∧
          u.shows = tset s.shows i
            { state := .aborted, last := some (.aborted run.step .turntable), runs := (tget s.shows i).runs + 1 } ∧
          .showing i ∈ u.link.reports

/-- The bolt contacts, the settle time, the relay deadtime, and the outcome of a move (R141, R150 to R154, R158, R161). -/
def Obligations.BoltAndSettling : Prop :=
  Sys2Proof.Claims.boltContactsAct ∧ Sys2Proof.Claims.settlingEndsInLocking ∧ Sys2Proof.Claims.outcomeReachesItsOrigin

/-- STOP_TURNTABLE, which is a kill (R159, R160), and the bolt timer running out (R150, R153, R158, R162). -/
def Obligations.KillAndBoltTimeout : Prop :=
  (∀ (s : State) (dt : Nat) (tag : Byte), s.hears tag →
    let c : Instr := .stopTurntable dt tag (.fields ())
    (s.mode = .config → exec c s = .next (s.answered dt tag (.refused .wrongMode))) ∧
    (s.mode ≠ .config → s.tables.turntable = none → exec c s = .next (s.answered dt tag (.refused .notDefined))) ∧
    ∀ t, s.mode ≠ .config → s.tables.turntable = some t → s.still →
      let ack := s.answered dt tag (.ack [])
      let killed (kept : Bool) : Deck := { s.deck with
        state := if kept then .stopped else .unhomed, pos := if kept then s.deck.pos else none
        align := none, locked := false }
      let ended (kept : Bool) (m : MoveRec) : State :=
        { ack with deck := { killed kept with lastOutcome := some (.stopped, m.origin) } }
      (s.deck.state.busy = false → s.comesTo c ack []) ∧
      (∀ k n p, s.deck.state = .homing k n p → s.comesTo c { ack with deck := killed k } [.turntable]) ∧
      (∀ m e, s.deck.state = .unlocking m e → s.comesTo c (ended true m) [.turntable]) ∧
      (∀ m p, s.deck.state = .settling m p → s.comesTo c (ended true m) [.turntable]) ∧
      (∀ m e, s.deck.state = .locking m e → s.comesTo c (ended true m) [.turntable]) ∧
      (∀ m e, s.deck.state = .moving m (.deadtime e) → s.comesTo c (ended true m) [.turntable]) ∧
      (∀ m n e, s.deck.state = .moving m (.reversal n e) → s.comesTo c (ended true m) [.turntable]) ∧
      (∀ m n e, s.deck.state = .moving m (.creep n e) → s.comesTo c (ended true m) [.turntable]) ∧
      ∀ m rate i e, s.deck.state = .moving m (.ramp rate i e) →
        s.comesTo c (ended (decide (rate ≤ 2 * t.vMin)) m) [.turntable]) ∧
  ∀ (s : State) (dt : Nat), s.still →
    let c : Instr := .boltTimerExpiry dt
    let fault (e : Nat) (k : FaultCause) (o : Option (TurnOutcome × TurnOrigin)) : State := { s with
      clock := (s.clock.plus dt).upTo e
      deck := { s.deck with
        state := .faulted k, pos := none, align := none, locked := false, bolt := .off, relay := .bothOpen
        lastOutcome := o } }
    (∀ m e, s.deck.state = .unlocking m e → s.comesTo c (fault e .boltOutTimeout (some (.fault, m.origin))) [.turntable]) ∧
    (∀ m e, s.deck.state = .locking m e → s.comesTo c (fault e .boltInTimeout (some (.fault, m.origin))) [.turntable]) ∧
    (∀ k n e, s.deck.state = .homing k n (.bolt e) →
      s.comesTo c (fault e .boltOutTimeout s.deck.lastOutcome) [.turntable]) ∧
    ((∀ m e, s.deck.state ≠ .unlocking m e ∧ s.deck.state ≠ .locking m e) →
      (∀ k n e, s.deck.state ≠ .homing k n (.bolt e)) → exec c s = .next (s.later dt))

/-! ## The Panel Bus Master (chapter 9) -/

/-- A transaction starts (R170, R174, R177): with the bus free in RUN or HALT, the general call at the head of its list, else
the due work of the module at the head of the first list that is not empty; a bus held low is recovered first, once. -/
def Sys2Proof.Claims.arbiterStartsTheNextWork : Prop :=
  ∀ (s : State) (dt : Nat), s.work = Work.none →
    let begins (w : Transaction) : Prop := s.comesTo (.startTransaction dt true)
      { s.later dt with bus := { s.bus with state := .busy w, recovered := false } } []
    let part (m : Fin 24) : Prop := ∀ k p, (tget s.modules m).parts[k]? = some p → p.pending = true →
      (∀ j q, j < k → (tget s.modules m).parts[j]? = some q → q.pending = false) → begins (.write m k p.content)
    (∀ high, s.mode = .config ∨ s.bus.state ≠ .free → s.comesTo (.startTransaction dt high) (s.later dt) []) ∧
    (s.mode ≠ .config → s.bus.state = .free →
      (∀ c n l, s.bus.calls = (c, n) :: l →
        begins (.call c) ∧
        (s.bus.recovered = false → s.comesTo (.startTransaction dt false)
          { s.later dt with bus := { s.bus with state := .recovery true } } []) ∧
        (s.bus.recovered = true → s.comesTo (.startTransaction dt false) { s.later dt with
          bus := { s.bus with recovered := false, calls := if n + 1 < 3 then (c, n + 1) :: l else l } } [])) ∧
      (s.bus.calls = [] →
        (∀ m l, s.bus.safety = m :: l → part m) ∧
        (s.bus.safety = [] →
          (∀ m l, s.bus.prove = m :: l →
            begins (if (tget s.modules m).state = .online then .readBack m else .probe m (s.probeContent m))) ∧
          (s.bus.prove = [] →
            (∀ m l, s.bus.keys = m :: l → begins (.poll m)) ∧
            (s.bus.keys = [] →
              (∀ m l, s.bus.mimic = m :: l → part m) ∧
              (s.bus.mimic = [] →
                (∀ m l, s.bus.text = m :: l → part m) ∧
                (s.bus.text = [] → ∀ high, s.comesTo (.startTransaction dt high) (s.later dt) [])))))))

/-- Lines held low before the work of a module (R170, R177, R178): bus recovery comes first, once; after it the work fails with
BUS_STUCK, which counts on the module's record, and the third failure in a row takes the module OFFLINE. A probe's first part is
its content (R179). -/
def Sys2Proof.Claims.stuckBusFailsTheWork : Prop :=
  ∀ (s : State) (dt : Nat) (m : Fin 24) (w : Transaction), s.work = Work.none → s.mode ≠ .config → s.bus.state = .free →
    s.nextWork = some w → ((∃ k l, w = .write m k l) ∨ (∃ l, w = .probe m l) ∨ w = .readBack m ∨ w = .poll m) →
    let c : Instr := .startTransaction dt false
    let r := tget s.modules m
    let u (x : ModuleRec) : State := { s.later dt with
      bus := { s.bus with recovered := false }, modules := tset s.modules m x }
    let counted : ModuleRec := { r with total := r.total + 1, cause := some .stuck }
    (s.bus.recovered = false → s.comesTo c { s.later dt with bus := { s.bus with state := .recovery true } } []) ∧
    (s.bus.recovered = true →
      (r.state ≠ .offline → r.consecutive < 2 → s.comesTo c (u { counted with consecutive := r.consecutive + 1 }) [.panel m]) ∧
      (r.state ≠ .offline → r.consecutive = 2 → s.comesTo c (u { counted with
        state := .offline, consecutive := 3, readBackDue := false, pollDue := false, probeDue := false
        proveTimer := none, pollTimer := none, probeTimer := some (s.clock.us + dt + 1000000)
        keys := tfill 16 KeyState.up }) [.panel m]) ∧
      ((∃ l, w = .probe m l) → r.state = .offline → s.comesTo c (u { counted with probeDue := false }) [.panel m])) ∧
    (∀ l, w = .probe m l → ∀ d p rest, tget s.tables.modules m = some d → r.parts = p :: rest →
      l = if d.type = .mimic ∨ d.type = .text then p.content else [])

/-- The prove, poll and probe timers (R176) and the end of a bus recovery (R170). -/
def Sys2Proof.Claims.panelTimersMakeWorkDue : Prop :=
  ∀ (s : State) (dt : Nat) (m : Fin 24),
    let r := tget s.modules m
    let u (e : Nat) (x : ModuleRec) : State := { s with
      clock := (s.clock.plus dt).upTo e, modules := tset s.modules m x }
    let now (e : Nat) : Nat := ((s.clock.plus dt).upTo e).us
    (r.proveTimer = none → exec (.proveTimerExpiry dt m) s = .next (s.later dt)) ∧
    (r.pollTimer = none → exec (.pollTimerExpiry dt m) s = .next (s.later dt)) ∧
    (r.probeTimer = none → exec (.probeTimerExpiry dt m) s = .next (s.later dt)) ∧
    (∀ e, r.proveTimer = some e → ∃ t, exec (.proveTimerExpiry dt m) s = .next t ∧
      t.calm = (u e { r with readBackDue := true, proveTimer := some (now e + 1000 * s.params.lampProvePeriod) }).calm ∧
      ((tget s.tables.modules m).isSome = true → m ∈ t.bus.prove)) ∧
    (∀ e, r.pollTimer = some e → ∃ t, exec (.pollTimerExpiry dt m) s = .next t ∧
      t.calm = (u e { r with pollDue := true, pollTimer := some (now e + 1000 * s.params.keyPollPeriod) }).calm ∧
      ((tget s.tables.modules m).isSome = true → m ∈ t.bus.keys)) ∧
    (∀ e, r.probeTimer = some e → ∃ t, exec (.probeTimerExpiry dt m) s = .next t ∧
      t.calm = (u e { r with probeDue := true, probeTimer := some (now e + 1000000) }).calm ∧
      ((tget s.tables.modules m).isSome = true → m ∈ t.bus.prove)) ∧
    (∀ b, s.bus.state = .recovery b → exec (.busRecoveryEnd dt) s =
      .next { s.later dt with bus := { s.bus with state := .free, recovered := b } }) ∧
    ((∀ b, s.bus.state ≠ .recovery b) → exec (.busRecoveryEnd dt) s = .next (s.later dt))

/-- The images bit by bit: a head's four lamps for its aspect (R120, R175), a LED's on and flash bits (R184), and the lamps of the
keys that bindings name (R184, R198); bits in no defined head, slot or binding are clear. -/
def Sys2Proof.Claims.imagesFollowTheLayout : Prop :=
  ∀ (s : State) (m : Fin 24) (k : Nat),
    ((s.lampImage m).testBit k = true ↔ ∃ g d j, tget s.tables.signals g = some d ∧ d.lampModule = m ∧ k = d.firstOutput + j ∧
      let a := (tget s.signals g).aspect
      (a = .danger ∧ j = 0) ∨ (a = .caution ∧ j = 1) ∨ (a = .prelim ∧ (j = 1 ∨ j = 2)) ∨ (a = .clear ∧ j = 3)) ∧
    (k < 64 →
      let slot (bit : LedDef → Prop) : Prop := ∃ x, (64 * m.val + k, x) ∈ s.tables.leds ∧ bit x
      let moves (p : Fin 64) (l : Lie) : Prop := ∃ d mv, tget s.tables.points p = some d ∧
        (tget s.groups d.group).current = some mv ∧ (tget s.groups d.group).outcome = none ∧ mv.point = p ∧ mv.target = l
      ((s.mimicImage m s.ledOn).testBit k = true ↔ slot fun x => match x with
        | .blockOcc b => (tget s.channels b).occupied = true ∨ (tget s.blockFlags b).stray ≠ none
        | .blockRes b => tget s.reservers b ≠ none
        | .pointN p => (tget s.points p).lie = some .normal
        | .pointR p => (tget s.points p).lie = some .reverse
        | .signalProceed g => (tget s.signals g).aspect ∈ [.caution, .prelim, .clear]
        | .road q => ∃ side, s.deck.align = some ⟨q, side⟩
        | .showing i => s.showRuns i) ∧
      ((s.mimicImage m s.ledFlash).testBit k = true ↔ slot fun x => match x with
        | .blockOcc b => (tget s.channels b).held = true
        | .blockRes b => ∃ r y z, tget s.reservers b = some r ∧ tget s.routes r = .setting y z
        | .pointN p => moves p .normal ∨ (tget s.points p).failed = true
        | .pointR p => moves p .reverse ∨ (tget s.points p).failed = true
        | .signalProceed _ => False
        | .road q => ∃ mv : MoveRec, mv.road = q ∧ ((∃ e, s.deck.state = .unlocking mv e) ∨ (∃ x, s.deck.state = .moving mv x) ∨
            (∃ x, s.deck.state = .settling mv x) ∨ ∃ e, s.deck.state = .locking mv e)
        | .showing i => s.showQueued i)) ∧
    ∀ l, (s.keyImage m l).testBit k = true ↔
      ∃ b d, tget s.tables.keys b = some d ∧ d.panel = m ∧ d.key.val = k ∧ s.keyLamp b = l

/-- The state of a bound key's lamp, line by line of its table (R198). -/
def Sys2Proof.Claims.keyLampsFollowTheTable : Prop :=
  ∀ (s : State) (b : Fin 64) (d : KeyDef), tget s.tables.keys b = some d →
    let lamp (x : KeyLamp) : Prop := s.keyLamp b = x
    (s.mode = .config → lamp .dark) ∧
    (s.mode ≠ .config →
      (∀ i, d.action = .startShow i →
        ((tget s.keys b).holdOff ≠ none ∨ s.mode.isHalt = true → lamp .dark) ∧
        ((tget s.keys b).holdOff = none → s.mode = .run →
          (s.showRuns i ∨ s.showQueued i → lamp .flashing) ∧ (¬ s.showRuns i → ¬ s.showQueued i → lamp .lit))) ∧
      (∀ r, d.action = .visitorRoute r →
        (s.mode.isHalt = true → lamp .dark) ∧
        (s.mode = .run →
          let waits : Prop := s.routeQueued r ∨ ∃ y z, tget s.routes r = .setting y z
          (waits → lamp .flashing) ∧ (¬ waits → lamp .lit))) ∧
      (d.action = .emergency → (s.mode.isHalt = true → lamp .flashing) ∧ (s.mode = .run → lamp .lit)) ∧
      (d.action = .none → lamp .dark))

/-- The parts of a module by its type, and their bytes (R172, R174, R185): the first byte carries the highest outputs, LEDs or
keys, bit 7 the highest in a byte; the text image is its two lines in pieces of 16, 16 and 8 characters. -/
def Sys2Proof.Claims.partsCarryTheImages : Prop :=
  (∀ (s : State) (m : Fin 24) (d : ModuleDef),
    let carries (n : Nat) (l : List Byte) (image : Nat) : Prop :=
      l.length = n ∧ ∀ k, k < 8 * n → ∃ b, l[n - 1 - k / 8]? = some b ∧ b.getLsbD (k % 8) = image.testBit k
    (d.type = .lamp → ∃ a, s.partContents m d = [a] ∧ carries 2 a (s.lampImage m)) ∧
    (d.type = .mimic → ∃ a b, s.partContents m d = [a, b] ∧ carries 8 a (s.mimicImage m s.ledOn) ∧
      carries 8 b (s.mimicImage m s.ledFlash)) ∧
    (d.type = .keys → ∃ a b, s.partContents m d = [a, b] ∧ carries 2 a (s.keyImage m .lit) ∧
      carries 2 b (s.keyImage m .flashing)) ∧
    (d.type = .text → ∃ a b c, s.partContents m d = [a, b, c] ∧ a.length = 16 ∧ b.length = 16 ∧ c.length = 8 ∧
      a ++ b ++ c = s.text.line1.toList ++ s.text.line2.toList)) ∧
  ∀ (s : State) (dt : Nat) (m : Fin 24), s.panelShows → s.work = Work.none →
    (∀ k l, s.signalsShow → s.mode ≠ .config → s.bus.state = .free → s.nextWork = some (.write m k l) →
      ∃ t, exec (.startTransaction dt true) s = .next t ∧ t.bus.state = .busy (.write m k l) ∧
        (tget t.modules m).parts[k]? = some ⟨l, false⟩) ∧
    (∀ k l c, s.bus.state = .busy (.write m k l) → (tget s.modules m).state = .online → (tget s.modules m).consecutive < 2 →
      ∃ t, exec (.partWriteEnd dt (.failed c)) s = .next t ∧
        ∀ p, (tget t.modules m).parts[k]? = some p → p.pending = true) ∧
    ∀ l, s.bus.state = .busy (.probe m l) → (tget s.modules m).state ≠ .online →
      ∃ t, exec (.probeEnd dt .success) s = .next t ∧ ∀ p ∈ (tget t.modules m).parts, p.pending = true

/-- The images and their parts, and what makes panel work due and starts it (R120, R170, R172, R174 to R179, R184, R185,
R198). -/
def Obligations.PanelWorkIsServed : Prop :=
  Sys2Proof.Claims.imagesFollowTheLayout ∧ Sys2Proof.Claims.keyLampsFollowTheTable ∧ Sys2Proof.Claims.partsCarryTheImages ∧
    Sys2Proof.Claims.arbiterStartsTheNextWork ∧ Sys2Proof.Claims.stuckBusFailsTheWork ∧
    Sys2Proof.Claims.panelTimersMakeWorkDue

/-- The outcomes of transactions that succeed (R171, R174, R178 to R180); a read-back that differs from the image last sent leaves
the output image pending, and the module in the SAFETY list, while it stays ONLINE. -/
def Sys2Proof.Claims.transactionsSucceed : Prop :=
  ∀ (s : State) (dt : Nat), s.work = Work.none →
    let free : Bus := { s.bus with state := .free }
    let lamp (m : Fin 24) : Prop := ∃ d, tget s.tables.modules m = some d ∧ d.type = .lamp
    let u (m : Fin 24) (x : ModuleRec) : State := { s.later dt with bus := free, modules := tset s.modules m x }
    (∀ (c : GeneralCall) (o : WriteOutcome), s.bus.state = .busy (.call c) → o = .success ∨ o = .failed .noAck →
      ∃ t, exec (.generalCallEnd dt o) s = .next t ∧
        t.calm = ({ s.later dt with
          bus := { free with calls := s.bus.calls.tail }
          modules := tgen 24 fun m =>
            if (tget s.tables.modules m).map (·.type) = some .lamp then
              { tget s.modules m with lastSent := some (match c with
                | .resetOutputs => 0x0000
                | .dangerAll => 0x1111) }
            else tget s.modules m } : State).calm ∧
        ∀ m p, lamp m → (tget s.modules m).state = .online → (tget s.modules m).parts.length = 1 →
          p ∈ (tget t.modules m).parts → p.pending = true) ∧
    (∀ m k content, s.bus.state = .busy (.write m k content) →
      (lamp m → ∀ a b, content = [a, b] → s.comesTo (.partWriteEnd dt .success)
        (u m { tget s.modules m with consecutive := 0, lastSent := some (a ++ b) }) []) ∧
      (¬ lamp m → s.comesTo (.partWriteEnd dt .success) (u m { tget s.modules m with consecutive := 0 }) [])) ∧
    (∀ m l d, s.bus.state = .busy (.probe m l) → tget s.tables.modules m = some d → (tget s.modules m).state ≠ .online →
      s.comesTo (.probeEnd dt .success) (u m { tget s.modules m with
        state := .online, consecutive := 0, probeTimer := none, probeDue := false, keys := tfill 16 KeyState.up
        proveTimer := if d.type = .lamp then some (s.clock.us + dt + 1000 * s.params.lampProvePeriod) else none
        pollTimer := if d.type = .keys then some (s.clock.us + dt + 1000 * s.params.keyPollPeriod) else none })
        [.panel m]) ∧
    ∀ m bytes, s.bus.state = .busy (.readBack m) →
      let r := { tget s.modules m with readBackDue := false }
      (r.lastSent = some bytes → s.comesTo (.readBackEnd dt (.success bytes)) (u m { r with consecutive := 0 }) []) ∧
      (r.lastSent ≠ some bytes → r.state = .online → r.consecutive < 2 →
        s.comesTo (.readBackEnd dt (.success bytes))
          (u m { r with consecutive := r.consecutive + 1, total := r.total + 1, cause := some .mismatch }) [.panel m] ∧
        ∃ t, exec (.readBackEnd dt (.success bytes)) s = .next t ∧ (tget t.modules m).state = .online ∧
          (lamp m → (tget s.modules m).parts ≠ [] →
            ∃ p, (tget t.modules m).parts[0]? = some p ∧ p.pending = true ∧ m ∈ t.bus.safety)) ∧
      (r.lastSent ≠ some bytes → r.state = .online → r.consecutive = 2 →
        s.comesTo (.readBackEnd dt (.success bytes)) (u m { r with
          state := .offline, consecutive := 3, total := r.total + 1, cause := some .mismatch, pollDue := false
          probeDue := false, proveTimer := none, pollTimer := none, probeTimer := some (s.clock.us + dt + 1000000)
          keys := tfill 16 KeyState.up }) [.panel m])

/-- The outcomes of transactions that fail, and a stretched clock (R170, R171, R174, R178, R179): a general call counts its
attempts; any other failure counts on the module's record, which is OFFLINE at the third in a row, and keeps the read-back, probe
or poll due and at the head of its list before that; and a stretch brings bus recovery. -/
def Sys2Proof.Claims.transactionsFail : Prop :=
  ∀ (s : State) (dt : Nat), s.work = Work.none →
    let bus (c : BusCause) : Bus := { s.bus with state := if c = .stretch then .recovery false else .free }
    (∀ k n l c, s.bus.state = .busy (.call k) → s.bus.calls = (k, n) :: l → c ≠ .noAck →
      s.comesTo (.generalCallEnd dt (.failed c)) { s.later dt with
        bus := { bus c with calls := if n + 1 < 3 then (k, n + 1) :: l else l } } []) ∧
    (∀ k n l, s.bus.state = .busy (.call k) → s.bus.calls = (k, n) :: l → s.comesTo (.clockStretchTimeout dt)
      { s.later dt with bus := { bus .stretch with calls := if n + 1 < 3 then (k, n + 1) :: l else l } } []) ∧
    ((∀ w, s.bus.state ≠ .busy w) → exec (.clockStretchTimeout dt) s = .next (s.later dt)) ∧
    ∀ (m : Fin 24) (c : BusCause) (i : Instr),
      ((∃ k l, s.bus.state = .busy (.write m k l)) ∧ i = .partWriteEnd dt (.failed c)) ∨
      ((∃ l, s.bus.state = .busy (.probe m l)) ∧ i = .probeEnd dt (.failed c)) ∨
      (s.bus.state = .busy (.readBack m) ∧ i = .readBackEnd dt (.failed c)) ∨
      (s.bus.state = .busy (.poll m) ∧ i = .keyPollEnd dt (.failed c)) ∨
      (((∃ k l, s.bus.state = .busy (.write m k l)) ∨ (∃ l, s.bus.state = .busy (.probe m l)) ∨
          s.bus.state = .busy (.readBack m) ∨ s.bus.state = .busy (.poll m)) ∧
        c = .stretch ∧ i = .clockStretchTimeout dt) →
      let r := tget s.modules m
      let u (x : ModuleRec) : State := { s.later dt with bus := bus c, modules := tset s.modules m x }
      let counted : ModuleRec := { r with total := r.total + 1, cause := some (BusCause.fail c) }
      (r.state ≠ .offline → r.consecutive < 2 →
        s.comesTo i (u { counted with consecutive := r.consecutive + 1 }) [.panel m] ∧
        ((tget s.tables.modules m).isSome = true → ∃ t, exec i s = .next t ∧
          (r.readBackDue = true ∨ r.probeDue = true → s.bus.prove.head? = some m → t.bus.prove.head? = some m) ∧
          (r.pollDue = true → s.bus.keys.head? = some m → t.bus.keys.head? = some m))) ∧
      (r.state ≠ .offline → r.consecutive = 2 →
        s.comesTo i (u { counted with
          state := .offline, consecutive := 3, readBackDue := false, pollDue := false, probeDue := false
          proveTimer := none, pollTimer := none, probeTimer := some (s.clock.us + dt + 1000000)
          keys := tfill 16 KeyState.up }) [.panel m]) ∧
      (r.state = .offline → (∃ l, s.bus.state = .busy (.probe m l)) →
        s.comesTo i (u { counted with probeDue := false }) [.panel m])

/-- The bytes that the part sends in the transaction under way (R168, R169, R171, R172, R179), one list for what follows each START:
a general call is its command to address 0; a part goes to the register at which its type has it; a read-back, a poll and the probe
of a LAMP or KEYS module read index 16; and the probe of a MIMIC or TEXT module writes its first part. -/
def Sys2Proof.Claims.busCarriesTheBytes : Prop :=
  ∀ s : State,
    ((∀ w, s.bus.state ≠ .busy w) → s.onTheBus = []) ∧
    (s.bus.state = .busy (.call .resetOutputs) → s.onTheBus = [[0x00, 0x52]]) ∧
    (s.bus.state = .busy (.call .dangerAll) → s.onTheBus = [[0x00, 0x44]]) ∧
    ∀ (m : Fin 24) (d : ModuleDef), tget s.tables.modules m = some d →
      let write (index : Nat) (content : List Byte) : Prop := ∃ a b : Byte, s.onTheBus = [a :: b :: content] ∧
        a = BitVec.ofNat 7 d.address ++ 0#1 ∧ b = BitVec.ofNat 8 index
      let read : Prop := ∃ a b : Byte, s.onTheBus = [[a, 16], [b]] ∧
        a = BitVec.ofNat 7 d.address ++ 0#1 ∧ b = BitVec.ofNat 7 d.address ++ 1#1
      (∀ k content, s.bus.state = .busy (.write m k content) →
        (d.type = .lamp → write 0 content) ∧ (d.type = .mimic → write (8 * k) content) ∧
        (d.type = .keys → write (2 * k) content) ∧ (d.type = .text → write (16 * k) content)) ∧
      (∀ content, s.bus.state = .busy (.probe m content) →
        (d.type = .lamp ∨ d.type = .keys → read) ∧ (d.type = .mimic ∨ d.type = .text → write 0 content)) ∧
      (s.bus.state = .busy (.readBack m) ∨ s.bus.state = .busy (.poll m) → read)

/-- The bytes and the outcomes of panel bus transactions (R167 to R172, R174, R178 to R180). -/
def Obligations.TransactionOutcomes : Prop :=
  Sys2Proof.Claims.busCarriesTheBytes ∧ Sys2Proof.Claims.transactionsSucceed ∧ Sys2Proof.Claims.transactionsFail

/-- A poll that succeeds (R182, R183, R195): each key's reading is debounced over two polls; a press of a key that a binding
names is recorded, sets its KEY cues, and does what its action says, here NONE or the EMERGENCY that halts the layout. -/
def Sys2Proof.Claims.readingsAreDebounced : Prop :=
  ∀ (s : State) (dt : Nat) (m : Fin 24) (bytes : BitVec 16), s.bus.state = .busy (.poll m) →
    let c : Instr := .keyPollEnd dt (.success bytes)
    let down (k : Fin 16) : Bool := bytes.getLsbD k.val
    let fires := s.keyFires m bytes
    let u := s.polled dt m bytes
    (s.work = Work.none → (∀ k, ¬ fires k) → s.comesTo c u []) ∧
    ∀ k, s.noRun → fires k → (∀ j, j ≠ k → ¬ fires j) →
      ((∀ b d, tget s.tables.keys b = some d → ¬ (d.panel = m ∧ d.key = k)) → s.comesTo c u []) ∧
      ∀ b d, tget s.tables.keys b = some d → d.panel = m → d.key = k →
        (∀ a x, a ≠ b → tget s.tables.keys a = some x → ¬ (x.panel = m ∧ x.key = k)) →
        (down k = false → s.comesTo c { u with
          keys := tset s.keys b { tget s.keys b with last := some .released } } [.key b]) ∧
        (down k = true →
          (d.action = .none → s.comesTo c { u with
            keys := tset s.keys b { tget s.keys b with
              last := some .pressed, presses := (tget s.keys b).presses + 1, result := some .none }
            cues := s.cued (.key m k) } [.key b]) ∧
          (d.action = .emergency → s.mode = .run → ∃ t, exec c s = .next t ∧ t.mode = .halt .key ∧
            (tget t.keys b).result = some .done ∧ (∀ a, (tget t.feeds a).state ≠ .on) ∧
            .key b ∈ t.link.reports ∧ .layout ∈ t.link.reports))

/-- What the actions of one pressed key do, with their results (R189, R194, R195, R197): START_SHOW starts the show, here to its
first step's PAUSE, unless the key is held off or the request is refused; VISITOR_ROUTE requests its route with class VISITOR, here
one that has to wait; and EMERGENCY in HALT is refused. -/
def Sys2Proof.Claims.keyActionsAct : Prop :=
  ∀ (s : State) (dt : Nat) (m : Fin 24) (bytes : BitVec 16), s.bus.state = .busy (.poll m) →
    let c : Instr := .keyPollEnd dt (.success bytes)
    let down (k : Fin 16) : Bool := bytes.getLsbD k.val
    let fires := s.keyFires m bytes
    let u := s.polled dt m bytes
    ∀ (k : Fin 16) (b : Fin 64) (d : KeyDef), s.noRun → fires k → (∀ j, j ≠ k → ¬ fires j) → down k = true →
      s.binds m k b d →
      let pressed (x : KeyResult) : State := { u with
        keys := tset s.keys b { tget s.keys b with
          last := some .pressed, presses := (tget s.keys b).presses + 1, result := some x }
        cues := s.cued (.key m k) }
      (∀ i, d.action = .startShow i →
        (s.mode.isHalt = true → s.comesTo c (pressed (.refused .wrongMode)) [.key b]) ∧
        (s.mode = .run → (tget s.keys b).holdOff ≠ none → s.comesTo c (pressed .heldOff) [.key b]) ∧
        (s.mode = .run → (tget s.keys b).holdOff = none →
          (tget s.tables.shows i = [] → s.comesTo c (pressed (.refused .notDefined)) [.key b]) ∧
          (tget s.tables.shows i ≠ [] → s.showQueued i → s.comesTo c (pressed (.refused .duplicate)) [.key b]) ∧
          ∀ ms l, tget s.tables.shows i = .pause ms :: l → ¬ s.showQueued i →
            s.comesTo c { pressed .done with
              shows := tset s.shows i { tget s.shows i with
                state := .running ⟨.key b, 0, .pause, some (s.clock.us + dt + 1000 * ms), [], false⟩ } }
              [.key b, .showing i])) ∧
      (∀ q, d.action = .visitorRoute q →
        (s.mode.isHalt = true → s.comesTo c (pressed (.refused .wrongMode)) [.key b]) ∧
        (s.mode = .run → tget s.tables.routes q = none → s.comesTo c (pressed (.refused .notDefined)) [.key b]) ∧
        ∀ rd, s.mode = .run → tget s.tables.routes q = some rd →
          ((∀ x, tget s.routes q ≠ .free x) → s.comesTo c (pressed (.refused .duplicate)) [.key b]) ∧
          ∀ x, tget s.routes q = .free x → s.queue = [] →
            (rd.visitor = false → s.comesTo c (pressed (.refused .notEligible)) [.key b]) ∧
            (rd.visitor = true →
              let v : State := { pressed .done with
                routes := tset s.routes q (.queued .visitor (s.later dt).ms), queue := [q] }
              v.takeable q = false → s.comesTo c v [.key b, .route q])) ∧
      (d.action = .emergency → s.mode.isHalt = true → s.comesTo c (pressed (.refused .wrongMode)) [.key b])

/-- Two keys pressed in one poll are taken in ascending key number (R182): both are recorded and set their cues, and of two
EMERGENCY keys the lower halts the layout, so that the higher is refused. -/
def Sys2Proof.Claims.twoKeysInOnePoll : Prop :=
  ∀ (s : State) (dt : Nat) (m : Fin 24) (bytes : BitVec 16), s.bus.state = .busy (.poll m) →
    let c : Instr := .keyPollEnd dt (.success bytes)
    let down (k : Fin 16) : Bool := bytes.getLsbD k.val
    let fires := s.keyFires m bytes
    let u := s.polled dt m bytes
    ∀ (j k : Fin 16) (a b : Fin 64) (d e : KeyDef), s.noRun → j.val < k.val → fires j → fires k →
      (∀ i, i ≠ j → i ≠ k → ¬ fires i) → down j = true → down k = true →
      s.binds m j a d → s.binds m k b e →
      let pressed (x : KeyRec) : KeyRec := { x with last := some .pressed, presses := x.presses + 1, result := some .none }
      (d.action = .none → e.action = .none → s.comesTo c { u with
        keys := tset (tset s.keys a (pressed (tget s.keys a))) b (pressed (tget s.keys b))
        cues := tgen 16 fun x =>
          if tget s.tables.cues x = .key m j ∨ tget s.tables.cues x = .key m k then true else tget s.cues x }
        [.key a, .key b]) ∧
      (d.action = .emergency → e.action = .emergency → s.mode = .run → ∃ t, exec c s = .next t ∧ t.mode = .halt .key ∧
        (tget t.keys a).result = some .done ∧ (tget t.keys b).result = some (.refused .wrongMode))

/-- Polls of keys, and what the keys do (R182, R183, R189, R194, R195, R197). -/
def Obligations.KeyPollsDebounce : Prop :=
  Sys2Proof.Claims.readingsAreDebounced ∧ Sys2Proof.Claims.keyActionsAct ∧ Sys2Proof.Claims.twoKeysInOnePoll

/-! ## Shows, cues and text (chapters 9 and 10) -/

/-- START_SHOW and STOP_SHOW from the host (R189, R190, R193, R194, R197): the checks in their order; a show starts its run, here
to its first step's PAUSE, or waits in the queue; and a stop ends the run ABORTED, with the next show started, or takes the show
off the queue while another runs. -/
def Sys2Proof.Claims.showsStartAndStop : Prop :=
  ∀ (s : State) (dt : Nat) (tag : Byte) (n : Nat), s.hears tag →
    let start : Instr := .startShow dt tag (.fields n)
    let stop : Instr := .stopShow dt tag (.fields n)
    let refused (c : Instr) (r : Reason) : Prop := exec c s = .next (s.answered dt tag (.refused r))
    let ack := s.answered dt tag (.ack [])
    (s.mode ≠ .run → refused start .wrongMode) ∧ (s.mode = .config → refused stop .wrongMode) ∧
    (8 ≤ n → (s.mode = .run → refused start .badValue) ∧ (s.mode ≠ .config → refused stop .badValue)) ∧
    ∀ i : Fin 8, n = i.val →
      let x := tget s.shows i
      (tget s.tables.shows i = [] →
        (s.mode = .run → refused start .notDefined) ∧ (s.mode ≠ .config → refused stop .notDefined)) ∧
      (tget s.tables.shows i ≠ [] →
        (s.mode = .run →
          (s.showRuns i ∨ s.showQueued i → refused start .duplicate) ∧
          (∀ j, s.showRuns j → j ≠ i → ¬ s.showRuns i → ¬ s.showQueued i →
            (4 ≤ s.showQueue.length → refused start .busy) ∧
            (s.showQueue.length < 4 → s.work = Work.none → s.comesTo start { s.answered dt tag .accepted with
              shows := tset s.shows i { x with state := .queued .host }, showQueue := s.showQueue ++ [i] }
              [.showing i])) ∧
          ∀ ms l, s.noRun → ¬ s.showQueued i → tget s.tables.shows i = .pause ms :: l →
            s.comesTo start { s.answered dt tag .accepted with
              shows := tset s.shows i
                { x with state := .running ⟨.host, 0, .pause, some (s.clock.us + dt + 1000 * ms), [], false⟩ } }
              [.showing i]) ∧
        (s.mode ≠ .config → s.work = Work.none →
          (x.state = .idle ∨ x.state = .aborted → s.comesTo stop ack []) ∧
          (∀ o, x.state = .queued o → s.comesTo stop { ack with
            shows := tset s.shows i { x with state := .idle }
            showQueue := s.showQueue.filter fun j => j != i } [.showing i]) ∧
          ∀ r, (∀ j, s.showRuns j → j = i) → x.state = .running r → r.routes = [] →
            (s.showQueue = [] → s.comesTo stop (ack.runOver i r .aborted (.aborted r.step .stopped)) [.showing i]) ∧
            ∀ j rest o ms l, s.mode = .run → s.showQueue = j :: rest → j ≠ i → (tget s.shows j).state = .queued o →
              tget s.tables.shows j = .pause ms :: l →
              s.comesTo stop ((ack.runOver i r .aborted (.aborted r.step .stopped)).nextShow j o ms rest)
                [.showing i, .showing j]))

/-- The first step of a show that starts, each kind of step but PAUSE (R191, R192, R193): an immediate step, and a wait that is
met as it is taken, go on to the next step, here a PAUSE; a wait that is not met waits at its step with its timeout; a refused
request aborts the run; and END completes it. -/
def Sys2Proof.Claims.stepsAreExecuted : Prop :=
  ∀ (s : State) (dt : Nat) (tag : Byte) (i : Fin 8) (y : Step) (l : List Step), s.hears tag → s.quiet → s.mode = .run →
    s.showQueue = [] → ¬ s.showQueued i → tget s.tables.shows i = y :: l →
    let start : Instr := .startShow dt tag (.fields i.val)
    let now := s.clock.us + dt
    let base := s.answered dt tag .accepted
    let ran (x : ShowState) : State := { base with shows := tset s.shows i { tget s.shows i with state := x } }
    let waits (k : WaitKind) (timeout : Nat) : Prop := s.comesTo start
      (ran (.running ⟨.host, 0, k, if timeout = 0 then none else some (now + 1000000 * timeout), [], false⟩)) [.showing i]
    let ended (x : ShowState) (e : LastEnd) : State := { base with
      shows := tset s.shows i { state := x, last := some e, runs := (tget s.shows i).runs + 1 } }
    let aborts (r : Reason) : Prop := s.comesTo start (ended .aborted (.aborted 0 (.refused r))) [.showing i]
    (y = .finish → s.comesTo start (ended .idle .completed) [.showing i]) ∧
    (∀ r w n, y = .waitRoute r w n → RouteTarget.met w (tget s.routes r) = false → waits .route n) ∧
    (∀ n, y = .waitTurntable n → s.deck.joined = none → waits .turntable n) ∧
    (∀ c n, y = .waitCue c n → tget s.cues c = false → waits .cue n) ∧
    (∀ r rd, y = .route r → tget s.tables.routes r = some rd →
      ((∀ x, tget s.routes r ≠ .free x) → aborts .duplicate) ∧
      ∀ x, tget s.routes r = .free x → rd.visitor = false → aborts .notEligible) ∧
    (∀ q ask, y = .turn q ask → s.tables.turntable.isSome = true → (tget s.tables.roads q).isSome = true →
      s.deck.state.busy = true → aborts .busy) ∧
    ∀ ms rest, l = .pause ms :: rest →
      let on (routes : List (Fin 64)) (turn : Bool) : State :=
        ran (.running ⟨.host, 1, .pause, some (now + 1000 * ms), routes, turn⟩)
      (∀ c, y = .clearCue c → s.comesTo start { on [] false with cues := tset s.cues c false } [.showing i]) ∧
      (∀ k, y = .caption k →
        s.comesTo start { on [] false with text := { s.text with line1 := tget s.captions k } } [.showing i]) ∧
      (∀ r, y = .cancel r → (∃ x, tget s.routes r = .free x) → s.comesTo start (on [] false) [.showing i]) ∧
      (∀ r w n, y = .waitRoute r w n → RouteTarget.met w (tget s.routes r) = true →
        s.comesTo start (on [] false) [.showing i]) ∧
      (∀ n, y = .waitTurntable n → s.deck.joined ≠ none → s.comesTo start (on [] false) [.showing i]) ∧
      (∀ c n, y = .waitCue c n → tget s.cues c = true →
        s.comesTo start { on [] false with cues := tset s.cues c false } [.showing i]) ∧
      (∀ r rd x, y = .route r → tget s.tables.routes r = some rd → tget s.routes r = .free x → rd.visitor = true →
        let v : State := { on [r] false with
          routes := tset s.routes r (.queued .visitor (s.later dt).ms), queue := [r] }
        v.takeable r = false → s.comesTo start v [.showing i, .route r]) ∧
      ∀ q ask t d, y = .turn q ask → s.tables.turntable = some t → tget s.tables.roads q = some d →
        s.still → s.deck.state = .idle ∨ s.deck.state = .stopped → (tget s.channels t.deckBlock).occupied = false →
        (∀ side, s.deck.joined = some ⟨q, side⟩ → (ask = .any ∨ (ask = .a ∧ side = .a) ∨ (ask = .b ∧ side = .b)) →
          s.comesTo start (on [] false) [.showing i]) ∧
        ∀ x k, (∀ side, s.deck.joined = some ⟨q, side⟩ → ¬ (ask = .any ∨ (ask = .a ∧ side = .a) ∨ (ask = .b ∧ side = .b))) →
          s.deck.boltOut = false → s.deck.pos = some x →
          bestOf (t.candidates x d.position ask) = some k →
          s.comesTo start { on [] true with
            deck := { s.deck with
              state := .unlocking ⟨.showing i, q, k.side, k.target, k.dir, k.distance, 0⟩ (now + 1000 * t.bolt)
              align := none, locked := false, bolt := .driveOut } } [.showing i, .turntable]

/-- A wait is resolved (R191 to R194, R196, R197): at its wait timer's expiry a PAUSE goes on to the next step, here a PAUSE again
or END, and any other wait is aborted with TIMEOUT, its queued routes cancelled first and the cues they set left standing; a run
that ends starts its key's hold-off and the next show; and SET_CUE lets a run that waits on the cue go on and consumes it. An expiry
without its timer lets only time pass (log entry 3). -/
def Sys2Proof.Claims.waitsAreResolved : Prop :=
  ∀ (s : State) (dt : Nat) (i : Fin 8),
    let c : Instr := .waitTimerExpiry dt i
    (¬ s.showRuns i → exec c s = .next (s.later dt)) ∧
    ∀ r, (tget s.shows i).state = .running r →
      (r.timer = none → exec c s = .next (s.later dt)) ∧
      (∀ e, r.timer = some e → s.work = Work.none → (∀ j, s.showRuns j → j = i) →
        let u : State := { s with clock := (s.clock.plus dt).upTo e }
        let timeout := u.runOver i r .aborted (.aborted r.step .timeout)
        let done := u.runOver i r .idle .completed
        let next (v : State) : Prop := ∀ j rest o ms l, s.mode = .run → s.showQueue = j :: rest → j ≠ i →
          (tget s.shows j).state = .queued o → tget s.tables.shows j = .pause ms :: l →
          s.comesTo c (v.nextShow j o ms rest) [.showing i, .showing j]
        (r.wait = .pause →
          (∀ ms, (tget s.tables.shows i)[r.step + 1]? = some (.pause ms) → s.comesTo c { u with
            shows := tset s.shows i { tget s.shows i with
              state := .running { r with step := r.step + 1, timer := some (u.clock.us + 1000 * ms) } } } [.showing i]) ∧
          ((tget s.tables.shows i)[r.step + 1]? = some .finish →
            (s.showQueue = [] → s.comesTo c done [.showing i]) ∧ next done)) ∧
        (r.wait ≠ .pause → r.wait ≠ .none →
          (r.routes = [] → (s.showQueue = [] → s.comesTo c timeout [.showing i]) ∧ next timeout) ∧
          ∀ q k since, r.routes = [q] → tget s.routes q = .queued k since → s.showQueue = [] →
            s.comesTo c { timeout with
              routes := tset s.routes q (.free .cancelled), queue := s.queue.filter fun x => x != q
              cues := s.cued (.routeFreed q) } [.showing i, .route q])) ∧
      ∀ (tag : Byte) (k : Fin 16) n ms, s.hears tag → s.work = Work.none → (∀ j, s.showRuns j → j = i) → r.wait = .cue →
        (tget s.tables.shows i)[r.step]? = some (.waitCue k n) →
        (tget s.tables.shows i)[r.step + 1]? = some (.pause ms) →
        s.comesTo (.setCue dt tag (.fields k.val)) { s.answered dt tag (.ack []) with
          cues := tset s.cues k false
          shows := tset s.shows i { tget s.shows i with
            state := .running
              { r with step := r.step + 1, wait := .pause, timer := some (s.clock.us + dt + 1000 * ms) } } } [.showing i]

/-- A wait is met or aborted by what another block hands on (R192, R193): a route waited for becomes FREE or SET, the deck comes
to stand aligned and locked, and a wait for SET is aborted with ROUTE_FREED where the route becomes FREE. The next step is here a
PAUSE. -/
def Sys2Proof.Claims.waitsAreMet : Prop :=
  ∀ (s : State) (dt : Nat) (i : Fin 8) (r : Run), s.work = Work.none → (∀ j, s.showRuns j → j = i) →
    (tget s.shows i).state = .running r → r.wait ≠ .none →
    let steps := tget s.tables.shows i
    let goesOn (now ms : Nat) (turn : Bool) : Tab ShowRec 8 := tset s.shows i { tget s.shows i with
      state := .running { r with
        step := r.step + 1, wait := .pause, timer := some (now + 1000 * ms), turnPending := turn } }
    (∀ (tag : Byte) (q : Fin 64) k since n, s.hears tag → s.mode ≠ .config → (tget s.tables.routes q).isSome = true →
      tget s.routes q = .queued k since →
      let c : Instr := .cancelRoute dt tag (.fields q.val)
      let freed (u : State) : State := { u with
        routes := tset s.routes q (.free .cancelled), queue := s.queue.filter fun x => x != q
        cues := s.cued (.routeFreed q) }
      (∀ ms, steps[r.step]? = some (.waitRoute q .isFree n) → steps[r.step + 1]? = some (.pause ms) →
        s.comesTo c { freed (s.answered dt tag (.ack [])) with shows := goesOn (s.clock.us + dt) ms r.turnPending }
          [.showing i, .route q]) ∧
      (steps[r.step]? = some (.waitRoute q .isSet n) → (∀ x ∈ r.routes, x = q) → s.showQueue = [] →
        s.comesTo c (freed ((s.answered dt tag (.ack [])).runOver i r .aborted (.aborted r.step .routeFreed)))
          [.showing i, .route q])) ∧
    (∀ (g : Fin 8) (m : Move) (e : Nat) (q : Fin 64) (d : RouteDef) (asked : Bool) (marks : Marks) n ms, s.queue = [] →
      let x := tget s.groups g
      tget s.tables.routes q = some d → tget s.routes q = .setting asked marks → x.current = some m → x.outcome = none →
      x.phase = .pulse → x.queue = [] → x.phaseTimer = some e → (tget s.tables.points m.point).map (·.group) = some g →
      s.feedback m.point = .none → (m.point, m.target) ∈ d.locks →
      (∀ y ∈ d.locks, y = (m.point, m.target) ∨ (y.1 ≠ m.point ∧ s.provedIn y.1 y.2 = true)) →
      (∀ y, d.turntable = some y → s.deck.at' y = true) →
      steps[r.step]? = some (.waitRoute q .isSet n) → steps[r.step + 1]? = some (.pause ms) →
      ∃ t, exec (.pulseTimeEnd dt g) s = .next t ∧ tget t.routes q = .isSet true false marks ∧
        t.shows = goesOn ((s.clock.plus dt).upTo e).us ms r.turnPending ∧ .showing i ∈ t.link.reports) ∧
    ∀ (m : MoveRec) (e n ms : Nat), s.queue = [] → (∀ q, (tget s.routes q).holds = false) → s.deck.state = .locking m e →
      s.deck.boltIn = false → steps[r.step]? = some (.waitTurntable n) → steps[r.step + 1]? = some (.pause ms) →
      s.comesTo (.boltInContact dt true) { s.later dt with
        cues := s.cued .turntableAligned
        shows := goesOn (s.clock.us + dt) ms (if m.origin = .showing i then false else r.turnPending)
        deck := { s.deck with
          state := .idle, boltIn := true, bolt := .off, pos := some m.target, align := some ⟨m.road, m.side⟩, locked := true
          lastOutcome := some (.aligned, m.origin) } } [.showing i, .turntable]

/-- The runs of shows (R189 to R194, R196, R197). -/
def Obligations.ShowsRun : Prop :=
  Sys2Proof.Claims.showsStartAndStop ∧ Sys2Proof.Claims.stepsAreExecuted ∧ Sys2Proof.Claims.waitsAreResolved ∧
    Sys2Proof.Claims.waitsAreMet

/-- SET_CUE and CLEAR_CUE (R196), the speed hold (R186) and a key's hold-off (R197) running out, and the characters of the speed
line. -/
def Obligations.CuesAndHolds : Prop :=
  (∀ (s : State) (dt : Nat) (tag : Byte) (n : Nat), s.hears tag →
    (16 ≤ n → exec (.setCue dt tag (.fields n)) s = .next (s.answered dt tag (.refused .badValue)) ∧
      exec (.clearCue dt tag (.fields n)) s = .next (s.answered dt tag (.refused .badValue))) ∧
    ∀ k : Fin 16, n = k.val →
      (s.noRun → s.comesTo (.setCue dt tag (.fields n)) { s.answered dt tag (.ack []) with
        cues := tset s.cues k true } (if tget s.cues k then [] else [.layout])) ∧
      exec (.clearCue dt tag (.fields n)) s = .next { s.answered dt tag (.ack []) with
        cues := tset s.cues k false
        link := { (s.answered dt tag (.ack [])).link with
          reports := if tget s.cues k = false ∨ .layout ∈ s.link.reports then s.link.reports
            else s.link.reports ++ [.layout] } }) ∧
  (∀ (s : State) (dt : Nat),
    (s.text.hold = none → exec (.speedHoldExpiry dt) s = .next (s.later dt)) ∧
    (∀ e, s.text.hold = some e → s.comesTo (.speedHoldExpiry dt) { s with
      clock := (s.clock.plus dt).upTo e, text := ⟨s.text.line1, tfill 20 0x20, none⟩ } []) ∧
    ∀ k, ((tget s.keys k).holdOff = none → exec (.holdOffExpiry dt k) s = .next (s.later dt)) ∧
      ∀ e, (tget s.keys k).holdOff = some e → s.comesTo (.holdOffExpiry dt k) { s with
        clock := (s.clock.plus dt).upTo e
        keys := tset s.keys k { tget s.keys k with holdOff := none } } [.key k]) ∧
  ∀ v : Nat, v ≤ 9999 →
    let char (n : Nat) : Byte := BitVec.ofNat 8 (0x30 + n)
    (speedLine v).toList = [0x53, 0x50, 0x45, 0x45, 0x44, 0x20] ++
      [if v < 1000 then 0x20 else char (v / 1000), if v < 100 then 0x20 else char (v / 100 % 10), char (v / 10 % 10)] ++
      [0x2E, char (v % 10)] ++ [0x20, 0x4B, 0x4D, 0x2F, 0x48] ++ [0x20, 0x20, 0x20, 0x20]

/-! ## The Link Port (chapter 11) -/

/-- The fields of LAYOUT, BLOCK, POINT, SIGNAL and ROUTE reports (R1, R33, R35, R47, R64, R77, R83, R107, R124, R196, R208): the
holder of a block, the targets of a point and its proof status are what R47, R65 and R77 say. -/
def Sys2Proof.Claims.trackReportsCarryTheirFields : Prop :=
  ∀ s : State,
    (s.fieldsOf .layout = spelled ((match s.mode with
      | .config => [byteField (some 0), byteField none]
      | .run => [byteField (some 1), byteField none]
      | .halt c => [byteField (some 2), choiceField [.host, .key] (some c)]) ++
        (indices 16).map fun k => flagField (tget s.cues k))) ∧
    (∀ (b : Fin 48) (holder : Option (Fin 24)), (∀ t, holder = some t ↔ b ∈ s.listOf t) →
      let c := tget s.channels b
      let f := tget s.feeds b
      let x := tget s.blockFlags b
      s.fieldsOf (.block b) = spelled
        [flagField c.occupied, flagField c.held, flagField c.stale,
          choiceField [.on, .off, .tripped, .cooling, .latched] (some f.state), flagField f.isolated,
          flagField x.stray.isSome, choiceField [.noTrain, .ambiguous, .overlong, .removed] x.stray, flagField x.bridged,
          byteField (holder.map (·.val)), byteField ((tget s.reservers b).map (·.val))]) ∧
    (∀ (p : Fin 64) (moving queued proof : Option Lie), (∀ l, moving = some l ↔ s.movingTo p l) →
      (∀ l, queued = some l ↔ s.waitsFor p l) →
      (∀ l, proof = some l ↔ (tget s.points p).lie = some l ∧ (∀ k, ¬ s.movingTo p k) ∧ (tget s.points p).failed = false ∧
        ((∀ d, tget s.tables.points p = some d → d.feedback = .none) ∨
          (tget s.contacts p).stale = false ∧ (tget s.contacts p).reading = Lie.reading l)) →
      let x := tget s.points p
      s.fieldsOf (.point p) = spelled
        [choiceField [some .normal, some .reverse, none] (some x.lie),
          byteField (some (if moving.isSome then 2 else if queued.isSome then 1 else 0)),
          choiceField [.normal, .reverse] moving, choiceField [.normal, .reverse] queued, flagField x.failed,
          byteField (some x.locks), choiceField [.neither, .normal, .reverse] (some (tget s.contacts p).reading),
          flagField (tget s.contacts p).stale, choiceField [some .normal, some .reverse, none] (some proof)]) ∧
    (∀ g : Fin 32, let x := tget s.signals g
      s.fieldsOf (.signal g) = spelled
        [choiceField [.dark, .danger, .caution, .prelim, .clear] (some x.aspect), byteField (x.control.map (·.val)),
          flagField x.cleared, choiceField [false, true] x.release, s.timerField x.timer,
          byteField (some x.overspeeds.toNat), (2, x.lastOverspeed)]) ∧
    ∀ r : Fin 64,
      let fields (state : Nat) (reason : Option FreeReason) (asked : Option (RouteClass × MsCount))
          (proof : Option (Bool × Bool)) (marks : Option Marks) (danger : Bool) (t : Timer) : Prop :=
        s.fieldsOf (.route r) = spelled
          ([byteField (some state),
            choiceField [.none, .released, .cancelled, .forced, .expired, .pointFailed, .turntable, .halted] reason,
            choiceField [.host, .visitor] (asked.map (·.1)), ageField (asked.map fun x => s.ageOf x.2),
            choiceField [false, true] (proof.map (·.1)), choiceField [false, true] (proof.map (·.2)),
            byteField (some ((marks.map (·.path.length)).getD 0))] ++
          ((marks.map (·.path)).getD []).map flagField ++
          [choiceField [false, true] (marks.map (·.overlap)), byteField (if danger then some 1 else none), s.timerField t])
      (∀ x, tget s.routes r = .free x → fields 0 (some x) none none none false none) ∧
      (∀ k since, tget s.routes r = .queued k since → fields 1 none (some (k, since)) none none false none) ∧
      (∀ x m, tget s.routes r = .setting x m → fields 2 none none none (some m) false none) ∧
      (∀ x y m, tget s.routes r = .isSet x y m → fields 3 none none (some (x, y)) (some m) false none) ∧
      (∀ x timer m, tget s.routes r = .entered x timer m → fields 4 none none none (some m) x (match timer with
        | .running e => some e
        | _ => none)) ∧
      ∀ e m, tget s.routes r = .cancelling e m → fields 5 none none none (some m) false (some e)

/-- The fields of TRAIN, TRAP, MODULE, SHOW and KEY reports (R64, R138, R183, R187, R200, R208); fields of another state of the
record are absent, an absent list is an empty one, and an absent field that varies in width has its shortest (log entry 31). -/
def Sys2Proof.Claims.otherReportsCarryTheirFields : Prop :=
  ∀ s : State,
    (∀ t : Fin 24,
      let fields (state : Nat) (number : Option Nat) (l : List TrainBlock) (speed : Option Nat) (seen : Option LastSeen)
          (overlong : Bool) : Prop :=
        s.fieldsOf (.train t) = spelled
          ([byteField (some state), (2, number), byteField (some l.length)] ++
          l.flatMap (fun x => [byteField (some x.block.val), choiceField [.e0, .e1] (some x.front)]) ++
          [(2, speed), byteField (seen.map (·.block.val)), choiceField [.e0, .e1] (seen.map (·.front)),
            (6, seen.map (·.time.toNat)), flagField overlong])
      (tget s.trains t = .free → fields 0 none [] none none false) ∧
      (∀ n l speed overlong, tget s.trains t = .active n l speed overlong → fields 1 (some n) l speed none overlong) ∧
      ∀ n seen speed overlong, tget s.trains t = .lost n seen speed overlong →
        fields 2 (some n) [] speed (some seen) overlong) ∧
    (∀ t : Fin 4, let x := tget s.traps t
      let fields (state : Nat) (lost : Option Bool) (since : Option Nat) : Prop :=
        s.fieldsOf (.trap t) = spelled
          [byteField (some state), choiceField [false, true] lost, ageField since, (2, x.last.map (·.speed)),
            choiceField [.e0, .e1] (x.last.map (·.toward)), (4, x.last.map (·.t)),
            choiceField [false, true] (x.last.map (·.overwritten)), byteField (x.last.map (·.count.toNat)),
            byteField (some x.timeouts.toNat), choiceField [.result, .timeout] x.outcome]
      (x.state = .idle → fields 0 none none) ∧ (x.state = .holdoff → fields 3 none none) ∧
      ∀ dir t0 lost e, x.state = .timing dir t0 lost e →
        fields (match dir with
          | .ab => 1
          | .ba => 2) (some lost) (some ((s.clock.base - t0).toNat / 1000))) ∧
    (∀ m : Fin 24, let x := tget s.modules m
      let d := tget s.tables.modules m
      let lists := [s.bus.safety, s.bus.prove, s.bus.keys, s.bus.mimic, s.bus.text]
      let classes := (List.range 5).filter fun k => (lists.getD k []).contains m
      s.fieldsOf (.panel m) = spelled
        ([byteField (d.map (·.address)), choiceField [.lamp, .keys, .mimic, .text] (d.map (·.type)),
          choiceField [.unknown, .online, .offline] (some x.state), byteField (some x.consecutive),
          byteField (some x.total.toNat), choiceField [.noAck, .stretch, .stuck, .mismatch] x.cause,
          byteField (some classes.length)] ++ classes.map fun k => byteField (some k))) ∧
    (∀ i : Fin 8, let x := tget s.shows i
      let cause : AbortCause → List ReportField
        | .refused r => [byteField (some 0), byteField (some (reasonsInOrder.idxOf r + 1))]
        | .timeout => [byteField (some 1)]
        | .routeFreed => [byteField (some 2)]
        | .turntable => [byteField (some 3)]
        | .stopped => [byteField (some 4)]
        | .halted => [byteField (some 5)]
      let tail : List ReportField := (match x.last with
        | none => [byteField none]
        | some .completed => [byteField (some 0)]
        | some (.aborted n c) => byteField (some 1) :: byteField (some n) :: cause c) ++ [byteField (some x.runs.toNat)]
      let fields (state : Nat) (run : List ReportField) : Prop :=
        s.fieldsOf (.showing i) = spelled (byteField (some state) :: run ++ tail)
      let absent : List ReportField :=
        [byteField none, byteField none, byteField none, (4, none), byteField (some 0), byteField none]
      (x.state = .idle → fields 0 absent) ∧ (∀ o, x.state = .queued o → fields 1 absent) ∧
      (x.state = .aborted → fields 3 absent) ∧
      ∀ r, x.state = .running r → fields 2 ((match r.origin with
        | .host => [byteField (some 0)]
        | .key k => [byteField (some 1), byteField (some k.val)]) ++
          [byteField (some r.step), choiceField [.none, .route, .turntable, .cue, .pause] (some r.wait),
            s.timerField r.timer, byteField (some r.routes.length)] ++
          r.routes.map (fun q => byteField (some q.val)) ++ [flagField r.turnPending])) ∧
    ∀ k : Fin 64, let x := tget s.keys k
      s.fieldsOf (.key k) = spelled
        [choiceField [.pressed, .released] x.last, byteField (some x.presses.toNat),
          byteField (x.result.map fun
            | .done => 0
            | .refused r => reasonsInOrder.idxOf r + 1
            | .heldOff => 15
            | .none => 16),
          flagField x.holdOff.isSome, s.timerField x.holdOff, choiceField [.dark, .lit, .flashing] (some (s.keyLamp k))]

/-- The fields of a TURNTABLE report (R140, R142, R165, R208), by the deck's state: the move while one is under way, with its phase
while MOVING, the steps of a homing, and the cause of a FAULT. -/
def Sys2Proof.Claims.deckReportCarriesItsFields : Prop :=
  ∀ s : State, let d := s.deck
    let noMove : List ReportField := List.replicate 17 (byteField none)
    let noHoming : List ReportField := [(4, none), byteField none]
    let move (m : MoveRec) (phase : ReportField) (creep : Option Nat) : List ReportField :=
      m.origin.fields ++ [byteField (some m.road.val), choiceField [.a, .b] (some m.side), (2, some m.target),
        choiceField [.forward, .reverse] (some m.dir), (2, some m.distance), (4, some m.steps),
        (2, s.tables.turntable.bind fun t => d.pos.map fun x => t.dist x m.target m.dir), phase, (2, creep)]
    let fields (state : Nat) (moving homing : List ReportField) (fault : Option FaultCause) : Prop :=
      s.fieldsOf .turntable = spelled
        ([byteField (some state), (2, d.pos), byteField (d.align.map (·.road.val)),
          choiceField [.a, .b] (d.align.map (·.side)), flagField d.locked, choiceField [.forward, .reverse] d.lastDir] ++
        moving ++ homing ++ (match d.lastOutcome with
          | none => [byteField none, byteField none]
          | some (o, origin) => choiceField [.aligned, .stopped, .fault] (some o) :: origin.fields) ++
        [choiceField [.boltOutTimeout, .boltInTimeout, .indexError, .indexNotFound] fault,
          byteField (some d.corrections.toNat)] ++ (match d.lastCorrection with
          | none => [byteField (some 0)]
          | some e => [byteField (some 1), (2, some (e % 65536).toNat)]) ++
        [flagField d.boltOut, flagField d.boltIn, flagField (d.relay == .normal), flagField (d.relay == .reverse)])
    (d.state = .unhomed → fields 0 noMove noHoming none) ∧
    (∀ known n x, d.state = .homing known n x → fields 1 noMove [(4, some n), flagField known] none) ∧
    (d.state = .idle → fields 2 noMove noHoming none) ∧
    (∀ m e, d.state = .unlocking m e → fields 3 (move m (byteField none) none) noHoming none) ∧
    (∀ m e, d.state = .moving m (.deadtime e) → fields 4 (move m (byteField (some 0)) none) noHoming none) ∧
    (∀ m x y e, d.state = .moving m (.ramp x y e) → fields 4 (move m (byteField (some 1)) none) noHoming none) ∧
    (∀ m n e, d.state = .moving m (.reversal n e) → fields 4 (move m (byteField (some 2)) (some n)) noHoming none) ∧
    (∀ m n e, d.state = .moving m (.creep n e) → fields 4 (move m (byteField (some 3)) (some n)) noHoming none) ∧
    (∀ m x, d.state = .settling m x → fields 5 (move m (byteField none) none) noHoming none) ∧
    (∀ m e, d.state = .locking m e → fields 6 (move m (byteField none) none) noHoming none) ∧
    (d.state = .stopped → fields 7 noMove noHoming none) ∧
    ∀ c, d.state = .faulted c → fields 8 noMove noHoming (some c)

/-- The bytes on the line (R201, R205, R208): nothing from a free transmitter, a reply's frame by its kind, with a refusal's code
and for INVALID_LAYOUT the table and the index too, and a report's frame with tag 0. -/
def Sys2Proof.Claims.lineCarriesTheFrame : Prop :=
  ∀ s : State,
    (s.link.tx = .free → s.onTheLine = []) ∧
    (∀ payload, s.link.tx = .report payload → isFrame s.onTheLine 0xC0 0 payload) ∧
    ∀ tag reply l, s.link.tx = .reply → s.link.fifo = ⟨tag, reply⟩ :: l →
      (∀ payload, reply = .ack payload → isFrame s.onTheLine 0x80 tag payload) ∧
      (reply = .accepted → isFrame s.onTheLine 0x81 tag []) ∧
      (∀ r, reply = .refused r → isFrame s.onTheLine 0x82 tag (spelled [byteField (some (reasonsInOrder.idxOf r + 1))])) ∧
      ∀ x i, reply = .invalid x i →
        isFrame s.onTheLine 0x82 tag (spelled [byteField (some 14), choiceField checkTablesInOrder (some x), (2, some i)])

/-- The transmitter, HOLD, reports and QUERY (R206 to R209): a reply leaves the FIFO when its last byte has left and the next
begins at once; a report of the head subject is sent with the transmitter free and the FIFO empty; an ABORTED show that is
reported, or asked for by QUERY, returns to IDLE and is marked again. -/
def Sys2Proof.Claims.transmitterTakesTurns : Prop :=
  ∀ (s : State) (dt : Nat),
    (s.hold = true ↔ 6 ≤ s.link.fifo.length) ∧
    (s.link.tx = .free → exec (.frameSent dt) s = .next (s.later dt)) ∧
    (∀ f l, s.link.tx = .reply → s.link.fifo = f :: l → exec (.frameSent dt) s = .next { s.later dt with
      link := { s.link with fifo := l, tx := if l = [] then .free else .reply } }) ∧
    (∀ p, s.link.tx = .report p → exec (.frameSent dt) s = .next { s.later dt with
      link := { s.link with tx := if s.link.fifo = [] then .free else .reply } }) ∧
    (s.link.tx ≠ .free ∨ s.link.fifo ≠ [] ∨ s.link.reports = [] → exec (.sendReport dt) s = .next (s.later dt)) ∧
    (∀ x l, s.link.tx = .free → s.link.fifo = [] → s.link.reports = x :: l →
      let payload := BitVec.ofNat 8 x.codeAndIndex.1 :: BitVec.ofNat 8 x.codeAndIndex.2 :: (s.later dt).fieldsOf x
      ((∀ i, x = .showing i → (tget s.shows i).state ≠ .aborted) → exec (.sendReport dt) s = .next { s.later dt with
        link := { s.link with reports := l, tx := .report payload } }) ∧
      ∀ i, x = .showing i → (tget s.shows i).state = .aborted → .showing i ∉ l →
        exec (.sendReport dt) s = .next { s.later dt with
          shows := tset s.shows i { tget s.shows i with state := .idle }
          link := { s.link with reports := l ++ [.showing i], tx := .report payload } }) ∧
    ∀ (tag : Byte) (code index : Nat), s.hears tag →
      (subjectOf code index = none →
        exec (.query dt tag (.fields ⟨code, index⟩)) s = .next (s.answered dt tag (.refused .badValue))) ∧
      (∀ x, subjectOf code index = some x → (∀ i, x = .showing i → (tget s.shows i).state ≠ .aborted) →
        let ack := s.answered dt tag (.ack
          (BitVec.ofNat 8 x.codeAndIndex.1 :: BitVec.ofNat 8 x.codeAndIndex.2 :: (s.later dt).fieldsOf x))
        exec (.query dt tag (.fields ⟨code, index⟩)) s =
          .next { ack with link := { ack.link with reports := s.link.reports.filter fun y => y != x } }) ∧
      ∀ i : Fin 8, subjectOf code index = some (.showing i) → (tget s.shows i).state = .aborted →
        let ack := s.answered dt tag (.ack (BitVec.ofNat 8 (Subject.showing i).codeAndIndex.1 ::
          BitVec.ofNat 8 (Subject.showing i).codeAndIndex.2 :: (s.later dt).fieldsOf (.showing i)))
        exec (.query dt tag (.fields ⟨code, index⟩)) s = .next { ack with
          shows := tset s.shows i { tget s.shows i with state := .idle }
          link := { ack.link with reports := (s.link.reports.filter fun y => y != .showing i) ++ [.showing i] } }

/-- What the part sends (R201, R205 to R209): the transmitter's turns, the fields of every report, and the bytes of every frame. -/
def Obligations.TransmitterSendsInOrder : Prop :=
  Sys2Proof.Claims.transmitterTakesTurns ∧ Sys2Proof.Claims.trackReportsCarryTheirFields ∧
    Sys2Proof.Claims.otherReportsCarryTheirFields ∧ Sys2Proof.Claims.deckReportCarriesItsFields ∧
    Sys2Proof.Claims.lineCarriesTheFrame

/-- The bytes of a frame, received with no gap of more than 20 ms among them, are examined as that frame, whatever bytes it
holds, the start byte among them; and every byte that completes no frame moves the assembler as R202 gives. -/
def Obligations.ReceivedFramesAreExamined : Prop :=
  (∀ (s : State) (kind tag : Byte) (payload : List Byte) (first : Nat) (gaps : List Nat), s.link.rx = .hunt →
    payload.length ≤ 60 → (∀ x ∈ gaps, x ≤ 20000) → gaps.length = payload.length + 4 →
    (((first :: gaps).zip (frameBytes kind tag payload)).foldl
        (fun (o : Host.Outcome State Fault Refusal) x =>
          match o with
          | .next t => exec (.receivedByte x.1 x.2) t
          | o => o) (.next s)) = .next ((s.later (first + gaps.sum)).examineFrame kind tag payload)) ∧
  ∀ (s : State) (dt : Nat) (b : Byte),
    let now := s.clock.us + dt
    let c : Instr := .receivedByte dt b
    let u (x : Rx) : State := { s.later dt with link := { s.link with rx := x } }
    (s.link.rx = .hunt → exec c s = .next (u (if b = 0x7E then .length now else .hunt))) ∧
    (∀ at', s.link.rx.lastAt = some at' → at' + 20000 < now →
      exec c s = .next (u (if b = 0x7E then .length now else .hunt))) ∧
    (∀ at', s.link.rx = .length at' → now ≤ at' + 20000 →
      exec c s = .next (u (if 2 ≤ b.toNat ∧ b.toNat ≤ 62 then .body b.toNat [] b now else .hunt))) ∧
    (∀ len got sum at', s.link.rx = .body len got sum at' → now ≤ at' + 20000 →
      exec c s = .next (u (if len ≤ got.length + 1 then .check (got ++ [b]) (sum ^^^ b) now
        else .body len (got ++ [b]) (sum ^^^ b) now))) ∧
    ∀ got sum at', s.link.rx = .check got sum at' → now ≤ at' + 20000 → b ≠ sum → exec c s = .next (u .hunt)

/-- A request frame that RECEIVED_BYTE completes is taken as the request's own command, in every field of its payload (R203,
R204; the encodings are log entry 9's). -/
def Sys2Proof.Claims.framesSpellRequests : Prop :=
  ∀ (s : State) (dt : Nat) (tag a b e f g h : Byte),
    let frame (kind : Byte) (p : List Byte) : Host.Outcome State Fault Refusal :=
      .next ((s.frameLost dt).examineFrame kind tag p)
    let word (x y : Byte) : Nat := 256 * x.toNat + y.toNat
    frame 0x05 [a, b, 0xFF, 1, e, 0, 0, 0, 0, 0, 0xFF] = exec (.defineRoute dt tag (.fields
      ⟨a.toNat, b.toNat, none, [e.toNat], [], [], [], .omitted, .omitted, .omitted⟩)) s ∧
    frame 0x07 [a, b, e, f] = exec (.defineRoad dt tag (.fields ⟨a.toNat, word b e, f.toNat⟩)) s ∧
    frame 0x0E [5, 0xFF, 0xFF] = exec (.erase dt tag (.fields ⟨.value .turntable, none⟩)) s ∧
    frame 0x0F [12, a, b] = exec (.setParam dt tag (.fields ⟨.value .scaleDivisor, word a b⟩)) s ∧
    frame 0x10 [a, b, e, f, g, h] = exec (.setCaption dt tag (.fields ⟨a.toNat, [b, e, f, g, h]⟩)) s ∧
    frame 0x11 [] = exec (.startRun dt tag (.fields ())) s ∧ frame 0x12 [] = exec (.stopRun dt tag (.fields ())) s ∧
    frame 0x13 [] = exec (.haltLayout dt tag (.fields ())) s ∧ frame 0x14 [] = exec (.resume dt tag (.fields ())) s ∧
    frame 0x15 [] = exec (.reset dt tag (.fields ())) s ∧
    frame 0x20 [a, 1] = exec (.isolateFeed dt tag (.fields ⟨a.toNat, .value true⟩)) s ∧
    frame 0x21 [a] = exec (.restoreFeed dt tag (.fields a.toNat)) s ∧
    frame 0x22 [a, b, e, 1] = exec (.placeTrain dt tag (.fields ⟨word a b, e.toNat, .value .e1⟩)) s ∧
    frame 0x23 [a, b] = exec (.removeTrain dt tag (.fields (word a b))) s ∧
    frame 0x24 [a, 1] = exec (.throwPoint dt tag (.fields ⟨a.toNat, .value .reverse⟩)) s ∧
    frame 0x25 [a] = exec (.requestRoute dt tag (.fields a.toNat)) s ∧
    frame 0x28 [a, 2] = exec (.turn dt tag (.fields ⟨a.toNat, .value .any⟩)) s ∧
    frame 0x2F [a, b, e] = exec (.setText dt tag (.fields [a, b, e])) s ∧
    frame 0x30 [a, b] = exec (.query dt tag (.fields ⟨a.toNat, b.toNat⟩)) s ∧
    frame 0x25 [a, b] = exec (.requestRoute dt tag .wrongLength) s ∧
    frame 0x16 [a, b] = exec (.unknownKind dt tag 0x16) s

/-- The examination of frames (R202 to R204, R210) and the requests they spell (R203; log entries 9, 12, 14). -/
def Obligations.FramesAreExaminedInOrder : Prop := Sys2Proof.Claims.frameExamination ∧ Sys2Proof.Claims.framesSpellRequests
end

