-- ==== Sys2Proof/Laws/Tables.lean ====
section
/-! SUPPORT. The laws of the fixed-length tables: reading after a write, and tables equal entry by entry. -/

namespace Sys2Proof

variable {α β : Type} {n : Nat}

theorem tget_eq_getElem (t : Tab α n) (i : Fin n) : tget t i = t[i.val] := by
  simp [tget, Vector.toList]

/-- Two tables with the same entries are equal. -/
theorem tab_ext {t u : Tab α n} (h : ∀ i, tget t i = tget u i) : t = u := by
  apply Vector.ext
  intro i hi
  have := h ⟨i, hi⟩
  simpa [tget_eq_getElem] using this

/-- Reading after a write. -/
theorem tget_tset (t : Tab α n) (i j : Fin n) (a : α) : tget (tset t i a) j = if i = j then a else tget t j := by
  simp only [tget, tset, Vector.toList, List.get_eq_getElem, List.getElem_set]
  simp [Fin.ext_iff]

@[simp] theorem tget_tset_self (t : Tab α n) (i : Fin n) (a : α) : tget (tset t i a) i = a := by simp [tget_tset]

theorem tget_tset_ne (t : Tab α n) {i j : Fin n} (h : i ≠ j) (a : α) : tget (tset t i a) j = tget t j := by
  simp [tget_tset, h]

/-- Reading after an update. -/
theorem tget_tupd (t : Tab α n) (i j : Fin n) (f : α → α) :
    tget (tupd t i f) j = if i = j then f (tget t j) else tget t j := by
  rw [tupd, tget_tset]
  split
  · rename_i h; rw [h]
  · rfl

@[simp] theorem tget_tupd_self (t : Tab α n) (i : Fin n) (f : α → α) : tget (tupd t i f) i = f (tget t i) := by
  simp [tget_tupd]

theorem tget_tupd_ne (t : Tab α n) {i j : Fin n} (h : i ≠ j) (f : α → α) : tget (tupd t i f) j = tget t j := by
  simp [tget_tupd, h]

/-- Writing what stands there changes nothing. -/
@[simp] theorem tset_tget (t : Tab α n) (i : Fin n) : tset t i (tget t i) = t :=
  tab_ext fun j => by rw [tget_tset]; split <;> simp_all

@[simp] theorem tget_tfill (i : Fin n) (a : α) : tget (tfill n a) i = a := by
  simp [tget, tfill]

@[simp] theorem tget_tgen (f : Fin n → α) (i : Fin n) : tget (tgen n f) i = f i := by
  simp [tget, tgen, Vector.toList, indices]

@[simp] theorem tget_map (f : α → β) (t : Tab α n) (i : Fin n) : tget (t.map f) i = f (tget t i) := by
  simp [tget_eq_getElem]

/-- A projection of the entries commutes with a write. -/
theorem map_tset (f : α → β) (t : Tab α n) (i : Fin n) (a : α) : (tset t i a).map f = tset (t.map f) i (f a) :=
  tab_ext fun j => by simp only [tget_map, tget_tset]; split <;> rfl

/-- A projection that an update of one entry keeps is kept over the table. -/
theorem map_tupd_of (f : α → β) (t : Tab α n) (i : Fin n) (g : α → α) (h : f (g (tget t i)) = f (tget t i)) :
    (tupd t i g).map f = t.map f :=
  tab_ext fun j => by
    simp only [tget_map, tget_tupd]
    split
    · rename_i e; subst e; exact h
    · rfl

@[simp] theorem mem_indices (i : Fin n) : i ∈ indices n := by simp [indices]

@[simp] theorem index?_lt (k : Nat) (h : k < n) : index? n k = some ⟨k, h⟩ := by simp [index?, h]

theorem index?_none (k : Nat) (h : n ≤ k) : index? n k = none := by simp [index?]; omega

/-- An index in range names its own number. -/
theorem index?_some {k : Nat} {i : Fin n} (h : index? n k = some i) : i.val = k := by
  unfold index? at h
  split at h
  · cases h; rfl
  · cases h

@[simp] theorem index?_val (i : Fin n) : index? n i.val = some i := by simp [index?]

/-- A list with an entry joined at its tail holds it, keeps what it held and stays without repeats. -/
theorem mem_joinTail [DecidableEq α] (l : List α) (a b : α) : b ∈ joinTail l a ↔ b ∈ l ∨ b = a := by
  unfold joinTail
  split <;> simp_all

theorem joinTail_nodup [DecidableEq α] {l : List α} (h : l.Nodup) (a : α) : (joinTail l a).Nodup := by
  unfold joinTail
  split
  · exact h
  · rename_i ha
    rw [List.nodup_append]
    exact ⟨h, List.nodup_singleton a, by intro x hx y hy; simp only [List.mem_singleton] at hy; subst hy; rintro rfl; exact ha hx⟩

end Sys2Proof
end

