-- ==== Sys2Proof/Laws/State.lean ====
section
/-! SUPPORT. What each update of the state leaves: one lemma per field per update, so that no later proof unfolds one. -/

namespace Sys2Proof.Machine

variable (s : State)

/-! ### `State.advance` -/

@[simp] theorem State.advance_clock (dt : Nat) : (s.advance dt).clock = ⟨s.clock.us + dt, s.clock.base + BitVec.ofNat 32 dt⟩ := rfl
@[simp] theorem State.advance_mode (dt : Nat) : (s.advance dt).mode = s.mode := rfl
@[simp] theorem State.advance_tables (dt : Nat) : (s.advance dt).tables = s.tables := rfl
@[simp] theorem State.advance_params (dt : Nat) : (s.advance dt).params = s.params := rfl
@[simp] theorem State.advance_captions (dt : Nat) : (s.advance dt).captions = s.captions := rfl
@[simp] theorem State.advance_channels (dt : Nat) : (s.advance dt).channels = s.channels := rfl
@[simp] theorem State.advance_contacts (dt : Nat) : (s.advance dt).contacts = s.contacts := rfl
@[simp] theorem State.advance_feeds (dt : Nat) : (s.advance dt).feeds = s.feeds := rfl
@[simp] theorem State.advance_trains (dt : Nat) : (s.advance dt).trains = s.trains := rfl
@[simp] theorem State.advance_blockFlags (dt : Nat) : (s.advance dt).blockFlags = s.blockFlags := rfl
@[simp] theorem State.advance_points (dt : Nat) : (s.advance dt).points = s.points := rfl
@[simp] theorem State.advance_groups (dt : Nat) : (s.advance dt).groups = s.groups := rfl
@[simp] theorem State.advance_routes (dt : Nat) : (s.advance dt).routes = s.routes := rfl
@[simp] theorem State.advance_queue (dt : Nat) : (s.advance dt).queue = s.queue := rfl
@[simp] theorem State.advance_reservers (dt : Nat) : (s.advance dt).reservers = s.reservers := rfl
@[simp] theorem State.advance_signals (dt : Nat) : (s.advance dt).signals = s.signals := rfl
@[simp] theorem State.advance_filters (dt : Nat) : (s.advance dt).filters = s.filters := rfl
@[simp] theorem State.advance_traps (dt : Nat) : (s.advance dt).traps = s.traps := rfl
@[simp] theorem State.advance_deck (dt : Nat) : (s.advance dt).deck = s.deck := rfl
@[simp] theorem State.advance_bus (dt : Nat) : (s.advance dt).bus = s.bus := rfl
@[simp] theorem State.advance_modules (dt : Nat) : (s.advance dt).modules = s.modules := rfl
@[simp] theorem State.advance_text (dt : Nat) : (s.advance dt).text = s.text := rfl
@[simp] theorem State.advance_shows (dt : Nat) : (s.advance dt).shows = s.shows := rfl
@[simp] theorem State.advance_showQueue (dt : Nat) : (s.advance dt).showQueue = s.showQueue := rfl
@[simp] theorem State.advance_cues (dt : Nat) : (s.advance dt).cues = s.cues := rfl
@[simp] theorem State.advance_keys (dt : Nat) : (s.advance dt).keys = s.keys := rfl
@[simp] theorem State.advance_link (dt : Nat) : (s.advance dt).link = s.link := rfl
@[simp] theorem State.advance_work (dt : Nat) : (s.advance dt).work = s.work := rfl
@[simp] theorem State.advance_pending (dt : Nat) : (s.advance dt).pending = s.pending := rfl

/-! ### `State.updChannel` -/

@[simp] theorem State.updChannel_clock (b : Fin 48) (f : Channel → Channel) : (s.updChannel b f).clock = s.clock := rfl
@[simp] theorem State.updChannel_mode (b : Fin 48) (f : Channel → Channel) : (s.updChannel b f).mode = s.mode := rfl
@[simp] theorem State.updChannel_tables (b : Fin 48) (f : Channel → Channel) : (s.updChannel b f).tables = s.tables := rfl
@[simp] theorem State.updChannel_params (b : Fin 48) (f : Channel → Channel) : (s.updChannel b f).params = s.params := rfl
@[simp] theorem State.updChannel_captions (b : Fin 48) (f : Channel → Channel) : (s.updChannel b f).captions = s.captions := rfl
@[simp] theorem State.updChannel_channels (b : Fin 48) (f : Channel → Channel) : (s.updChannel b f).channels = tupd s.channels b f := rfl
@[simp] theorem State.updChannel_contacts (b : Fin 48) (f : Channel → Channel) : (s.updChannel b f).contacts = s.contacts := rfl
@[simp] theorem State.updChannel_feeds (b : Fin 48) (f : Channel → Channel) : (s.updChannel b f).feeds = s.feeds := rfl
@[simp] theorem State.updChannel_trains (b : Fin 48) (f : Channel → Channel) : (s.updChannel b f).trains = s.trains := rfl
@[simp] theorem State.updChannel_blockFlags (b : Fin 48) (f : Channel → Channel) : (s.updChannel b f).blockFlags = s.blockFlags := rfl
@[simp] theorem State.updChannel_points (b : Fin 48) (f : Channel → Channel) : (s.updChannel b f).points = s.points := rfl
@[simp] theorem State.updChannel_groups (b : Fin 48) (f : Channel → Channel) : (s.updChannel b f).groups = s.groups := rfl
@[simp] theorem State.updChannel_routes (b : Fin 48) (f : Channel → Channel) : (s.updChannel b f).routes = s.routes := rfl
@[simp] theorem State.updChannel_queue (b : Fin 48) (f : Channel → Channel) : (s.updChannel b f).queue = s.queue := rfl
@[simp] theorem State.updChannel_reservers (b : Fin 48) (f : Channel → Channel) : (s.updChannel b f).reservers = s.reservers := rfl
@[simp] theorem State.updChannel_signals (b : Fin 48) (f : Channel → Channel) : (s.updChannel b f).signals = s.signals := rfl
@[simp] theorem State.updChannel_filters (b : Fin 48) (f : Channel → Channel) : (s.updChannel b f).filters = s.filters := rfl
@[simp] theorem State.updChannel_traps (b : Fin 48) (f : Channel → Channel) : (s.updChannel b f).traps = s.traps := rfl
@[simp] theorem State.updChannel_deck (b : Fin 48) (f : Channel → Channel) : (s.updChannel b f).deck = s.deck := rfl
@[simp] theorem State.updChannel_bus (b : Fin 48) (f : Channel → Channel) : (s.updChannel b f).bus = s.bus := rfl
@[simp] theorem State.updChannel_modules (b : Fin 48) (f : Channel → Channel) : (s.updChannel b f).modules = s.modules := rfl
@[simp] theorem State.updChannel_text (b : Fin 48) (f : Channel → Channel) : (s.updChannel b f).text = s.text := rfl
@[simp] theorem State.updChannel_shows (b : Fin 48) (f : Channel → Channel) : (s.updChannel b f).shows = s.shows := rfl
@[simp] theorem State.updChannel_showQueue (b : Fin 48) (f : Channel → Channel) : (s.updChannel b f).showQueue = s.showQueue := rfl
@[simp] theorem State.updChannel_cues (b : Fin 48) (f : Channel → Channel) : (s.updChannel b f).cues = s.cues := rfl
@[simp] theorem State.updChannel_keys (b : Fin 48) (f : Channel → Channel) : (s.updChannel b f).keys = s.keys := rfl
@[simp] theorem State.updChannel_link (b : Fin 48) (f : Channel → Channel) : (s.updChannel b f).link = s.link := rfl
@[simp] theorem State.updChannel_work (b : Fin 48) (f : Channel → Channel) : (s.updChannel b f).work = s.work := rfl
@[simp] theorem State.updChannel_pending (b : Fin 48) (f : Channel → Channel) : (s.updChannel b f).pending = s.pending := rfl

/-! ### `State.updContact` -/

@[simp] theorem State.updContact_clock (p : Fin 64) (f : Contact → Contact) : (s.updContact p f).clock = s.clock := rfl
@[simp] theorem State.updContact_mode (p : Fin 64) (f : Contact → Contact) : (s.updContact p f).mode = s.mode := rfl
@[simp] theorem State.updContact_tables (p : Fin 64) (f : Contact → Contact) : (s.updContact p f).tables = s.tables := rfl
@[simp] theorem State.updContact_params (p : Fin 64) (f : Contact → Contact) : (s.updContact p f).params = s.params := rfl
@[simp] theorem State.updContact_captions (p : Fin 64) (f : Contact → Contact) : (s.updContact p f).captions = s.captions := rfl
@[simp] theorem State.updContact_channels (p : Fin 64) (f : Contact → Contact) : (s.updContact p f).channels = s.channels := rfl
@[simp] theorem State.updContact_contacts (p : Fin 64) (f : Contact → Contact) : (s.updContact p f).contacts = tupd s.contacts p f := rfl
@[simp] theorem State.updContact_feeds (p : Fin 64) (f : Contact → Contact) : (s.updContact p f).feeds = s.feeds := rfl
@[simp] theorem State.updContact_trains (p : Fin 64) (f : Contact → Contact) : (s.updContact p f).trains = s.trains := rfl
@[simp] theorem State.updContact_blockFlags (p : Fin 64) (f : Contact → Contact) : (s.updContact p f).blockFlags = s.blockFlags := rfl
@[simp] theorem State.updContact_points (p : Fin 64) (f : Contact → Contact) : (s.updContact p f).points = s.points := rfl
@[simp] theorem State.updContact_groups (p : Fin 64) (f : Contact → Contact) : (s.updContact p f).groups = s.groups := rfl
@[simp] theorem State.updContact_routes (p : Fin 64) (f : Contact → Contact) : (s.updContact p f).routes = s.routes := rfl
@[simp] theorem State.updContact_queue (p : Fin 64) (f : Contact → Contact) : (s.updContact p f).queue = s.queue := rfl
@[simp] theorem State.updContact_reservers (p : Fin 64) (f : Contact → Contact) : (s.updContact p f).reservers = s.reservers := rfl
@[simp] theorem State.updContact_signals (p : Fin 64) (f : Contact → Contact) : (s.updContact p f).signals = s.signals := rfl
@[simp] theorem State.updContact_filters (p : Fin 64) (f : Contact → Contact) : (s.updContact p f).filters = s.filters := rfl
@[simp] theorem State.updContact_traps (p : Fin 64) (f : Contact → Contact) : (s.updContact p f).traps = s.traps := rfl
@[simp] theorem State.updContact_deck (p : Fin 64) (f : Contact → Contact) : (s.updContact p f).deck = s.deck := rfl
@[simp] theorem State.updContact_bus (p : Fin 64) (f : Contact → Contact) : (s.updContact p f).bus = s.bus := rfl
@[simp] theorem State.updContact_modules (p : Fin 64) (f : Contact → Contact) : (s.updContact p f).modules = s.modules := rfl
@[simp] theorem State.updContact_text (p : Fin 64) (f : Contact → Contact) : (s.updContact p f).text = s.text := rfl
@[simp] theorem State.updContact_shows (p : Fin 64) (f : Contact → Contact) : (s.updContact p f).shows = s.shows := rfl
@[simp] theorem State.updContact_showQueue (p : Fin 64) (f : Contact → Contact) : (s.updContact p f).showQueue = s.showQueue := rfl
@[simp] theorem State.updContact_cues (p : Fin 64) (f : Contact → Contact) : (s.updContact p f).cues = s.cues := rfl
@[simp] theorem State.updContact_keys (p : Fin 64) (f : Contact → Contact) : (s.updContact p f).keys = s.keys := rfl
@[simp] theorem State.updContact_link (p : Fin 64) (f : Contact → Contact) : (s.updContact p f).link = s.link := rfl
@[simp] theorem State.updContact_work (p : Fin 64) (f : Contact → Contact) : (s.updContact p f).work = s.work := rfl
@[simp] theorem State.updContact_pending (p : Fin 64) (f : Contact → Contact) : (s.updContact p f).pending = s.pending := rfl

/-! ### `State.updFeed` -/

@[simp] theorem State.updFeed_clock (b : Fin 48) (f : Feed → Feed) : (s.updFeed b f).clock = s.clock := rfl
@[simp] theorem State.updFeed_mode (b : Fin 48) (f : Feed → Feed) : (s.updFeed b f).mode = s.mode := rfl
@[simp] theorem State.updFeed_tables (b : Fin 48) (f : Feed → Feed) : (s.updFeed b f).tables = s.tables := rfl
@[simp] theorem State.updFeed_params (b : Fin 48) (f : Feed → Feed) : (s.updFeed b f).params = s.params := rfl
@[simp] theorem State.updFeed_captions (b : Fin 48) (f : Feed → Feed) : (s.updFeed b f).captions = s.captions := rfl
@[simp] theorem State.updFeed_channels (b : Fin 48) (f : Feed → Feed) : (s.updFeed b f).channels = s.channels := rfl
@[simp] theorem State.updFeed_contacts (b : Fin 48) (f : Feed → Feed) : (s.updFeed b f).contacts = s.contacts := rfl
@[simp] theorem State.updFeed_feeds (b : Fin 48) (f : Feed → Feed) : (s.updFeed b f).feeds = tupd s.feeds b f := rfl
@[simp] theorem State.updFeed_trains (b : Fin 48) (f : Feed → Feed) : (s.updFeed b f).trains = s.trains := rfl
@[simp] theorem State.updFeed_blockFlags (b : Fin 48) (f : Feed → Feed) : (s.updFeed b f).blockFlags = s.blockFlags := rfl
@[simp] theorem State.updFeed_points (b : Fin 48) (f : Feed → Feed) : (s.updFeed b f).points = s.points := rfl
@[simp] theorem State.updFeed_groups (b : Fin 48) (f : Feed → Feed) : (s.updFeed b f).groups = s.groups := rfl
@[simp] theorem State.updFeed_routes (b : Fin 48) (f : Feed → Feed) : (s.updFeed b f).routes = s.routes := rfl
@[simp] theorem State.updFeed_queue (b : Fin 48) (f : Feed → Feed) : (s.updFeed b f).queue = s.queue := rfl
@[simp] theorem State.updFeed_reservers (b : Fin 48) (f : Feed → Feed) : (s.updFeed b f).reservers = s.reservers := rfl
@[simp] theorem State.updFeed_signals (b : Fin 48) (f : Feed → Feed) : (s.updFeed b f).signals = s.signals := rfl
@[simp] theorem State.updFeed_filters (b : Fin 48) (f : Feed → Feed) : (s.updFeed b f).filters = s.filters := rfl
@[simp] theorem State.updFeed_traps (b : Fin 48) (f : Feed → Feed) : (s.updFeed b f).traps = s.traps := rfl
@[simp] theorem State.updFeed_deck (b : Fin 48) (f : Feed → Feed) : (s.updFeed b f).deck = s.deck := rfl
@[simp] theorem State.updFeed_bus (b : Fin 48) (f : Feed → Feed) : (s.updFeed b f).bus = s.bus := rfl
@[simp] theorem State.updFeed_modules (b : Fin 48) (f : Feed → Feed) : (s.updFeed b f).modules = s.modules := rfl
@[simp] theorem State.updFeed_text (b : Fin 48) (f : Feed → Feed) : (s.updFeed b f).text = s.text := rfl
@[simp] theorem State.updFeed_shows (b : Fin 48) (f : Feed → Feed) : (s.updFeed b f).shows = s.shows := rfl
@[simp] theorem State.updFeed_showQueue (b : Fin 48) (f : Feed → Feed) : (s.updFeed b f).showQueue = s.showQueue := rfl
@[simp] theorem State.updFeed_cues (b : Fin 48) (f : Feed → Feed) : (s.updFeed b f).cues = s.cues := rfl
@[simp] theorem State.updFeed_keys (b : Fin 48) (f : Feed → Feed) : (s.updFeed b f).keys = s.keys := rfl
@[simp] theorem State.updFeed_link (b : Fin 48) (f : Feed → Feed) : (s.updFeed b f).link = s.link := rfl
@[simp] theorem State.updFeed_work (b : Fin 48) (f : Feed → Feed) : (s.updFeed b f).work = s.work := rfl
@[simp] theorem State.updFeed_pending (b : Fin 48) (f : Feed → Feed) : (s.updFeed b f).pending = s.pending := rfl

/-! ### `State.putTrain` -/

@[simp] theorem State.putTrain_clock (t : Fin 24) (x : Train) : (s.putTrain t x).clock = s.clock := rfl
@[simp] theorem State.putTrain_mode (t : Fin 24) (x : Train) : (s.putTrain t x).mode = s.mode := rfl
@[simp] theorem State.putTrain_tables (t : Fin 24) (x : Train) : (s.putTrain t x).tables = s.tables := rfl
@[simp] theorem State.putTrain_params (t : Fin 24) (x : Train) : (s.putTrain t x).params = s.params := rfl
@[simp] theorem State.putTrain_captions (t : Fin 24) (x : Train) : (s.putTrain t x).captions = s.captions := rfl
@[simp] theorem State.putTrain_channels (t : Fin 24) (x : Train) : (s.putTrain t x).channels = s.channels := rfl
@[simp] theorem State.putTrain_contacts (t : Fin 24) (x : Train) : (s.putTrain t x).contacts = s.contacts := rfl
@[simp] theorem State.putTrain_feeds (t : Fin 24) (x : Train) : (s.putTrain t x).feeds = s.feeds := rfl
@[simp] theorem State.putTrain_trains (t : Fin 24) (x : Train) : (s.putTrain t x).trains = tset s.trains t x := rfl
@[simp] theorem State.putTrain_blockFlags (t : Fin 24) (x : Train) : (s.putTrain t x).blockFlags = s.blockFlags := rfl
@[simp] theorem State.putTrain_points (t : Fin 24) (x : Train) : (s.putTrain t x).points = s.points := rfl
@[simp] theorem State.putTrain_groups (t : Fin 24) (x : Train) : (s.putTrain t x).groups = s.groups := rfl
@[simp] theorem State.putTrain_routes (t : Fin 24) (x : Train) : (s.putTrain t x).routes = s.routes := rfl
@[simp] theorem State.putTrain_queue (t : Fin 24) (x : Train) : (s.putTrain t x).queue = s.queue := rfl
@[simp] theorem State.putTrain_reservers (t : Fin 24) (x : Train) : (s.putTrain t x).reservers = s.reservers := rfl
@[simp] theorem State.putTrain_signals (t : Fin 24) (x : Train) : (s.putTrain t x).signals = s.signals := rfl
@[simp] theorem State.putTrain_filters (t : Fin 24) (x : Train) : (s.putTrain t x).filters = s.filters := rfl
@[simp] theorem State.putTrain_traps (t : Fin 24) (x : Train) : (s.putTrain t x).traps = s.traps := rfl
@[simp] theorem State.putTrain_deck (t : Fin 24) (x : Train) : (s.putTrain t x).deck = s.deck := rfl
@[simp] theorem State.putTrain_bus (t : Fin 24) (x : Train) : (s.putTrain t x).bus = s.bus := rfl
@[simp] theorem State.putTrain_modules (t : Fin 24) (x : Train) : (s.putTrain t x).modules = s.modules := rfl
@[simp] theorem State.putTrain_text (t : Fin 24) (x : Train) : (s.putTrain t x).text = s.text := rfl
@[simp] theorem State.putTrain_shows (t : Fin 24) (x : Train) : (s.putTrain t x).shows = s.shows := rfl
@[simp] theorem State.putTrain_showQueue (t : Fin 24) (x : Train) : (s.putTrain t x).showQueue = s.showQueue := rfl
@[simp] theorem State.putTrain_cues (t : Fin 24) (x : Train) : (s.putTrain t x).cues = s.cues := rfl
@[simp] theorem State.putTrain_keys (t : Fin 24) (x : Train) : (s.putTrain t x).keys = s.keys := rfl
@[simp] theorem State.putTrain_link (t : Fin 24) (x : Train) : (s.putTrain t x).link = s.link := rfl
@[simp] theorem State.putTrain_work (t : Fin 24) (x : Train) : (s.putTrain t x).work = s.work := rfl
@[simp] theorem State.putTrain_pending (t : Fin 24) (x : Train) : (s.putTrain t x).pending = s.pending := rfl

/-! ### `State.updFlags` -/

@[simp] theorem State.updFlags_clock (b : Fin 48) (f : BlockFlags → BlockFlags) : (s.updFlags b f).clock = s.clock := rfl
@[simp] theorem State.updFlags_mode (b : Fin 48) (f : BlockFlags → BlockFlags) : (s.updFlags b f).mode = s.mode := rfl
@[simp] theorem State.updFlags_tables (b : Fin 48) (f : BlockFlags → BlockFlags) : (s.updFlags b f).tables = s.tables := rfl
@[simp] theorem State.updFlags_params (b : Fin 48) (f : BlockFlags → BlockFlags) : (s.updFlags b f).params = s.params := rfl
@[simp] theorem State.updFlags_captions (b : Fin 48) (f : BlockFlags → BlockFlags) : (s.updFlags b f).captions = s.captions := rfl
@[simp] theorem State.updFlags_channels (b : Fin 48) (f : BlockFlags → BlockFlags) : (s.updFlags b f).channels = s.channels := rfl
@[simp] theorem State.updFlags_contacts (b : Fin 48) (f : BlockFlags → BlockFlags) : (s.updFlags b f).contacts = s.contacts := rfl
@[simp] theorem State.updFlags_feeds (b : Fin 48) (f : BlockFlags → BlockFlags) : (s.updFlags b f).feeds = s.feeds := rfl
@[simp] theorem State.updFlags_trains (b : Fin 48) (f : BlockFlags → BlockFlags) : (s.updFlags b f).trains = s.trains := rfl
@[simp] theorem State.updFlags_blockFlags (b : Fin 48) (f : BlockFlags → BlockFlags) : (s.updFlags b f).blockFlags = tupd s.blockFlags b f := rfl
@[simp] theorem State.updFlags_points (b : Fin 48) (f : BlockFlags → BlockFlags) : (s.updFlags b f).points = s.points := rfl
@[simp] theorem State.updFlags_groups (b : Fin 48) (f : BlockFlags → BlockFlags) : (s.updFlags b f).groups = s.groups := rfl
@[simp] theorem State.updFlags_routes (b : Fin 48) (f : BlockFlags → BlockFlags) : (s.updFlags b f).routes = s.routes := rfl
@[simp] theorem State.updFlags_queue (b : Fin 48) (f : BlockFlags → BlockFlags) : (s.updFlags b f).queue = s.queue := rfl
@[simp] theorem State.updFlags_reservers (b : Fin 48) (f : BlockFlags → BlockFlags) : (s.updFlags b f).reservers = s.reservers := rfl
@[simp] theorem State.updFlags_signals (b : Fin 48) (f : BlockFlags → BlockFlags) : (s.updFlags b f).signals = s.signals := rfl
@[simp] theorem State.updFlags_filters (b : Fin 48) (f : BlockFlags → BlockFlags) : (s.updFlags b f).filters = s.filters := rfl
@[simp] theorem State.updFlags_traps (b : Fin 48) (f : BlockFlags → BlockFlags) : (s.updFlags b f).traps = s.traps := rfl
@[simp] theorem State.updFlags_deck (b : Fin 48) (f : BlockFlags → BlockFlags) : (s.updFlags b f).deck = s.deck := rfl
@[simp] theorem State.updFlags_bus (b : Fin 48) (f : BlockFlags → BlockFlags) : (s.updFlags b f).bus = s.bus := rfl
@[simp] theorem State.updFlags_modules (b : Fin 48) (f : BlockFlags → BlockFlags) : (s.updFlags b f).modules = s.modules := rfl
@[simp] theorem State.updFlags_text (b : Fin 48) (f : BlockFlags → BlockFlags) : (s.updFlags b f).text = s.text := rfl
@[simp] theorem State.updFlags_shows (b : Fin 48) (f : BlockFlags → BlockFlags) : (s.updFlags b f).shows = s.shows := rfl
@[simp] theorem State.updFlags_showQueue (b : Fin 48) (f : BlockFlags → BlockFlags) : (s.updFlags b f).showQueue = s.showQueue := rfl
@[simp] theorem State.updFlags_cues (b : Fin 48) (f : BlockFlags → BlockFlags) : (s.updFlags b f).cues = s.cues := rfl
@[simp] theorem State.updFlags_keys (b : Fin 48) (f : BlockFlags → BlockFlags) : (s.updFlags b f).keys = s.keys := rfl
@[simp] theorem State.updFlags_link (b : Fin 48) (f : BlockFlags → BlockFlags) : (s.updFlags b f).link = s.link := rfl
@[simp] theorem State.updFlags_work (b : Fin 48) (f : BlockFlags → BlockFlags) : (s.updFlags b f).work = s.work := rfl
@[simp] theorem State.updFlags_pending (b : Fin 48) (f : BlockFlags → BlockFlags) : (s.updFlags b f).pending = s.pending := rfl

/-! ### `State.updPoint` -/

@[simp] theorem State.updPoint_clock (p : Fin 64) (f : PointRec → PointRec) : (s.updPoint p f).clock = s.clock := rfl
@[simp] theorem State.updPoint_mode (p : Fin 64) (f : PointRec → PointRec) : (s.updPoint p f).mode = s.mode := rfl
@[simp] theorem State.updPoint_tables (p : Fin 64) (f : PointRec → PointRec) : (s.updPoint p f).tables = s.tables := rfl
@[simp] theorem State.updPoint_params (p : Fin 64) (f : PointRec → PointRec) : (s.updPoint p f).params = s.params := rfl
@[simp] theorem State.updPoint_captions (p : Fin 64) (f : PointRec → PointRec) : (s.updPoint p f).captions = s.captions := rfl
@[simp] theorem State.updPoint_channels (p : Fin 64) (f : PointRec → PointRec) : (s.updPoint p f).channels = s.channels := rfl
@[simp] theorem State.updPoint_contacts (p : Fin 64) (f : PointRec → PointRec) : (s.updPoint p f).contacts = s.contacts := rfl
@[simp] theorem State.updPoint_feeds (p : Fin 64) (f : PointRec → PointRec) : (s.updPoint p f).feeds = s.feeds := rfl
@[simp] theorem State.updPoint_trains (p : Fin 64) (f : PointRec → PointRec) : (s.updPoint p f).trains = s.trains := rfl
@[simp] theorem State.updPoint_blockFlags (p : Fin 64) (f : PointRec → PointRec) : (s.updPoint p f).blockFlags = s.blockFlags := rfl
@[simp] theorem State.updPoint_points (p : Fin 64) (f : PointRec → PointRec) : (s.updPoint p f).points = tupd s.points p f := rfl
@[simp] theorem State.updPoint_groups (p : Fin 64) (f : PointRec → PointRec) : (s.updPoint p f).groups = s.groups := rfl
@[simp] theorem State.updPoint_routes (p : Fin 64) (f : PointRec → PointRec) : (s.updPoint p f).routes = s.routes := rfl
@[simp] theorem State.updPoint_queue (p : Fin 64) (f : PointRec → PointRec) : (s.updPoint p f).queue = s.queue := rfl
@[simp] theorem State.updPoint_reservers (p : Fin 64) (f : PointRec → PointRec) : (s.updPoint p f).reservers = s.reservers := rfl
@[simp] theorem State.updPoint_signals (p : Fin 64) (f : PointRec → PointRec) : (s.updPoint p f).signals = s.signals := rfl
@[simp] theorem State.updPoint_filters (p : Fin 64) (f : PointRec → PointRec) : (s.updPoint p f).filters = s.filters := rfl
@[simp] theorem State.updPoint_traps (p : Fin 64) (f : PointRec → PointRec) : (s.updPoint p f).traps = s.traps := rfl
@[simp] theorem State.updPoint_deck (p : Fin 64) (f : PointRec → PointRec) : (s.updPoint p f).deck = s.deck := rfl
@[simp] theorem State.updPoint_bus (p : Fin 64) (f : PointRec → PointRec) : (s.updPoint p f).bus = s.bus := rfl
@[simp] theorem State.updPoint_modules (p : Fin 64) (f : PointRec → PointRec) : (s.updPoint p f).modules = s.modules := rfl
@[simp] theorem State.updPoint_text (p : Fin 64) (f : PointRec → PointRec) : (s.updPoint p f).text = s.text := rfl
@[simp] theorem State.updPoint_shows (p : Fin 64) (f : PointRec → PointRec) : (s.updPoint p f).shows = s.shows := rfl
@[simp] theorem State.updPoint_showQueue (p : Fin 64) (f : PointRec → PointRec) : (s.updPoint p f).showQueue = s.showQueue := rfl
@[simp] theorem State.updPoint_cues (p : Fin 64) (f : PointRec → PointRec) : (s.updPoint p f).cues = s.cues := rfl
@[simp] theorem State.updPoint_keys (p : Fin 64) (f : PointRec → PointRec) : (s.updPoint p f).keys = s.keys := rfl
@[simp] theorem State.updPoint_link (p : Fin 64) (f : PointRec → PointRec) : (s.updPoint p f).link = s.link := rfl
@[simp] theorem State.updPoint_work (p : Fin 64) (f : PointRec → PointRec) : (s.updPoint p f).work = s.work := rfl
@[simp] theorem State.updPoint_pending (p : Fin 64) (f : PointRec → PointRec) : (s.updPoint p f).pending = s.pending := rfl

/-! ### `State.updGroup` -/

@[simp] theorem State.updGroup_clock (g : Fin 8) (f : GroupRec → GroupRec) : (s.updGroup g f).clock = s.clock := rfl
@[simp] theorem State.updGroup_mode (g : Fin 8) (f : GroupRec → GroupRec) : (s.updGroup g f).mode = s.mode := rfl
@[simp] theorem State.updGroup_tables (g : Fin 8) (f : GroupRec → GroupRec) : (s.updGroup g f).tables = s.tables := rfl
@[simp] theorem State.updGroup_params (g : Fin 8) (f : GroupRec → GroupRec) : (s.updGroup g f).params = s.params := rfl
@[simp] theorem State.updGroup_captions (g : Fin 8) (f : GroupRec → GroupRec) : (s.updGroup g f).captions = s.captions := rfl
@[simp] theorem State.updGroup_channels (g : Fin 8) (f : GroupRec → GroupRec) : (s.updGroup g f).channels = s.channels := rfl
@[simp] theorem State.updGroup_contacts (g : Fin 8) (f : GroupRec → GroupRec) : (s.updGroup g f).contacts = s.contacts := rfl
@[simp] theorem State.updGroup_feeds (g : Fin 8) (f : GroupRec → GroupRec) : (s.updGroup g f).feeds = s.feeds := rfl
@[simp] theorem State.updGroup_trains (g : Fin 8) (f : GroupRec → GroupRec) : (s.updGroup g f).trains = s.trains := rfl
@[simp] theorem State.updGroup_blockFlags (g : Fin 8) (f : GroupRec → GroupRec) : (s.updGroup g f).blockFlags = s.blockFlags := rfl
@[simp] theorem State.updGroup_points (g : Fin 8) (f : GroupRec → GroupRec) : (s.updGroup g f).points = s.points := rfl
@[simp] theorem State.updGroup_groups (g : Fin 8) (f : GroupRec → GroupRec) : (s.updGroup g f).groups = tupd s.groups g f := rfl
@[simp] theorem State.updGroup_routes (g : Fin 8) (f : GroupRec → GroupRec) : (s.updGroup g f).routes = s.routes := rfl
@[simp] theorem State.updGroup_queue (g : Fin 8) (f : GroupRec → GroupRec) : (s.updGroup g f).queue = s.queue := rfl
@[simp] theorem State.updGroup_reservers (g : Fin 8) (f : GroupRec → GroupRec) : (s.updGroup g f).reservers = s.reservers := rfl
@[simp] theorem State.updGroup_signals (g : Fin 8) (f : GroupRec → GroupRec) : (s.updGroup g f).signals = s.signals := rfl
@[simp] theorem State.updGroup_filters (g : Fin 8) (f : GroupRec → GroupRec) : (s.updGroup g f).filters = s.filters := rfl
@[simp] theorem State.updGroup_traps (g : Fin 8) (f : GroupRec → GroupRec) : (s.updGroup g f).traps = s.traps := rfl
@[simp] theorem State.updGroup_deck (g : Fin 8) (f : GroupRec → GroupRec) : (s.updGroup g f).deck = s.deck := rfl
@[simp] theorem State.updGroup_bus (g : Fin 8) (f : GroupRec → GroupRec) : (s.updGroup g f).bus = s.bus := rfl
@[simp] theorem State.updGroup_modules (g : Fin 8) (f : GroupRec → GroupRec) : (s.updGroup g f).modules = s.modules := rfl
@[simp] theorem State.updGroup_text (g : Fin 8) (f : GroupRec → GroupRec) : (s.updGroup g f).text = s.text := rfl
@[simp] theorem State.updGroup_shows (g : Fin 8) (f : GroupRec → GroupRec) : (s.updGroup g f).shows = s.shows := rfl
@[simp] theorem State.updGroup_showQueue (g : Fin 8) (f : GroupRec → GroupRec) : (s.updGroup g f).showQueue = s.showQueue := rfl
@[simp] theorem State.updGroup_cues (g : Fin 8) (f : GroupRec → GroupRec) : (s.updGroup g f).cues = s.cues := rfl
@[simp] theorem State.updGroup_keys (g : Fin 8) (f : GroupRec → GroupRec) : (s.updGroup g f).keys = s.keys := rfl
@[simp] theorem State.updGroup_link (g : Fin 8) (f : GroupRec → GroupRec) : (s.updGroup g f).link = s.link := rfl
@[simp] theorem State.updGroup_work (g : Fin 8) (f : GroupRec → GroupRec) : (s.updGroup g f).work = s.work := rfl
@[simp] theorem State.updGroup_pending (g : Fin 8) (f : GroupRec → GroupRec) : (s.updGroup g f).pending = s.pending := rfl

/-! ### `State.putRoute` -/

@[simp] theorem State.putRoute_clock (r : Fin 64) (x : RouteRec) : (s.putRoute r x).clock = s.clock := rfl
@[simp] theorem State.putRoute_mode (r : Fin 64) (x : RouteRec) : (s.putRoute r x).mode = s.mode := rfl
@[simp] theorem State.putRoute_tables (r : Fin 64) (x : RouteRec) : (s.putRoute r x).tables = s.tables := rfl
@[simp] theorem State.putRoute_params (r : Fin 64) (x : RouteRec) : (s.putRoute r x).params = s.params := rfl
@[simp] theorem State.putRoute_captions (r : Fin 64) (x : RouteRec) : (s.putRoute r x).captions = s.captions := rfl
@[simp] theorem State.putRoute_channels (r : Fin 64) (x : RouteRec) : (s.putRoute r x).channels = s.channels := rfl
@[simp] theorem State.putRoute_contacts (r : Fin 64) (x : RouteRec) : (s.putRoute r x).contacts = s.contacts := rfl
@[simp] theorem State.putRoute_feeds (r : Fin 64) (x : RouteRec) : (s.putRoute r x).feeds = s.feeds := rfl
@[simp] theorem State.putRoute_trains (r : Fin 64) (x : RouteRec) : (s.putRoute r x).trains = s.trains := rfl
@[simp] theorem State.putRoute_blockFlags (r : Fin 64) (x : RouteRec) : (s.putRoute r x).blockFlags = s.blockFlags := rfl
@[simp] theorem State.putRoute_points (r : Fin 64) (x : RouteRec) : (s.putRoute r x).points = s.points := rfl
@[simp] theorem State.putRoute_groups (r : Fin 64) (x : RouteRec) : (s.putRoute r x).groups = s.groups := rfl
@[simp] theorem State.putRoute_routes (r : Fin 64) (x : RouteRec) : (s.putRoute r x).routes = tset s.routes r x := rfl
@[simp] theorem State.putRoute_queue (r : Fin 64) (x : RouteRec) : (s.putRoute r x).queue = s.queue := rfl
@[simp] theorem State.putRoute_reservers (r : Fin 64) (x : RouteRec) : (s.putRoute r x).reservers = s.reservers := rfl
@[simp] theorem State.putRoute_signals (r : Fin 64) (x : RouteRec) : (s.putRoute r x).signals = s.signals := rfl
@[simp] theorem State.putRoute_filters (r : Fin 64) (x : RouteRec) : (s.putRoute r x).filters = s.filters := rfl
@[simp] theorem State.putRoute_traps (r : Fin 64) (x : RouteRec) : (s.putRoute r x).traps = s.traps := rfl
@[simp] theorem State.putRoute_deck (r : Fin 64) (x : RouteRec) : (s.putRoute r x).deck = s.deck := rfl
@[simp] theorem State.putRoute_bus (r : Fin 64) (x : RouteRec) : (s.putRoute r x).bus = s.bus := rfl
@[simp] theorem State.putRoute_modules (r : Fin 64) (x : RouteRec) : (s.putRoute r x).modules = s.modules := rfl
@[simp] theorem State.putRoute_text (r : Fin 64) (x : RouteRec) : (s.putRoute r x).text = s.text := rfl
@[simp] theorem State.putRoute_shows (r : Fin 64) (x : RouteRec) : (s.putRoute r x).shows = s.shows := rfl
@[simp] theorem State.putRoute_showQueue (r : Fin 64) (x : RouteRec) : (s.putRoute r x).showQueue = s.showQueue := rfl
@[simp] theorem State.putRoute_cues (r : Fin 64) (x : RouteRec) : (s.putRoute r x).cues = s.cues := rfl
@[simp] theorem State.putRoute_keys (r : Fin 64) (x : RouteRec) : (s.putRoute r x).keys = s.keys := rfl
@[simp] theorem State.putRoute_link (r : Fin 64) (x : RouteRec) : (s.putRoute r x).link = s.link := rfl
@[simp] theorem State.putRoute_work (r : Fin 64) (x : RouteRec) : (s.putRoute r x).work = s.work := rfl
@[simp] theorem State.putRoute_pending (r : Fin 64) (x : RouteRec) : (s.putRoute r x).pending = s.pending := rfl

/-! ### `State.putReserver` -/

@[simp] theorem State.putReserver_clock (b : Fin 48) (x : Option (Fin 64)) : (s.putReserver b x).clock = s.clock := rfl
@[simp] theorem State.putReserver_mode (b : Fin 48) (x : Option (Fin 64)) : (s.putReserver b x).mode = s.mode := rfl
@[simp] theorem State.putReserver_tables (b : Fin 48) (x : Option (Fin 64)) : (s.putReserver b x).tables = s.tables := rfl
@[simp] theorem State.putReserver_params (b : Fin 48) (x : Option (Fin 64)) : (s.putReserver b x).params = s.params := rfl
@[simp] theorem State.putReserver_captions (b : Fin 48) (x : Option (Fin 64)) : (s.putReserver b x).captions = s.captions := rfl
@[simp] theorem State.putReserver_channels (b : Fin 48) (x : Option (Fin 64)) : (s.putReserver b x).channels = s.channels := rfl
@[simp] theorem State.putReserver_contacts (b : Fin 48) (x : Option (Fin 64)) : (s.putReserver b x).contacts = s.contacts := rfl
@[simp] theorem State.putReserver_feeds (b : Fin 48) (x : Option (Fin 64)) : (s.putReserver b x).feeds = s.feeds := rfl
@[simp] theorem State.putReserver_trains (b : Fin 48) (x : Option (Fin 64)) : (s.putReserver b x).trains = s.trains := rfl
@[simp] theorem State.putReserver_blockFlags (b : Fin 48) (x : Option (Fin 64)) : (s.putReserver b x).blockFlags = s.blockFlags := rfl
@[simp] theorem State.putReserver_points (b : Fin 48) (x : Option (Fin 64)) : (s.putReserver b x).points = s.points := rfl
@[simp] theorem State.putReserver_groups (b : Fin 48) (x : Option (Fin 64)) : (s.putReserver b x).groups = s.groups := rfl
@[simp] theorem State.putReserver_routes (b : Fin 48) (x : Option (Fin 64)) : (s.putReserver b x).routes = s.routes := rfl
@[simp] theorem State.putReserver_queue (b : Fin 48) (x : Option (Fin 64)) : (s.putReserver b x).queue = s.queue := rfl
@[simp] theorem State.putReserver_reservers (b : Fin 48) (x : Option (Fin 64)) : (s.putReserver b x).reservers = tset s.reservers b x := rfl
@[simp] theorem State.putReserver_signals (b : Fin 48) (x : Option (Fin 64)) : (s.putReserver b x).signals = s.signals := rfl
@[simp] theorem State.putReserver_filters (b : Fin 48) (x : Option (Fin 64)) : (s.putReserver b x).filters = s.filters := rfl
@[simp] theorem State.putReserver_traps (b : Fin 48) (x : Option (Fin 64)) : (s.putReserver b x).traps = s.traps := rfl
@[simp] theorem State.putReserver_deck (b : Fin 48) (x : Option (Fin 64)) : (s.putReserver b x).deck = s.deck := rfl
@[simp] theorem State.putReserver_bus (b : Fin 48) (x : Option (Fin 64)) : (s.putReserver b x).bus = s.bus := rfl
@[simp] theorem State.putReserver_modules (b : Fin 48) (x : Option (Fin 64)) : (s.putReserver b x).modules = s.modules := rfl
@[simp] theorem State.putReserver_text (b : Fin 48) (x : Option (Fin 64)) : (s.putReserver b x).text = s.text := rfl
@[simp] theorem State.putReserver_shows (b : Fin 48) (x : Option (Fin 64)) : (s.putReserver b x).shows = s.shows := rfl
@[simp] theorem State.putReserver_showQueue (b : Fin 48) (x : Option (Fin 64)) : (s.putReserver b x).showQueue = s.showQueue := rfl
@[simp] theorem State.putReserver_cues (b : Fin 48) (x : Option (Fin 64)) : (s.putReserver b x).cues = s.cues := rfl
@[simp] theorem State.putReserver_keys (b : Fin 48) (x : Option (Fin 64)) : (s.putReserver b x).keys = s.keys := rfl
@[simp] theorem State.putReserver_link (b : Fin 48) (x : Option (Fin 64)) : (s.putReserver b x).link = s.link := rfl
@[simp] theorem State.putReserver_work (b : Fin 48) (x : Option (Fin 64)) : (s.putReserver b x).work = s.work := rfl
@[simp] theorem State.putReserver_pending (b : Fin 48) (x : Option (Fin 64)) : (s.putReserver b x).pending = s.pending := rfl

/-! ### `State.updSignal` -/

@[simp] theorem State.updSignal_clock (g : Fin 32) (f : SignalRec → SignalRec) : (s.updSignal g f).clock = s.clock := rfl
@[simp] theorem State.updSignal_mode (g : Fin 32) (f : SignalRec → SignalRec) : (s.updSignal g f).mode = s.mode := rfl
@[simp] theorem State.updSignal_tables (g : Fin 32) (f : SignalRec → SignalRec) : (s.updSignal g f).tables = s.tables := rfl
@[simp] theorem State.updSignal_params (g : Fin 32) (f : SignalRec → SignalRec) : (s.updSignal g f).params = s.params := rfl
@[simp] theorem State.updSignal_captions (g : Fin 32) (f : SignalRec → SignalRec) : (s.updSignal g f).captions = s.captions := rfl
@[simp] theorem State.updSignal_channels (g : Fin 32) (f : SignalRec → SignalRec) : (s.updSignal g f).channels = s.channels := rfl
@[simp] theorem State.updSignal_contacts (g : Fin 32) (f : SignalRec → SignalRec) : (s.updSignal g f).contacts = s.contacts := rfl
@[simp] theorem State.updSignal_feeds (g : Fin 32) (f : SignalRec → SignalRec) : (s.updSignal g f).feeds = s.feeds := rfl
@[simp] theorem State.updSignal_trains (g : Fin 32) (f : SignalRec → SignalRec) : (s.updSignal g f).trains = s.trains := rfl
@[simp] theorem State.updSignal_blockFlags (g : Fin 32) (f : SignalRec → SignalRec) : (s.updSignal g f).blockFlags = s.blockFlags := rfl
@[simp] theorem State.updSignal_points (g : Fin 32) (f : SignalRec → SignalRec) : (s.updSignal g f).points = s.points := rfl
@[simp] theorem State.updSignal_groups (g : Fin 32) (f : SignalRec → SignalRec) : (s.updSignal g f).groups = s.groups := rfl
@[simp] theorem State.updSignal_routes (g : Fin 32) (f : SignalRec → SignalRec) : (s.updSignal g f).routes = s.routes := rfl
@[simp] theorem State.updSignal_queue (g : Fin 32) (f : SignalRec → SignalRec) : (s.updSignal g f).queue = s.queue := rfl
@[simp] theorem State.updSignal_reservers (g : Fin 32) (f : SignalRec → SignalRec) : (s.updSignal g f).reservers = s.reservers := rfl
@[simp] theorem State.updSignal_signals (g : Fin 32) (f : SignalRec → SignalRec) : (s.updSignal g f).signals = tupd s.signals g f := rfl
@[simp] theorem State.updSignal_filters (g : Fin 32) (f : SignalRec → SignalRec) : (s.updSignal g f).filters = s.filters := rfl
@[simp] theorem State.updSignal_traps (g : Fin 32) (f : SignalRec → SignalRec) : (s.updSignal g f).traps = s.traps := rfl
@[simp] theorem State.updSignal_deck (g : Fin 32) (f : SignalRec → SignalRec) : (s.updSignal g f).deck = s.deck := rfl
@[simp] theorem State.updSignal_bus (g : Fin 32) (f : SignalRec → SignalRec) : (s.updSignal g f).bus = s.bus := rfl
@[simp] theorem State.updSignal_modules (g : Fin 32) (f : SignalRec → SignalRec) : (s.updSignal g f).modules = s.modules := rfl
@[simp] theorem State.updSignal_text (g : Fin 32) (f : SignalRec → SignalRec) : (s.updSignal g f).text = s.text := rfl
@[simp] theorem State.updSignal_shows (g : Fin 32) (f : SignalRec → SignalRec) : (s.updSignal g f).shows = s.shows := rfl
@[simp] theorem State.updSignal_showQueue (g : Fin 32) (f : SignalRec → SignalRec) : (s.updSignal g f).showQueue = s.showQueue := rfl
@[simp] theorem State.updSignal_cues (g : Fin 32) (f : SignalRec → SignalRec) : (s.updSignal g f).cues = s.cues := rfl
@[simp] theorem State.updSignal_keys (g : Fin 32) (f : SignalRec → SignalRec) : (s.updSignal g f).keys = s.keys := rfl
@[simp] theorem State.updSignal_link (g : Fin 32) (f : SignalRec → SignalRec) : (s.updSignal g f).link = s.link := rfl
@[simp] theorem State.updSignal_work (g : Fin 32) (f : SignalRec → SignalRec) : (s.updSignal g f).work = s.work := rfl
@[simp] theorem State.updSignal_pending (g : Fin 32) (f : SignalRec → SignalRec) : (s.updSignal g f).pending = s.pending := rfl

/-! ### `State.putFilter` -/

@[simp] theorem State.putFilter_clock (g : Fin 8) (x : Filter) : (s.putFilter g x).clock = s.clock := rfl
@[simp] theorem State.putFilter_mode (g : Fin 8) (x : Filter) : (s.putFilter g x).mode = s.mode := rfl
@[simp] theorem State.putFilter_tables (g : Fin 8) (x : Filter) : (s.putFilter g x).tables = s.tables := rfl
@[simp] theorem State.putFilter_params (g : Fin 8) (x : Filter) : (s.putFilter g x).params = s.params := rfl
@[simp] theorem State.putFilter_captions (g : Fin 8) (x : Filter) : (s.putFilter g x).captions = s.captions := rfl
@[simp] theorem State.putFilter_channels (g : Fin 8) (x : Filter) : (s.putFilter g x).channels = s.channels := rfl
@[simp] theorem State.putFilter_contacts (g : Fin 8) (x : Filter) : (s.putFilter g x).contacts = s.contacts := rfl
@[simp] theorem State.putFilter_feeds (g : Fin 8) (x : Filter) : (s.putFilter g x).feeds = s.feeds := rfl
@[simp] theorem State.putFilter_trains (g : Fin 8) (x : Filter) : (s.putFilter g x).trains = s.trains := rfl
@[simp] theorem State.putFilter_blockFlags (g : Fin 8) (x : Filter) : (s.putFilter g x).blockFlags = s.blockFlags := rfl
@[simp] theorem State.putFilter_points (g : Fin 8) (x : Filter) : (s.putFilter g x).points = s.points := rfl
@[simp] theorem State.putFilter_groups (g : Fin 8) (x : Filter) : (s.putFilter g x).groups = s.groups := rfl
@[simp] theorem State.putFilter_routes (g : Fin 8) (x : Filter) : (s.putFilter g x).routes = s.routes := rfl
@[simp] theorem State.putFilter_queue (g : Fin 8) (x : Filter) : (s.putFilter g x).queue = s.queue := rfl
@[simp] theorem State.putFilter_reservers (g : Fin 8) (x : Filter) : (s.putFilter g x).reservers = s.reservers := rfl
@[simp] theorem State.putFilter_signals (g : Fin 8) (x : Filter) : (s.putFilter g x).signals = s.signals := rfl
@[simp] theorem State.putFilter_filters (g : Fin 8) (x : Filter) : (s.putFilter g x).filters = tset s.filters g x := rfl
@[simp] theorem State.putFilter_traps (g : Fin 8) (x : Filter) : (s.putFilter g x).traps = s.traps := rfl
@[simp] theorem State.putFilter_deck (g : Fin 8) (x : Filter) : (s.putFilter g x).deck = s.deck := rfl
@[simp] theorem State.putFilter_bus (g : Fin 8) (x : Filter) : (s.putFilter g x).bus = s.bus := rfl
@[simp] theorem State.putFilter_modules (g : Fin 8) (x : Filter) : (s.putFilter g x).modules = s.modules := rfl
@[simp] theorem State.putFilter_text (g : Fin 8) (x : Filter) : (s.putFilter g x).text = s.text := rfl
@[simp] theorem State.putFilter_shows (g : Fin 8) (x : Filter) : (s.putFilter g x).shows = s.shows := rfl
@[simp] theorem State.putFilter_showQueue (g : Fin 8) (x : Filter) : (s.putFilter g x).showQueue = s.showQueue := rfl
@[simp] theorem State.putFilter_cues (g : Fin 8) (x : Filter) : (s.putFilter g x).cues = s.cues := rfl
@[simp] theorem State.putFilter_keys (g : Fin 8) (x : Filter) : (s.putFilter g x).keys = s.keys := rfl
@[simp] theorem State.putFilter_link (g : Fin 8) (x : Filter) : (s.putFilter g x).link = s.link := rfl
@[simp] theorem State.putFilter_work (g : Fin 8) (x : Filter) : (s.putFilter g x).work = s.work := rfl
@[simp] theorem State.putFilter_pending (g : Fin 8) (x : Filter) : (s.putFilter g x).pending = s.pending := rfl

/-! ### `State.updTrap` -/

@[simp] theorem State.updTrap_clock (t : Fin 4) (f : TrapRec → TrapRec) : (s.updTrap t f).clock = s.clock := rfl
@[simp] theorem State.updTrap_mode (t : Fin 4) (f : TrapRec → TrapRec) : (s.updTrap t f).mode = s.mode := rfl
@[simp] theorem State.updTrap_tables (t : Fin 4) (f : TrapRec → TrapRec) : (s.updTrap t f).tables = s.tables := rfl
@[simp] theorem State.updTrap_params (t : Fin 4) (f : TrapRec → TrapRec) : (s.updTrap t f).params = s.params := rfl
@[simp] theorem State.updTrap_captions (t : Fin 4) (f : TrapRec → TrapRec) : (s.updTrap t f).captions = s.captions := rfl
@[simp] theorem State.updTrap_channels (t : Fin 4) (f : TrapRec → TrapRec) : (s.updTrap t f).channels = s.channels := rfl
@[simp] theorem State.updTrap_contacts (t : Fin 4) (f : TrapRec → TrapRec) : (s.updTrap t f).contacts = s.contacts := rfl
@[simp] theorem State.updTrap_feeds (t : Fin 4) (f : TrapRec → TrapRec) : (s.updTrap t f).feeds = s.feeds := rfl
@[simp] theorem State.updTrap_trains (t : Fin 4) (f : TrapRec → TrapRec) : (s.updTrap t f).trains = s.trains := rfl
@[simp] theorem State.updTrap_blockFlags (t : Fin 4) (f : TrapRec → TrapRec) : (s.updTrap t f).blockFlags = s.blockFlags := rfl
@[simp] theorem State.updTrap_points (t : Fin 4) (f : TrapRec → TrapRec) : (s.updTrap t f).points = s.points := rfl
@[simp] theorem State.updTrap_groups (t : Fin 4) (f : TrapRec → TrapRec) : (s.updTrap t f).groups = s.groups := rfl
@[simp] theorem State.updTrap_routes (t : Fin 4) (f : TrapRec → TrapRec) : (s.updTrap t f).routes = s.routes := rfl
@[simp] theorem State.updTrap_queue (t : Fin 4) (f : TrapRec → TrapRec) : (s.updTrap t f).queue = s.queue := rfl
@[simp] theorem State.updTrap_reservers (t : Fin 4) (f : TrapRec → TrapRec) : (s.updTrap t f).reservers = s.reservers := rfl
@[simp] theorem State.updTrap_signals (t : Fin 4) (f : TrapRec → TrapRec) : (s.updTrap t f).signals = s.signals := rfl
@[simp] theorem State.updTrap_filters (t : Fin 4) (f : TrapRec → TrapRec) : (s.updTrap t f).filters = s.filters := rfl
@[simp] theorem State.updTrap_traps (t : Fin 4) (f : TrapRec → TrapRec) : (s.updTrap t f).traps = tupd s.traps t f := rfl
@[simp] theorem State.updTrap_deck (t : Fin 4) (f : TrapRec → TrapRec) : (s.updTrap t f).deck = s.deck := rfl
@[simp] theorem State.updTrap_bus (t : Fin 4) (f : TrapRec → TrapRec) : (s.updTrap t f).bus = s.bus := rfl
@[simp] theorem State.updTrap_modules (t : Fin 4) (f : TrapRec → TrapRec) : (s.updTrap t f).modules = s.modules := rfl
@[simp] theorem State.updTrap_text (t : Fin 4) (f : TrapRec → TrapRec) : (s.updTrap t f).text = s.text := rfl
@[simp] theorem State.updTrap_shows (t : Fin 4) (f : TrapRec → TrapRec) : (s.updTrap t f).shows = s.shows := rfl
@[simp] theorem State.updTrap_showQueue (t : Fin 4) (f : TrapRec → TrapRec) : (s.updTrap t f).showQueue = s.showQueue := rfl
@[simp] theorem State.updTrap_cues (t : Fin 4) (f : TrapRec → TrapRec) : (s.updTrap t f).cues = s.cues := rfl
@[simp] theorem State.updTrap_keys (t : Fin 4) (f : TrapRec → TrapRec) : (s.updTrap t f).keys = s.keys := rfl
@[simp] theorem State.updTrap_link (t : Fin 4) (f : TrapRec → TrapRec) : (s.updTrap t f).link = s.link := rfl
@[simp] theorem State.updTrap_work (t : Fin 4) (f : TrapRec → TrapRec) : (s.updTrap t f).work = s.work := rfl
@[simp] theorem State.updTrap_pending (t : Fin 4) (f : TrapRec → TrapRec) : (s.updTrap t f).pending = s.pending := rfl

/-! ### `State.updDeck` -/

@[simp] theorem State.updDeck_clock (f : Deck → Deck) : (s.updDeck f).clock = s.clock := rfl
@[simp] theorem State.updDeck_mode (f : Deck → Deck) : (s.updDeck f).mode = s.mode := rfl
@[simp] theorem State.updDeck_tables (f : Deck → Deck) : (s.updDeck f).tables = s.tables := rfl
@[simp] theorem State.updDeck_params (f : Deck → Deck) : (s.updDeck f).params = s.params := rfl
@[simp] theorem State.updDeck_captions (f : Deck → Deck) : (s.updDeck f).captions = s.captions := rfl
@[simp] theorem State.updDeck_channels (f : Deck → Deck) : (s.updDeck f).channels = s.channels := rfl
@[simp] theorem State.updDeck_contacts (f : Deck → Deck) : (s.updDeck f).contacts = s.contacts := rfl
@[simp] theorem State.updDeck_feeds (f : Deck → Deck) : (s.updDeck f).feeds = s.feeds := rfl
@[simp] theorem State.updDeck_trains (f : Deck → Deck) : (s.updDeck f).trains = s.trains := rfl
@[simp] theorem State.updDeck_blockFlags (f : Deck → Deck) : (s.updDeck f).blockFlags = s.blockFlags := rfl
@[simp] theorem State.updDeck_points (f : Deck → Deck) : (s.updDeck f).points = s.points := rfl
@[simp] theorem State.updDeck_groups (f : Deck → Deck) : (s.updDeck f).groups = s.groups := rfl
@[simp] theorem State.updDeck_routes (f : Deck → Deck) : (s.updDeck f).routes = s.routes := rfl
@[simp] theorem State.updDeck_queue (f : Deck → Deck) : (s.updDeck f).queue = s.queue := rfl
@[simp] theorem State.updDeck_reservers (f : Deck → Deck) : (s.updDeck f).reservers = s.reservers := rfl
@[simp] theorem State.updDeck_signals (f : Deck → Deck) : (s.updDeck f).signals = s.signals := rfl
@[simp] theorem State.updDeck_filters (f : Deck → Deck) : (s.updDeck f).filters = s.filters := rfl
@[simp] theorem State.updDeck_traps (f : Deck → Deck) : (s.updDeck f).traps = s.traps := rfl
@[simp] theorem State.updDeck_deck (f : Deck → Deck) : (s.updDeck f).deck = f s.deck := rfl
@[simp] theorem State.updDeck_bus (f : Deck → Deck) : (s.updDeck f).bus = s.bus := rfl
@[simp] theorem State.updDeck_modules (f : Deck → Deck) : (s.updDeck f).modules = s.modules := rfl
@[simp] theorem State.updDeck_text (f : Deck → Deck) : (s.updDeck f).text = s.text := rfl
@[simp] theorem State.updDeck_shows (f : Deck → Deck) : (s.updDeck f).shows = s.shows := rfl
@[simp] theorem State.updDeck_showQueue (f : Deck → Deck) : (s.updDeck f).showQueue = s.showQueue := rfl
@[simp] theorem State.updDeck_cues (f : Deck → Deck) : (s.updDeck f).cues = s.cues := rfl
@[simp] theorem State.updDeck_keys (f : Deck → Deck) : (s.updDeck f).keys = s.keys := rfl
@[simp] theorem State.updDeck_link (f : Deck → Deck) : (s.updDeck f).link = s.link := rfl
@[simp] theorem State.updDeck_work (f : Deck → Deck) : (s.updDeck f).work = s.work := rfl
@[simp] theorem State.updDeck_pending (f : Deck → Deck) : (s.updDeck f).pending = s.pending := rfl

/-! ### `State.updBus` -/

@[simp] theorem State.updBus_clock (f : Bus → Bus) : (s.updBus f).clock = s.clock := rfl
@[simp] theorem State.updBus_mode (f : Bus → Bus) : (s.updBus f).mode = s.mode := rfl
@[simp] theorem State.updBus_tables (f : Bus → Bus) : (s.updBus f).tables = s.tables := rfl
@[simp] theorem State.updBus_params (f : Bus → Bus) : (s.updBus f).params = s.params := rfl
@[simp] theorem State.updBus_captions (f : Bus → Bus) : (s.updBus f).captions = s.captions := rfl
@[simp] theorem State.updBus_channels (f : Bus → Bus) : (s.updBus f).channels = s.channels := rfl
@[simp] theorem State.updBus_contacts (f : Bus → Bus) : (s.updBus f).contacts = s.contacts := rfl
@[simp] theorem State.updBus_feeds (f : Bus → Bus) : (s.updBus f).feeds = s.feeds := rfl
@[simp] theorem State.updBus_trains (f : Bus → Bus) : (s.updBus f).trains = s.trains := rfl
@[simp] theorem State.updBus_blockFlags (f : Bus → Bus) : (s.updBus f).blockFlags = s.blockFlags := rfl
@[simp] theorem State.updBus_points (f : Bus → Bus) : (s.updBus f).points = s.points := rfl
@[simp] theorem State.updBus_groups (f : Bus → Bus) : (s.updBus f).groups = s.groups := rfl
@[simp] theorem State.updBus_routes (f : Bus → Bus) : (s.updBus f).routes = s.routes := rfl
@[simp] theorem State.updBus_queue (f : Bus → Bus) : (s.updBus f).queue = s.queue := rfl
@[simp] theorem State.updBus_reservers (f : Bus → Bus) : (s.updBus f).reservers = s.reservers := rfl
@[simp] theorem State.updBus_signals (f : Bus → Bus) : (s.updBus f).signals = s.signals := rfl
@[simp] theorem State.updBus_filters (f : Bus → Bus) : (s.updBus f).filters = s.filters := rfl
@[simp] theorem State.updBus_traps (f : Bus → Bus) : (s.updBus f).traps = s.traps := rfl
@[simp] theorem State.updBus_deck (f : Bus → Bus) : (s.updBus f).deck = s.deck := rfl
@[simp] theorem State.updBus_bus (f : Bus → Bus) : (s.updBus f).bus = f s.bus := rfl
@[simp] theorem State.updBus_modules (f : Bus → Bus) : (s.updBus f).modules = s.modules := rfl
@[simp] theorem State.updBus_text (f : Bus → Bus) : (s.updBus f).text = s.text := rfl
@[simp] theorem State.updBus_shows (f : Bus → Bus) : (s.updBus f).shows = s.shows := rfl
@[simp] theorem State.updBus_showQueue (f : Bus → Bus) : (s.updBus f).showQueue = s.showQueue := rfl
@[simp] theorem State.updBus_cues (f : Bus → Bus) : (s.updBus f).cues = s.cues := rfl
@[simp] theorem State.updBus_keys (f : Bus → Bus) : (s.updBus f).keys = s.keys := rfl
@[simp] theorem State.updBus_link (f : Bus → Bus) : (s.updBus f).link = s.link := rfl
@[simp] theorem State.updBus_work (f : Bus → Bus) : (s.updBus f).work = s.work := rfl
@[simp] theorem State.updBus_pending (f : Bus → Bus) : (s.updBus f).pending = s.pending := rfl

/-! ### `State.updModule` -/

@[simp] theorem State.updModule_clock (m : Fin 24) (f : ModuleRec → ModuleRec) : (s.updModule m f).clock = s.clock := rfl
@[simp] theorem State.updModule_mode (m : Fin 24) (f : ModuleRec → ModuleRec) : (s.updModule m f).mode = s.mode := rfl
@[simp] theorem State.updModule_tables (m : Fin 24) (f : ModuleRec → ModuleRec) : (s.updModule m f).tables = s.tables := rfl
@[simp] theorem State.updModule_params (m : Fin 24) (f : ModuleRec → ModuleRec) : (s.updModule m f).params = s.params := rfl
@[simp] theorem State.updModule_captions (m : Fin 24) (f : ModuleRec → ModuleRec) : (s.updModule m f).captions = s.captions := rfl
@[simp] theorem State.updModule_channels (m : Fin 24) (f : ModuleRec → ModuleRec) : (s.updModule m f).channels = s.channels := rfl
@[simp] theorem State.updModule_contacts (m : Fin 24) (f : ModuleRec → ModuleRec) : (s.updModule m f).contacts = s.contacts := rfl
@[simp] theorem State.updModule_feeds (m : Fin 24) (f : ModuleRec → ModuleRec) : (s.updModule m f).feeds = s.feeds := rfl
@[simp] theorem State.updModule_trains (m : Fin 24) (f : ModuleRec → ModuleRec) : (s.updModule m f).trains = s.trains := rfl
@[simp] theorem State.updModule_blockFlags (m : Fin 24) (f : ModuleRec → ModuleRec) : (s.updModule m f).blockFlags = s.blockFlags := rfl
@[simp] theorem State.updModule_points (m : Fin 24) (f : ModuleRec → ModuleRec) : (s.updModule m f).points = s.points := rfl
@[simp] theorem State.updModule_groups (m : Fin 24) (f : ModuleRec → ModuleRec) : (s.updModule m f).groups = s.groups := rfl
@[simp] theorem State.updModule_routes (m : Fin 24) (f : ModuleRec → ModuleRec) : (s.updModule m f).routes = s.routes := rfl
@[simp] theorem State.updModule_queue (m : Fin 24) (f : ModuleRec → ModuleRec) : (s.updModule m f).queue = s.queue := rfl
@[simp] theorem State.updModule_reservers (m : Fin 24) (f : ModuleRec → ModuleRec) : (s.updModule m f).reservers = s.reservers := rfl
@[simp] theorem State.updModule_signals (m : Fin 24) (f : ModuleRec → ModuleRec) : (s.updModule m f).signals = s.signals := rfl
@[simp] theorem State.updModule_filters (m : Fin 24) (f : ModuleRec → ModuleRec) : (s.updModule m f).filters = s.filters := rfl
@[simp] theorem State.updModule_traps (m : Fin 24) (f : ModuleRec → ModuleRec) : (s.updModule m f).traps = s.traps := rfl
@[simp] theorem State.updModule_deck (m : Fin 24) (f : ModuleRec → ModuleRec) : (s.updModule m f).deck = s.deck := rfl
@[simp] theorem State.updModule_bus (m : Fin 24) (f : ModuleRec → ModuleRec) : (s.updModule m f).bus = s.bus := rfl
@[simp] theorem State.updModule_modules (m : Fin 24) (f : ModuleRec → ModuleRec) : (s.updModule m f).modules = tupd s.modules m f := rfl
@[simp] theorem State.updModule_text (m : Fin 24) (f : ModuleRec → ModuleRec) : (s.updModule m f).text = s.text := rfl
@[simp] theorem State.updModule_shows (m : Fin 24) (f : ModuleRec → ModuleRec) : (s.updModule m f).shows = s.shows := rfl
@[simp] theorem State.updModule_showQueue (m : Fin 24) (f : ModuleRec → ModuleRec) : (s.updModule m f).showQueue = s.showQueue := rfl
@[simp] theorem State.updModule_cues (m : Fin 24) (f : ModuleRec → ModuleRec) : (s.updModule m f).cues = s.cues := rfl
@[simp] theorem State.updModule_keys (m : Fin 24) (f : ModuleRec → ModuleRec) : (s.updModule m f).keys = s.keys := rfl
@[simp] theorem State.updModule_link (m : Fin 24) (f : ModuleRec → ModuleRec) : (s.updModule m f).link = s.link := rfl
@[simp] theorem State.updModule_work (m : Fin 24) (f : ModuleRec → ModuleRec) : (s.updModule m f).work = s.work := rfl
@[simp] theorem State.updModule_pending (m : Fin 24) (f : ModuleRec → ModuleRec) : (s.updModule m f).pending = s.pending := rfl

/-! ### `State.updShow` -/

@[simp] theorem State.updShow_clock (i : Fin 8) (f : ShowRec → ShowRec) : (s.updShow i f).clock = s.clock := rfl
@[simp] theorem State.updShow_mode (i : Fin 8) (f : ShowRec → ShowRec) : (s.updShow i f).mode = s.mode := rfl
@[simp] theorem State.updShow_tables (i : Fin 8) (f : ShowRec → ShowRec) : (s.updShow i f).tables = s.tables := rfl
@[simp] theorem State.updShow_params (i : Fin 8) (f : ShowRec → ShowRec) : (s.updShow i f).params = s.params := rfl
@[simp] theorem State.updShow_captions (i : Fin 8) (f : ShowRec → ShowRec) : (s.updShow i f).captions = s.captions := rfl
@[simp] theorem State.updShow_channels (i : Fin 8) (f : ShowRec → ShowRec) : (s.updShow i f).channels = s.channels := rfl
@[simp] theorem State.updShow_contacts (i : Fin 8) (f : ShowRec → ShowRec) : (s.updShow i f).contacts = s.contacts := rfl
@[simp] theorem State.updShow_feeds (i : Fin 8) (f : ShowRec → ShowRec) : (s.updShow i f).feeds = s.feeds := rfl
@[simp] theorem State.updShow_trains (i : Fin 8) (f : ShowRec → ShowRec) : (s.updShow i f).trains = s.trains := rfl
@[simp] theorem State.updShow_blockFlags (i : Fin 8) (f : ShowRec → ShowRec) : (s.updShow i f).blockFlags = s.blockFlags := rfl
@[simp] theorem State.updShow_points (i : Fin 8) (f : ShowRec → ShowRec) : (s.updShow i f).points = s.points := rfl
@[simp] theorem State.updShow_groups (i : Fin 8) (f : ShowRec → ShowRec) : (s.updShow i f).groups = s.groups := rfl
@[simp] theorem State.updShow_routes (i : Fin 8) (f : ShowRec → ShowRec) : (s.updShow i f).routes = s.routes := rfl
@[simp] theorem State.updShow_queue (i : Fin 8) (f : ShowRec → ShowRec) : (s.updShow i f).queue = s.queue := rfl
@[simp] theorem State.updShow_reservers (i : Fin 8) (f : ShowRec → ShowRec) : (s.updShow i f).reservers = s.reservers := rfl
@[simp] theorem State.updShow_signals (i : Fin 8) (f : ShowRec → ShowRec) : (s.updShow i f).signals = s.signals := rfl
@[simp] theorem State.updShow_filters (i : Fin 8) (f : ShowRec → ShowRec) : (s.updShow i f).filters = s.filters := rfl
@[simp] theorem State.updShow_traps (i : Fin 8) (f : ShowRec → ShowRec) : (s.updShow i f).traps = s.traps := rfl
@[simp] theorem State.updShow_deck (i : Fin 8) (f : ShowRec → ShowRec) : (s.updShow i f).deck = s.deck := rfl
@[simp] theorem State.updShow_bus (i : Fin 8) (f : ShowRec → ShowRec) : (s.updShow i f).bus = s.bus := rfl
@[simp] theorem State.updShow_modules (i : Fin 8) (f : ShowRec → ShowRec) : (s.updShow i f).modules = s.modules := rfl
@[simp] theorem State.updShow_text (i : Fin 8) (f : ShowRec → ShowRec) : (s.updShow i f).text = s.text := rfl
@[simp] theorem State.updShow_shows (i : Fin 8) (f : ShowRec → ShowRec) : (s.updShow i f).shows = tupd s.shows i f := rfl
@[simp] theorem State.updShow_showQueue (i : Fin 8) (f : ShowRec → ShowRec) : (s.updShow i f).showQueue = s.showQueue := rfl
@[simp] theorem State.updShow_cues (i : Fin 8) (f : ShowRec → ShowRec) : (s.updShow i f).cues = s.cues := rfl
@[simp] theorem State.updShow_keys (i : Fin 8) (f : ShowRec → ShowRec) : (s.updShow i f).keys = s.keys := rfl
@[simp] theorem State.updShow_link (i : Fin 8) (f : ShowRec → ShowRec) : (s.updShow i f).link = s.link := rfl
@[simp] theorem State.updShow_work (i : Fin 8) (f : ShowRec → ShowRec) : (s.updShow i f).work = s.work := rfl
@[simp] theorem State.updShow_pending (i : Fin 8) (f : ShowRec → ShowRec) : (s.updShow i f).pending = s.pending := rfl

/-! ### `State.updKey` -/

@[simp] theorem State.updKey_clock (k : Fin 64) (f : KeyRec → KeyRec) : (s.updKey k f).clock = s.clock := rfl
@[simp] theorem State.updKey_mode (k : Fin 64) (f : KeyRec → KeyRec) : (s.updKey k f).mode = s.mode := rfl
@[simp] theorem State.updKey_tables (k : Fin 64) (f : KeyRec → KeyRec) : (s.updKey k f).tables = s.tables := rfl
@[simp] theorem State.updKey_params (k : Fin 64) (f : KeyRec → KeyRec) : (s.updKey k f).params = s.params := rfl
@[simp] theorem State.updKey_captions (k : Fin 64) (f : KeyRec → KeyRec) : (s.updKey k f).captions = s.captions := rfl
@[simp] theorem State.updKey_channels (k : Fin 64) (f : KeyRec → KeyRec) : (s.updKey k f).channels = s.channels := rfl
@[simp] theorem State.updKey_contacts (k : Fin 64) (f : KeyRec → KeyRec) : (s.updKey k f).contacts = s.contacts := rfl
@[simp] theorem State.updKey_feeds (k : Fin 64) (f : KeyRec → KeyRec) : (s.updKey k f).feeds = s.feeds := rfl
@[simp] theorem State.updKey_trains (k : Fin 64) (f : KeyRec → KeyRec) : (s.updKey k f).trains = s.trains := rfl
@[simp] theorem State.updKey_blockFlags (k : Fin 64) (f : KeyRec → KeyRec) : (s.updKey k f).blockFlags = s.blockFlags := rfl
@[simp] theorem State.updKey_points (k : Fin 64) (f : KeyRec → KeyRec) : (s.updKey k f).points = s.points := rfl
@[simp] theorem State.updKey_groups (k : Fin 64) (f : KeyRec → KeyRec) : (s.updKey k f).groups = s.groups := rfl
@[simp] theorem State.updKey_routes (k : Fin 64) (f : KeyRec → KeyRec) : (s.updKey k f).routes = s.routes := rfl
@[simp] theorem State.updKey_queue (k : Fin 64) (f : KeyRec → KeyRec) : (s.updKey k f).queue = s.queue := rfl
@[simp] theorem State.updKey_reservers (k : Fin 64) (f : KeyRec → KeyRec) : (s.updKey k f).reservers = s.reservers := rfl
@[simp] theorem State.updKey_signals (k : Fin 64) (f : KeyRec → KeyRec) : (s.updKey k f).signals = s.signals := rfl
@[simp] theorem State.updKey_filters (k : Fin 64) (f : KeyRec → KeyRec) : (s.updKey k f).filters = s.filters := rfl
@[simp] theorem State.updKey_traps (k : Fin 64) (f : KeyRec → KeyRec) : (s.updKey k f).traps = s.traps := rfl
@[simp] theorem State.updKey_deck (k : Fin 64) (f : KeyRec → KeyRec) : (s.updKey k f).deck = s.deck := rfl
@[simp] theorem State.updKey_bus (k : Fin 64) (f : KeyRec → KeyRec) : (s.updKey k f).bus = s.bus := rfl
@[simp] theorem State.updKey_modules (k : Fin 64) (f : KeyRec → KeyRec) : (s.updKey k f).modules = s.modules := rfl
@[simp] theorem State.updKey_text (k : Fin 64) (f : KeyRec → KeyRec) : (s.updKey k f).text = s.text := rfl
@[simp] theorem State.updKey_shows (k : Fin 64) (f : KeyRec → KeyRec) : (s.updKey k f).shows = s.shows := rfl
@[simp] theorem State.updKey_showQueue (k : Fin 64) (f : KeyRec → KeyRec) : (s.updKey k f).showQueue = s.showQueue := rfl
@[simp] theorem State.updKey_cues (k : Fin 64) (f : KeyRec → KeyRec) : (s.updKey k f).cues = s.cues := rfl
@[simp] theorem State.updKey_keys (k : Fin 64) (f : KeyRec → KeyRec) : (s.updKey k f).keys = tupd s.keys k f := rfl
@[simp] theorem State.updKey_link (k : Fin 64) (f : KeyRec → KeyRec) : (s.updKey k f).link = s.link := rfl
@[simp] theorem State.updKey_work (k : Fin 64) (f : KeyRec → KeyRec) : (s.updKey k f).work = s.work := rfl
@[simp] theorem State.updKey_pending (k : Fin 64) (f : KeyRec → KeyRec) : (s.updKey k f).pending = s.pending := rfl

/-! ### `State.updLink` -/

@[simp] theorem State.updLink_clock (f : LinkPort → LinkPort) : (s.updLink f).clock = s.clock := rfl
@[simp] theorem State.updLink_mode (f : LinkPort → LinkPort) : (s.updLink f).mode = s.mode := rfl
@[simp] theorem State.updLink_tables (f : LinkPort → LinkPort) : (s.updLink f).tables = s.tables := rfl
@[simp] theorem State.updLink_params (f : LinkPort → LinkPort) : (s.updLink f).params = s.params := rfl
@[simp] theorem State.updLink_captions (f : LinkPort → LinkPort) : (s.updLink f).captions = s.captions := rfl
@[simp] theorem State.updLink_channels (f : LinkPort → LinkPort) : (s.updLink f).channels = s.channels := rfl
@[simp] theorem State.updLink_contacts (f : LinkPort → LinkPort) : (s.updLink f).contacts = s.contacts := rfl
@[simp] theorem State.updLink_feeds (f : LinkPort → LinkPort) : (s.updLink f).feeds = s.feeds := rfl
@[simp] theorem State.updLink_trains (f : LinkPort → LinkPort) : (s.updLink f).trains = s.trains := rfl
@[simp] theorem State.updLink_blockFlags (f : LinkPort → LinkPort) : (s.updLink f).blockFlags = s.blockFlags := rfl
@[simp] theorem State.updLink_points (f : LinkPort → LinkPort) : (s.updLink f).points = s.points := rfl
@[simp] theorem State.updLink_groups (f : LinkPort → LinkPort) : (s.updLink f).groups = s.groups := rfl
@[simp] theorem State.updLink_routes (f : LinkPort → LinkPort) : (s.updLink f).routes = s.routes := rfl
@[simp] theorem State.updLink_queue (f : LinkPort → LinkPort) : (s.updLink f).queue = s.queue := rfl
@[simp] theorem State.updLink_reservers (f : LinkPort → LinkPort) : (s.updLink f).reservers = s.reservers := rfl
@[simp] theorem State.updLink_signals (f : LinkPort → LinkPort) : (s.updLink f).signals = s.signals := rfl
@[simp] theorem State.updLink_filters (f : LinkPort → LinkPort) : (s.updLink f).filters = s.filters := rfl
@[simp] theorem State.updLink_traps (f : LinkPort → LinkPort) : (s.updLink f).traps = s.traps := rfl
@[simp] theorem State.updLink_deck (f : LinkPort → LinkPort) : (s.updLink f).deck = s.deck := rfl
@[simp] theorem State.updLink_bus (f : LinkPort → LinkPort) : (s.updLink f).bus = s.bus := rfl
@[simp] theorem State.updLink_modules (f : LinkPort → LinkPort) : (s.updLink f).modules = s.modules := rfl
@[simp] theorem State.updLink_text (f : LinkPort → LinkPort) : (s.updLink f).text = s.text := rfl
@[simp] theorem State.updLink_shows (f : LinkPort → LinkPort) : (s.updLink f).shows = s.shows := rfl
@[simp] theorem State.updLink_showQueue (f : LinkPort → LinkPort) : (s.updLink f).showQueue = s.showQueue := rfl
@[simp] theorem State.updLink_cues (f : LinkPort → LinkPort) : (s.updLink f).cues = s.cues := rfl
@[simp] theorem State.updLink_keys (f : LinkPort → LinkPort) : (s.updLink f).keys = s.keys := rfl
@[simp] theorem State.updLink_link (f : LinkPort → LinkPort) : (s.updLink f).link = f s.link := rfl
@[simp] theorem State.updLink_work (f : LinkPort → LinkPort) : (s.updLink f).work = s.work := rfl
@[simp] theorem State.updLink_pending (f : LinkPort → LinkPort) : (s.updLink f).pending = s.pending := rfl

/-! ### `State.updWork` -/

@[simp] theorem State.updWork_clock (f : Work → Work) : (s.updWork f).clock = s.clock := rfl
@[simp] theorem State.updWork_mode (f : Work → Work) : (s.updWork f).mode = s.mode := rfl
@[simp] theorem State.updWork_tables (f : Work → Work) : (s.updWork f).tables = s.tables := rfl
@[simp] theorem State.updWork_params (f : Work → Work) : (s.updWork f).params = s.params := rfl
@[simp] theorem State.updWork_captions (f : Work → Work) : (s.updWork f).captions = s.captions := rfl
@[simp] theorem State.updWork_channels (f : Work → Work) : (s.updWork f).channels = s.channels := rfl
@[simp] theorem State.updWork_contacts (f : Work → Work) : (s.updWork f).contacts = s.contacts := rfl
@[simp] theorem State.updWork_feeds (f : Work → Work) : (s.updWork f).feeds = s.feeds := rfl
@[simp] theorem State.updWork_trains (f : Work → Work) : (s.updWork f).trains = s.trains := rfl
@[simp] theorem State.updWork_blockFlags (f : Work → Work) : (s.updWork f).blockFlags = s.blockFlags := rfl
@[simp] theorem State.updWork_points (f : Work → Work) : (s.updWork f).points = s.points := rfl
@[simp] theorem State.updWork_groups (f : Work → Work) : (s.updWork f).groups = s.groups := rfl
@[simp] theorem State.updWork_routes (f : Work → Work) : (s.updWork f).routes = s.routes := rfl
@[simp] theorem State.updWork_queue (f : Work → Work) : (s.updWork f).queue = s.queue := rfl
@[simp] theorem State.updWork_reservers (f : Work → Work) : (s.updWork f).reservers = s.reservers := rfl
@[simp] theorem State.updWork_signals (f : Work → Work) : (s.updWork f).signals = s.signals := rfl
@[simp] theorem State.updWork_filters (f : Work → Work) : (s.updWork f).filters = s.filters := rfl
@[simp] theorem State.updWork_traps (f : Work → Work) : (s.updWork f).traps = s.traps := rfl
@[simp] theorem State.updWork_deck (f : Work → Work) : (s.updWork f).deck = s.deck := rfl
@[simp] theorem State.updWork_bus (f : Work → Work) : (s.updWork f).bus = s.bus := rfl
@[simp] theorem State.updWork_modules (f : Work → Work) : (s.updWork f).modules = s.modules := rfl
@[simp] theorem State.updWork_text (f : Work → Work) : (s.updWork f).text = s.text := rfl
@[simp] theorem State.updWork_shows (f : Work → Work) : (s.updWork f).shows = s.shows := rfl
@[simp] theorem State.updWork_showQueue (f : Work → Work) : (s.updWork f).showQueue = s.showQueue := rfl
@[simp] theorem State.updWork_cues (f : Work → Work) : (s.updWork f).cues = s.cues := rfl
@[simp] theorem State.updWork_keys (f : Work → Work) : (s.updWork f).keys = s.keys := rfl
@[simp] theorem State.updWork_link (f : Work → Work) : (s.updWork f).link = s.link := rfl
@[simp] theorem State.updWork_work (f : Work → Work) : (s.updWork f).work = f s.work := rfl
@[simp] theorem State.updWork_pending (f : Work → Work) : (s.updWork f).pending = s.pending := rfl

/-! ### `State.mark` -/

@[simp] theorem State.mark_clock (x : Subject) : (s.mark x).clock = s.clock := rfl
@[simp] theorem State.mark_mode (x : Subject) : (s.mark x).mode = s.mode := rfl
@[simp] theorem State.mark_tables (x : Subject) : (s.mark x).tables = s.tables := rfl
@[simp] theorem State.mark_params (x : Subject) : (s.mark x).params = s.params := rfl
@[simp] theorem State.mark_captions (x : Subject) : (s.mark x).captions = s.captions := rfl
@[simp] theorem State.mark_channels (x : Subject) : (s.mark x).channels = s.channels := rfl
@[simp] theorem State.mark_contacts (x : Subject) : (s.mark x).contacts = s.contacts := rfl
@[simp] theorem State.mark_feeds (x : Subject) : (s.mark x).feeds = s.feeds := rfl
@[simp] theorem State.mark_trains (x : Subject) : (s.mark x).trains = s.trains := rfl
@[simp] theorem State.mark_blockFlags (x : Subject) : (s.mark x).blockFlags = s.blockFlags := rfl
@[simp] theorem State.mark_points (x : Subject) : (s.mark x).points = s.points := rfl
@[simp] theorem State.mark_groups (x : Subject) : (s.mark x).groups = s.groups := rfl
@[simp] theorem State.mark_routes (x : Subject) : (s.mark x).routes = s.routes := rfl
@[simp] theorem State.mark_queue (x : Subject) : (s.mark x).queue = s.queue := rfl
@[simp] theorem State.mark_reservers (x : Subject) : (s.mark x).reservers = s.reservers := rfl
@[simp] theorem State.mark_signals (x : Subject) : (s.mark x).signals = s.signals := rfl
@[simp] theorem State.mark_filters (x : Subject) : (s.mark x).filters = s.filters := rfl
@[simp] theorem State.mark_traps (x : Subject) : (s.mark x).traps = s.traps := rfl
@[simp] theorem State.mark_deck (x : Subject) : (s.mark x).deck = s.deck := rfl
@[simp] theorem State.mark_bus (x : Subject) : (s.mark x).bus = s.bus := rfl
@[simp] theorem State.mark_modules (x : Subject) : (s.mark x).modules = s.modules := rfl
@[simp] theorem State.mark_text (x : Subject) : (s.mark x).text = s.text := rfl
@[simp] theorem State.mark_shows (x : Subject) : (s.mark x).shows = s.shows := rfl
@[simp] theorem State.mark_showQueue (x : Subject) : (s.mark x).showQueue = s.showQueue := rfl
@[simp] theorem State.mark_cues (x : Subject) : (s.mark x).cues = s.cues := rfl
@[simp] theorem State.mark_keys (x : Subject) : (s.mark x).keys = s.keys := rfl
@[simp] theorem State.mark_link (x : Subject) : (s.mark x).link = { s.link with reports := joinTail s.link.reports x } := rfl
@[simp] theorem State.mark_work (x : Subject) : (s.mark x).work = s.work := rfl
@[simp] theorem State.mark_pending (x : Subject) : (s.mark x).pending = s.pending := rfl

/-! ### `State.settlePanel`: the images of the modules and the pending lists of the bus alone are its to change (R174, R177) -/

@[simp] theorem State.settlePanel_clock : s.settlePanel.clock = s.clock := rfl
@[simp] theorem State.settlePanel_mode : s.settlePanel.mode = s.mode := rfl
@[simp] theorem State.settlePanel_tables : s.settlePanel.tables = s.tables := rfl
@[simp] theorem State.settlePanel_params : s.settlePanel.params = s.params := rfl
@[simp] theorem State.settlePanel_captions : s.settlePanel.captions = s.captions := rfl
@[simp] theorem State.settlePanel_channels : s.settlePanel.channels = s.channels := rfl
@[simp] theorem State.settlePanel_contacts : s.settlePanel.contacts = s.contacts := rfl
@[simp] theorem State.settlePanel_feeds : s.settlePanel.feeds = s.feeds := rfl
@[simp] theorem State.settlePanel_trains : s.settlePanel.trains = s.trains := rfl
@[simp] theorem State.settlePanel_blockFlags : s.settlePanel.blockFlags = s.blockFlags := rfl
@[simp] theorem State.settlePanel_points : s.settlePanel.points = s.points := rfl
@[simp] theorem State.settlePanel_groups : s.settlePanel.groups = s.groups := rfl
@[simp] theorem State.settlePanel_routes : s.settlePanel.routes = s.routes := rfl
@[simp] theorem State.settlePanel_queue : s.settlePanel.queue = s.queue := rfl
@[simp] theorem State.settlePanel_reservers : s.settlePanel.reservers = s.reservers := rfl
@[simp] theorem State.settlePanel_signals : s.settlePanel.signals = s.signals := rfl
@[simp] theorem State.settlePanel_filters : s.settlePanel.filters = s.filters := rfl
@[simp] theorem State.settlePanel_traps : s.settlePanel.traps = s.traps := rfl
@[simp] theorem State.settlePanel_deck : s.settlePanel.deck = s.deck := rfl
@[simp] theorem State.settlePanel_text : s.settlePanel.text = s.text := rfl
@[simp] theorem State.settlePanel_shows : s.settlePanel.shows = s.shows := rfl
@[simp] theorem State.settlePanel_showQueue : s.settlePanel.showQueue = s.showQueue := rfl
@[simp] theorem State.settlePanel_cues : s.settlePanel.cues = s.cues := rfl
@[simp] theorem State.settlePanel_keys : s.settlePanel.keys = s.keys := rfl
@[simp] theorem State.settlePanel_link : s.settlePanel.link = s.link := rfl
@[simp] theorem State.settlePanel_work : s.settlePanel.work = s.work := rfl
@[simp] theorem State.settlePanel_pending : s.settlePanel.pending = s.pending := rfl
@[simp] theorem State.settlePanel_bus_state : s.settlePanel.bus.state = s.bus.state := rfl
@[simp] theorem State.settlePanel_bus_calls : s.settlePanel.bus.calls = s.bus.calls := rfl
@[simp] theorem State.settlePanel_bus_recovered : s.settlePanel.bus.recovered = s.bus.recovered := rfl
theorem State.settlePanel_module (m : Fin 24) : tget s.settlePanel.modules m =
    { tget s.modules m with
      parts := match s.moduleDef m with
        | some d => (tget s.modules m).taken (s.partContents m d)
        | none => [] } := by
  unfold State.settlePanel State.syncLists State.updBus State.recomputeParts
  exact tget_tgen _ m
@[simp] theorem State.settlePanel_module_state (m : Fin 24) :
    (tget s.settlePanel.modules m).state = (tget s.modules m).state := by rw [settlePanel_module]

end Sys2Proof.Machine
end

