-- ==== Sys2Proof/Laws/Settle.lean ====
section
/-! SUPPORT. What the end of an event can do. `Follows s t` says once what every operation inside it keeps: the steady part of
the state, the marks made so far, the report list's freedom from repeats, and the feeds that hold their channels. Each operation
has one lemma, and `settle_follows` gathers them. -/

namespace Sys2Proof.Machine

/-- `t` is `s` after changes of the kind that the end of an event makes. -/
structure Follows (s t : State) : Prop where
  steady : t.steady = s.steady
  marks : ∀ x ∈ s.link.reports, x ∈ t.link.reports
  nodup : s.link.reports.Nodup → t.link.reports.Nodup
  held : ∀ b, (tget s.feeds b).state.holds = true → (tget t.feeds b).state = (tget s.feeds b).state
  unheld : ∀ b, (tget s.feeds b).state.holds = false → (tget t.feeds b).state.holds = false
  channel : ∀ b, tget t.channels b = tget s.channels b ∨
    ((tget s.feeds b).state.holds = false ∧ tget t.channels b = { tget s.channels b with held := false })

theorem Follows.refl (s : State) : Follows s s :=
  ⟨rfl, fun _ h => h, fun h => h, fun _ _ => rfl, fun _ h => h, fun _ => .inl rfl⟩

theorem Follows.trans {s t u : State} (h : Follows s t) (k : Follows t u) : Follows s u where
  steady := k.steady.trans h.steady
  marks x hx := k.marks x (h.marks x hx)
  nodup hs := k.nodup (h.nodup hs)
  held b hb := by
    have h1 := h.held b hb
    rw [k.held b (by rw [h1]; exact hb), h1]
  unheld b hb := k.unheld b (h.unheld b hb)
  channel b := by
    rcases h.channel b with h1 | ⟨hf, h1⟩ <;> rcases k.channel b with k1 | ⟨kf, k1⟩
    · exact .inl (k1.trans h1)
    · refine .inr ⟨?_, by rw [k1, h1]⟩
      by_contra hc
      have := h.held b (by simpa using hc)
      rw [this] at kf
      exact hc kf
    · exact .inr ⟨hf, by rw [k1, h1]⟩
    · exact .inr ⟨hf, by rw [k1, h1]⟩

/-- A change that leaves the steady part, the report list, the feeds and the channels. -/
theorem Follows.of_steady {s t : State} (h : t.steady = s.steady) (hl : t.link.reports = s.link.reports)
    (hf : t.feeds = s.feeds) (hc : t.channels = s.channels) : Follows s t :=
  ⟨h, by simp [hl], by simp [hl], by simp [hf], by simp [hf], by simp [hc]⟩

/-- A fold of operations each of which follows. -/
theorem Follows.foldl {α : Type} (f : State → α → State) (h : ∀ s a, Follows s (f s a)) (l : List α) (s : State) :
    Follows s (l.foldl f s) := by
  induction l generalizing s with
  | nil => exact Follows.refl s
  | cons a l ih => exact (h s a).trans (ih _)

/-- A choice between two states that follow. -/
theorem Follows.ite {p : Prop} [Decidable p] {s t u : State} (ht : p → Follows s t) (hu : ¬ p → Follows s u) :
    Follows s (if p then t else u) := by
  split
  · exact ht ‹_›
  · exact hu ‹_›

/-! ## Updates of one record -/

theorem mark_follows (s : State) (x : Subject) : Follows s (s.mark x) where
  steady := rfl
  marks y hy := by simp [mem_joinTail, hy]
  nodup h := by simpa using joinTail_nodup h x
  held _ _ := rfl
  unheld _ h := h
  channel _ := .inl rfl

theorem updWork_follows (s : State) (f : Work → Work) : Follows s (s.updWork f) := Follows.of_steady rfl rfl rfl rfl

theorem callExamine_follows (s : State) : Follows s s.callExamine := updWork_follows s _

theorem putRoute_follows (s : State) (r : Fin 64) (x : RouteRec) : Follows s (s.putRoute r x) :=
  Follows.of_steady rfl rfl rfl rfl

theorem putReserver_follows (s : State) (b : Fin 48) (x : Option (Fin 64)) : Follows s (s.putReserver b x) :=
  Follows.of_steady rfl rfl rfl rfl

theorem updShow_follows (s : State) (i : Fin 8) (f : ShowRec → ShowRec) : Follows s (s.updShow i f) :=
  Follows.of_steady rfl rfl rfl rfl

theorem updGroup_follows (s : State) (g : Fin 8) (f : GroupRec → GroupRec) (h : ∀ x, (f x).paused = x.paused) :
    Follows s (s.updGroup g f) :=
  Follows.of_steady (by
    simp only [State.steady, State.updGroup]
    rw [map_tupd_of]; simp [h]) rfl rfl rfl

theorem updPoint_follows (s : State) (p : Fin 64) (f : PointRec → PointRec) (h : ∀ x, (f x).failed = x.failed) :
    Follows s (s.updPoint p f) :=
  Follows.of_steady (by
    simp only [State.steady, State.updPoint]
    rw [map_tupd_of]; simp [h]) rfl rfl rfl

theorem updSignal_follows (s : State) (g : Fin 32) (f : SignalRec → SignalRec)
    (h : (f (tget s.signals g)).overspeeds = (tget s.signals g).overspeeds)
    (h' : (f (tget s.signals g)).lastOverspeed = (tget s.signals g).lastOverspeed) : Follows s (s.updSignal g f) :=
  Follows.of_steady (by
    simp only [State.steady, State.updSignal]
    rw [map_tupd_of]; simp [h, h']) rfl rfl rfl

theorem updKey_follows (s : State) (k : Fin 64) (f : KeyRec → KeyRec)
    (h : ∀ x, { f x with holdOff := none } = { x with holdOff := none }) : Follows s (s.updKey k f) :=
  Follows.of_steady (by
    simp only [State.steady, State.updKey]
    rw [map_tupd_of]; exact h _) rfl rfl rfl

/-- The deck record changes in what a move's start changes (R150 to R152). -/
theorem updDeck_follows (s : State) (f : Deck → Deck)
    (h : ∀ d : Deck, ({ f d with
        state := .idle, align := none, locked := false, stepDir := .forward, bolt := .off, relay := .bothOpen } : Deck) =
      { d with
        state := .idle, align := none, locked := false, stepDir := .forward, bolt := .off, relay := .bothOpen }) :
    Follows s (s.updDeck f) :=
  Follows.of_steady (by simp only [State.steady, State.updDeck]; rw [h s.deck]) rfl rfl rfl

theorem dequeue_follows (s : State) (r : Fin 64) : Follows s (s.dequeue r) := Follows.of_steady rfl rfl rfl rfl

/-! ## The panel -/

theorem recomputeParts_follows (s : State) : Follows s s.recomputeParts :=
  Follows.of_steady (by
    simp only [State.steady, State.recomputeParts]
    congr 1
    refine tab_ext fun m => ?_
    simp only [tget_map, tget_tgen]) rfl rfl rfl

theorem syncLists_follows (s : State) : Follows s s.syncLists := Follows.of_steady rfl rfl rfl rfl

theorem settlePanel_follows (s : State) : Follows s s.settlePanel :=
  (recomputeParts_follows s).trans (syncLists_follows _)

/-! ## Feeds and signals -/

/-- A feed that follows its demand goes between ON and OFF, and its channel is held no more (R29, R37). -/
theorem setFeedState_follows (s : State) (b : Fin 48) (x : FeedState) (hx : x.holds = false)
    (hb : (tget s.feeds b).state.holds = false) : Follows s (s.setFeedState b x) := by
  unfold State.setFeedState
  split
  · exact Follows.refl s
  · rw [hx]
    refine Follows.trans ?_ (settlePanel_follows _)
    refine ⟨?_, fun y hy => by simp [mem_joinTail, hy], fun h => by simpa using joinTail_nodup h _, ?_, ?_, ?_⟩
    · simp only [State.steady, State.updChannel, State.mark, State.updFeed, State.updLink]
      rw [map_tupd_of, map_tupd_of] <;> rfl
    · intro c hc
      simp only [State.updChannel_feeds, State.mark_feeds, State.updFeed_feeds, tget_tupd]
      split
      · rename_i e; subst e; rw [hb] at hc; cases hc
      · rfl
    · intro c hc
      simp only [State.updChannel_feeds, State.mark_feeds, State.updFeed_feeds, tget_tupd]
      split
      · exact hx
      · exact hc
    · intro c
      simp only [State.updChannel_channels, State.mark_channels, State.updFeed_channels, tget_tupd]
      split
      · rename_i e; subst e; exact .inr ⟨hb, rfl⟩
      · exact .inl rfl

theorem feedFollow_follows (s : State) (b : Fin 48) : Follows s (s.feedFollow b) := by
  unfold State.feedFollow
  split
  · rename_i h
    exact Follows.ite (fun _ => Follows.refl s) fun _ => setFeedState_follows s b _ rfl (by rw [h]; rfl)
  · rename_i h
    exact Follows.ite (fun _ => setFeedState_follows s b _ rfl (by rw [h]; rfl)) fun _ => Follows.refl s
  · exact Follows.refl s

theorem putSignal_follows (s : State) (g : Fin 32) (f : SignalRec → SignalRec)
    (h : (f (tget s.signals g)).overspeeds = (tget s.signals g).overspeeds)
    (h' : (f (tget s.signals g)).lastOverspeed = (tget s.signals g).lastOverspeed) : Follows s (s.putSignal g f) := by
  unfold State.putSignal
  split
  · exact Follows.refl s
  · exact (updSignal_follows s g f h h').trans (mark_follows _ _)

theorem showAspect_follows (s : State) (g : Fin 32) (a : Aspect) : Follows s (s.showAspect g a) := by
  unfold State.showAspect
  extract_lets old s1 s2
  have h1 : Follows s s1 := putSignal_follows s g _ (by rfl) (by rfl)
  have h2 : Follows s1 s2 := Follows.ite (fun _ => Follows.refl _) fun _ => settlePanel_follows _
  refine (h1.trans h2).trans ?_
  split
  · exact Follows.refl _
  · split
    · exact feedFollow_follows _ _
    · exact Follows.refl _

theorem showSettled_follows (now s : State) (g : Fin 32) : Follows s (now.showSettled s g) :=
  Follows.ite (fun _ => showAspect_follows _ _ _) fun _ => Follows.refl _

theorem showChain_follows (now : State) (n : Nat) (s : State) (g : Fin 32) : Follows s (now.showChain n s g) := by
  induction n generalizing s g with
  | zero => exact showSettled_follows _ _ _
  | succ n ih =>
    unfold State.showChain
    refine Follows.trans ?_ (showSettled_follows _ _ _)
    split
    · exact ih _ _
    · exact Follows.refl _

theorem settleSignals_follows (s : State) : Follows s s.settleSignals := by
  refine Follows.foldl _ (fun t g => ?_) _ s
  exact showChain_follows _ _ _ _

/-! ## Cues and waits -/

theorem putCue_follows (s : State) (c : Fin 16) (v : Bool) : Follows s (s.putCue c v) := by
  unfold State.putCue
  exact Follows.ite (fun _ => Follows.refl s) fun _ =>
    Follows.trans (t := { s with cues := tset s.cues c v }) (Follows.of_steady rfl rfl rfl rfl) (mark_follows _ _)

theorem updRun_follows (s : State) (i : Fin 8) (f : Run → Run) : Follows s (s.updRun i f) := updShow_follows s i _

theorem meetWait_follows (s : State) (i : Fin 8) : Follows s (s.meetWait i) :=
  ((updRun_follows s i _).trans (mark_follows _ _)).trans (updWork_follows _ _)

theorem noteAbort_follows (s : State) (i : Fin 8) (c : AbortCause) : Follows s (s.noteAbort i c) := updWork_follows s _

theorem setCueFlag_follows (s : State) (c : Fin 16) : Follows s (s.setCueFlag c) := by
  unfold State.setCueFlag
  refine (putCue_follows s c true).trans ?_
  dsimp only
  split
  · exact Follows.ite (fun _ => (putCue_follows _ _ _).trans (meetWait_follows _ _)) fun _ => Follows.refl _
  · exact Follows.refl _

theorem setCuesFor_follows (s : State) (x : Selector) : Follows s (s.setCuesFor x) :=
  Follows.foldl _ (fun _ _ => Follows.ite (fun _ => setCueFlag_follows _ _) fun _ => Follows.refl _) _ s

theorem noteRoute_follows (s : State) (r : Fin 64) (x : RouteRec) : Follows s (s.noteRoute r x) := by
  unfold State.noteRoute
  split
  · refine Follows.ite (fun _ => ?_) fun _ => Follows.refl _
    split
    · exact meetWait_follows _ _
    · exact noteAbort_follows _ _ _
    · exact meetWait_follows _ _
    · exact Follows.refl _
  · exact Follows.refl _

theorem noteDeck_follows (s : State) : Follows s s.noteDeck := by
  unfold State.noteDeck
  split
  · exact Follows.ite (fun _ => meetWait_follows _ _) fun _ => Follows.refl _
  · exact Follows.refl _

/-! ## Routes -/

theorem aspectTakesRoute_follows (s : State) (r : Fin 64) (d : RouteDef) (old new : RouteRec) :
    Follows s (s.aspectTakesRoute r d old new) := by
  unfold State.aspectTakesRoute
  extract_lets g s1
  have h1 : Follows s s1 := by
    simp only [s1]
    split
    · exact Follows.refl _
    · exact putSignal_follows _ _ _ (by rfl) (by rfl)
    · exact Follows.refl _
  refine h1.trans ?_
  split
  · exact putSignal_follows _ _ _ (by rfl) (by rfl)
  · split
    · exact Follows.refl _
    · exact putSignal_follows _ _ _ (by rfl) (by rfl)
    · exact Follows.refl _
  · exact putSignal_follows _ _ _ (by rfl) (by rfl)
  · exact Follows.ite (fun _ => putSignal_follows _ _ _ (by rfl) (by rfl)) fun _ => Follows.refl _
  · exact Follows.refl _

theorem setRoute_follows (s : State) (r : Fin 64) (x : RouteRec) : Follows s (s.setRoute r x) := by
  unfold State.setRoute
  extract_lets old s1 s2 s3
  have h1 : Follows s s1 := ((putRoute_follows s r x).trans (mark_follows _ _)).trans (settlePanel_follows _)
  have h2 : Follows s1 s2 := by
    simp only [s2]
    split
    · exact aspectTakesRoute_follows _ _ _ _ _
    · exact Follows.refl _
  have h3 : Follows s2 s3 := by
    simp only [s3]
    split
    · exact setCuesFor_follows _ _
    · exact Follows.ite (fun _ => Follows.refl _) fun _ => setCuesFor_follows _ _
    · exact Follows.refl _
  exact ((h1.trans h2).trans h3).trans (noteRoute_follows _ _ _)

theorem touchRoute_follows (s : State) (r : Fin 64) (x : RouteRec) : Follows s (s.touchRoute r x) :=
  (putRoute_follows s r x).trans (mark_follows _ _)

theorem reserve_follows (s : State) (r : Fin 64) (b : Fin 48) : Follows s (s.reserve r b) :=
  ((putReserver_follows s b _).trans (mark_follows _ _)).trans (settlePanel_follows _)

theorem unreserve_follows (s : State) (r : Fin 64) (b : Fin 48) : Follows s (s.unreserve r b) :=
  Follows.ite (fun _ => (((putReserver_follows s b _).trans (mark_follows _ _)).trans (settlePanel_follows _)).trans
    (callExamine_follows _)) fun _ => Follows.refl _

theorem lock_follows (s : State) (p : Fin 64) : Follows s (s.lock p) :=
  (updPoint_follows s p _ (by intro _; rfl)).trans (mark_follows _ _)

theorem unlock_follows (s : State) (p : Fin 64) : Follows s (s.unlock p) :=
  ((updPoint_follows s p _ (by intro _; rfl)).trans (mark_follows _ _)).trans (callExamine_follows _)

theorem freeHolding_follows (s : State) (r : Fin 64) (e : FreeReason) : Follows s (s.freeHolding r e) :=
  (((setRoute_follows s r _).trans (Follows.foldl _ (fun t b => unreserve_follows t r b) _ _)).trans
    (Follows.foldl _ (fun t (x : Fin 64 × Lie) => unlock_follows t x.1) _ _)).trans (callExamine_follows _)

theorem testProof_follows (s : State) (r : Fin 64) : Follows s (s.testProof r) := by
  unfold State.testProof
  split
  · exact Follows.ite (fun _ => setRoute_follows _ _ _) fun _ => Follows.refl _
  · exact Follows.ite (fun _ => Follows.refl _) fun _ => touchRoute_follows _ _ _
  · exact Follows.refl _

theorem routesTakeProof_follows (s : State) (p : Fin 64) : Follows s (s.routesTakeProof p) :=
  Follows.foldl _ (fun _ _ => Follows.ite (fun _ => testProof_follows _ _) fun _ => Follows.refl _) _ s

theorem routesTakeDeck_follows (s : State) : Follows s s.routesTakeDeck :=
  Follows.foldl _ (fun _ _ => Follows.ite (fun _ => testProof_follows _ _) fun _ => Follows.refl _) _ s

/-! ## Points -/

theorem watchProof_follows (s : State) (p : Fin 64) (f : State → State) (h : Follows s (f s)) :
    Follows s (s.watchProof p f) :=
  Follows.ite (fun _ => h) fun _ => (h.trans (mark_follows _ _)).trans (routesTakeProof_follows _ _)

theorem enterPulse_follows (s : State) (g : Fin 8) : Follows s (s.enterPulse g) := by
  unfold State.enterPulse
  split
  · exact Follows.refl _
  · exact watchProof_follows _ _ _ ((((updGroup_follows _ _ _ (by intro _; rfl)).trans
      (updPoint_follows _ _ _ (by intro _; rfl))).trans (mark_follows _ _)).trans (settlePanel_follows _))

theorem startMove_follows (s : State) (g : Fin 8) : Follows s (s.startMove g) := by
  unfold State.startMove
  extract_lets x
  split
  · exact Follows.refl _
  · refine Follows.ite (fun _ => ?_) fun _ => Follows.refl _
    extract_lets s1
    have h1 : Follows s s1 := watchProof_follows _ _ _ ((((updGroup_follows _ _ _ (by intro _; rfl)).trans
      (updPoint_follows _ _ _ (by intro _; rfl))).trans (mark_follows _ _)).trans (settlePanel_follows _))
    exact Follows.ite (fun _ => h1.trans (enterPulse_follows _ _)) fun _ => h1

theorem moveRequest_follows (s : State) (p : Fin 64) (l : Lie) : Follows s (s.moveRequest p l) := by
  unfold State.moveRequest
  split
  · exact Follows.refl _
  · extract_lets there s1
    have h1 : Follows s s1 := by
      simp only [s1]
      split
      · exact Follows.refl _
      · exact (updGroup_follows _ _ _ (by intro _; rfl)).trans (mark_follows _ _)
      · exact (updGroup_follows _ _ _ (by intro _; rfl)).trans (mark_follows _ _)
      · exact Follows.ite (fun _ => Follows.refl _) fun _ =>
          (updGroup_follows _ _ _ (by intro _; rfl)).trans (mark_follows _ _)
    exact h1.trans (startMove_follows _ _)

/-! ## The deck's start of a move -/

theorem deckChanged_follows (s : State) : Follows s s.deckChanged := by
  unfold State.deckChanged
  extract_lets s1 s2
  have h2 : Follows s1 s2 := by
    simp only [s2]
    split
    · exact feedFollow_follows _ _
    · exact Follows.refl _
  have h1 : Follows s s1 := (mark_follows s _).trans (settlePanel_follows _)
  exact ((h1.trans h2).trans (routesTakeDeck_follows _)).trans (noteDeck_follows _)

theorem enterSettling_follows (s : State) (t : TurntableDef) (m : MoveRec) : Follows s (s.enterSettling t m) := by
  unfold State.enterSettling
  exact (updDeck_follows s _ (by intro _; rfl)).trans (deckChanged_follows _)

theorem issueStep_follows (s : State) (t : TurntableDef) (m : MoveRec) (x : Nat) : Follows s (s.issueStep t m x) := by
  unfold State.issueStep
  exact (updDeck_follows s _ (by intro _; rfl)).trans (mark_follows _ _)

theorem enterMoving_follows (s : State) (t : TurntableDef) (m : MoveRec) : Follows s (s.enterMoving t m) := by
  unfold State.enterMoving
  refine Follows.trans ?_ (deckChanged_follows _)
  split
  · exact Follows.ite (fun _ => issueStep_follows _ _ _ _) fun _ => updDeck_follows _ _ (by intro _; rfl)
  · exact issueStep_follows _ _ _ _
  · exact updDeck_follows _ _ (by intro _; rfl)

theorem unlockDone_follows (s : State) (t : TurntableDef) (m : MoveRec) : Follows s (s.unlockDone t m) := by
  unfold State.unlockDone
  exact (updDeck_follows s _ (by intro _; rfl)).trans
    (Follows.ite (fun _ => enterSettling_follows _ _ _) fun _ => enterMoving_follows _ _ _)

theorem enterUnlocking_follows (s : State) (t : TurntableDef) (m : MoveRec) : Follows s (s.enterUnlocking t m) := by
  unfold State.enterUnlocking
  extract_lets s1 s2
  have h1 : Follows s s1 := updDeck_follows s _ (by intro _; rfl)
  have h2 : Follows s s2 := h1.trans (deckChanged_follows s1)
  split
  · exact h2.trans (unlockDone_follows _ _ _)
  · exact h2

theorem turnTo_follows (s : State) (o : TurnOrigin) (road : Fin 24) (e : DeckAsk) :
    Follows s (s.turnTo o road e).1 := by
  unfold State.turnTo
  split
  · split
    · exact Follows.refl _
    · split
      · exact Follows.refl _
      · split
        · exact Follows.refl _
        · split
          · exact Follows.refl _
          · dsimp only; exact enterUnlocking_follows _ _ _
  · exact Follows.refl _

theorem turnInternal_follows (s : State) (o : TurnOrigin) (road : Fin 24) (e : DeckAsk) :
    Follows s (s.turnInternal o road e).1 := by
  unfold State.turnInternal
  split
  · exact turnTo_follows _ _ _ _
  · exact Follows.refl _

/-! ## Taking routes -/

theorem askTurn_follows (s : State) (r : Fin 64) (d : RouteDef) : Follows s (s.askTurn r d).1 := by
  unfold State.askTurn
  split
  · exact Follows.refl _
  · rename_i q _
    split
    · exact Follows.refl _
    · have h := turnInternal_follows s (.route r) q.road (DeckEnd.ask q.side)
      split <;> (rename_i e; rw [e] at h; exact h)

theorem takeRoute_follows (s : State) (r : Fin 64) : Follows s (s.takeRoute r) := by
  unfold State.takeRoute
  split
  · exact Follows.refl _
  · rename_i d _
    extract_lets s1 s2 s3 s4
    have h4 : Follows s s4 :=
      (((dequeue_follows s r).trans (Follows.foldl _ (fun t b => reserve_follows t r b) _ _)).trans
        (Follows.foldl _ (fun t (x : Fin 64 × Lie) => lock_follows t x.1) _ _)).trans
        (Follows.foldl _ (fun t (x : Fin 64 × Lie) => moveRequest_follows t x.1 x.2) _ _)
    have h5 := h4.trans (askTurn_follows s4 r d)
    generalize s4.askTurn r d = x at h5
    obtain ⟨s5, asked, away⟩ := x
    dsimp only at h5 ⊢
    exact Follows.ite (fun _ => (h5.trans (setRoute_follows _ _ _)).trans (freeHolding_follows _ _ _)) fun _ =>
      (h5.trans (setRoute_follows _ _ _)).trans (testProof_follows _ _)

theorem examineQueue_follows (s : State) : Follows s s.examineQueue := by
  unfold State.examineQueue
  extract_lets s1
  have h (t : State) (r : Fin 64) : Follows t (t.examineEntry r) :=
    Follows.ite (fun _ => takeRoute_follows _ _) fun _ => Follows.refl _
  refine (updWork_follows s _).trans (Follows.ite (fun _ => ?_) fun _ => Follows.refl _)
  exact (Follows.foldl _ h _ _).trans (Follows.foldl _ h _ _)

theorem dropQueued_follows (s : State) (r : Fin 64) (e : FreeReason) : Follows s (s.dropQueued r e) := by
  unfold State.dropQueued
  split
  · exact (dequeue_follows s r).trans (setRoute_follows _ _ _)
  · exact Follows.refl _

theorem queueRoute_follows (s : State) (c : RouteClass) (r : Fin 64) (d : RouteDef) :
    Follows s (s.queueRoute c r d).1 := by
  unfold State.queueRoute
  split
  · exact Follows.refl _
  · split
    · exact Follows.refl _
    · split
      · exact Follows.refl _
      · split
        · exact Follows.refl _
        · extract_lets s1 s2
          have h2 : Follows s1 s2 := Follows.of_steady rfl rfl rfl rfl
          exact (((setRoute_follows s r _).trans h2).trans (examineQueue_follows _)).trans (settleSignals_follows _)

theorem requestRoute_follows (s : State) (c : RouteClass) (n : Nat) : Follows s (s.requestRoute c n).1 := by
  unfold State.requestRoute
  split
  · exact Follows.refl _
  · split
    · exact Follows.refl _
    · split
      · exact Follows.refl _
      · exact queueRoute_follows _ _ _ _

theorem cancelNow_follows (s : State) (r : Fin 64) (d : RouteDef) : Follows s (s.cancelNow r d).1 := by
  unfold State.cancelNow
  split
  · exact Follows.refl _
  · dsimp only; exact (dequeue_follows s r).trans (setRoute_follows _ _ _)
  · exact freeHolding_follows _ _ _
  · split
    · dsimp only; exact setRoute_follows _ _ _
    · exact freeHolding_follows _ _ _
  · exact Follows.refl _
  · exact Follows.refl _

theorem cancelRoute_follows (s : State) (n : Nat) : Follows s (s.cancelRoute n).1 := by
  unfold State.cancelRoute
  split
  · exact Follows.refl _
  · split
    · exact Follows.refl _
    · split
      · exact Follows.refl _
      · exact cancelNow_follows _ _ _

/-! ## The running show -/

theorem startHoldOff_follows (s : State) (o : ShowOrigin) : Follows s (s.startHoldOff o) := by
  unfold State.startHoldOff
  split
  · exact Follows.refl _
  · exact Follows.ite (fun _ => Follows.refl _) fun _ =>
      ((updKey_follows s _ _ (by intro _; rfl)).trans (mark_follows _ _)).trans (settlePanel_follows _)

theorem beginRun_follows (s : State) (i : Fin 8) (o : ShowOrigin) : Follows s (s.beginRun i o) :=
  ((updShow_follows s i _).trans (mark_follows _ _)).trans (settlePanel_follows _)

theorem beginNext_follows (s : State) : Follows s s.beginNext := by
  unfold State.beginNext
  split
  · exact Follows.refl _
  · refine Follows.ite (fun _ => ?_) fun _ => Follows.refl _
    have h (l : List (Fin 8)) : Follows s { s with showQueue := l } := Follows.of_steady rfl rfl rfl rfl
    split
    · exact (h _).trans (beginRun_follows _ _ _)
    · exact h _

theorem endRun_follows (s : State) (i : Fin 8) (o : ShowOrigin) (x : ShowState) (e : LastEnd) :
    Follows s (s.endRun i o x e) :=
  (((((updShow_follows s i _).trans (mark_follows _ _)).trans (settlePanel_follows _)).trans (updWork_follows _ _)).trans
    (startHoldOff_follows _ _)).trans (beginNext_follows _)

theorem abortShow_follows (s : State) (i : Fin 8) (c : AbortCause) : Follows s (s.abortShow i c) := by
  unfold State.abortShow
  split
  · exact ((updRun_follows s i _).trans (Follows.foldl _ (fun t r => dropQueued_follows t r .cancelled) _ _)).trans
      (endRun_follows _ _ _ _ _)
  · exact Follows.refl _

theorem nextStep_follows (s : State) (i : Fin 8) : Follows s (s.nextStep i) :=
  (updRun_follows s i _).trans (mark_follows _ _)

theorem waitFor_follows (s : State) (i : Fin 8) (k : WaitKind) (n : Nat) : Follows s (s.waitFor i k n) :=
  (updRun_follows s i _).trans (mark_follows _ _)

theorem putLine1_follows (s : State) (t : Text20) : Follows s (s.putLine1 t) :=
  Follows.trans (t := { s with text := { s.text with line1 := t } }) (Follows.of_steady rfl rfl rfl rfl)
    (settlePanel_follows _)

theorem execStep_follows (s : State) (i : Fin 8) (x : Step) : Follows s (s.execStep i x) := by
  unfold State.execStep
  split
  · rename_i r
    have h := requestRoute_follows s .visitor r.val
    split <;> (rename_i e; rw [e] at h)
    · exact h.trans (abortShow_follows _ _ _)
    · exact (h.trans (updRun_follows _ _ _)).trans (nextStep_follows _ _)
  · rename_i road e
    have h := turnInternal_follows s (.showing i) road e
    split <;> (rename_i e; rw [e] at h)
    · exact h.trans (abortShow_follows _ _ _)
    · exact (h.trans (updRun_follows _ _ _)).trans (nextStep_follows _ _)
    · exact h.trans (nextStep_follows _ _)
  · exact (putCue_follows _ _ _).trans (nextStep_follows _ _)
  · exact (putLine1_follows s _).trans (nextStep_follows _ _)
  · exact (cancelRoute_follows _ _).trans (nextStep_follows _ _)
  · split
    · exact endRun_follows _ _ _ _ _
    · exact Follows.refl _
  · exact Follows.ite (fun _ => nextStep_follows _ _) fun _ => waitFor_follows _ _ _ _
  · exact Follows.ite (fun _ => nextStep_follows _ _) fun _ => waitFor_follows _ _ _ _
  · exact Follows.ite (fun _ => (putCue_follows _ _ _).trans (nextStep_follows _ _)) fun _ => waitFor_follows _ _ _ _
  · exact (updRun_follows s i _).trans (mark_follows _ _)

theorem carryOn_follows (n : Nat) (s : State) : Follows s (State.carryOn n s) := by
  induction n generalizing s with
  | zero => exact Follows.refl _
  | succ n ih =>
    unfold State.carryOn
    split
    · exact Follows.refl _
    · refine Follows.ite (fun _ => Follows.refl _) fun _ => ?_
      split
      · exact Follows.refl _
      · exact (execStep_follows _ _ _).trans (ih _)

theorem runShows_follows (s : State) : Follows s s.runShows := carryOn_follows _ s

theorem resumeShow_follows (s : State) : Follows s s.resumeShow := by
  unfold State.resumeShow
  split
  · exact Follows.refl _
  · extract_lets s1
    have h1 : Follows s s1 := updWork_follows s _
    split
    · exact (h1.trans (nextStep_follows _ _)).trans (runShows_follows _)
    · exact (h1.trans (abortShow_follows _ _ _)).trans (runShows_follows _)

/-! ## The end of an event -/

theorem comeToRest_follows (n : Nat) (s : State) : Follows s (State.comeToRest n s) := by
  induction n generalizing s with
  | zero => exact settleSignals_follows s
  | succ n ih =>
    unfold State.comeToRest
    refine (settleSignals_follows s).trans (Follows.ite (fun _ => ?_) fun _ => Follows.ite (fun _ => ?_) fun _ => ?_)
    · exact (examineQueue_follows _).trans (ih _)
    · exact (resumeShow_follows _).trans (ih _)
    · exact Follows.refl _

/-- All that the end of an event can do. -/
theorem settle_follows (s : State) : Follows s s.settle := (comeToRest_follows _ s).trans (settlePanel_follows _)

/-- The steady part of the state is as it was at the end of an event. -/
@[simp] theorem settle_steady (s : State) : s.settle.steady = s.steady := (settle_follows s).steady

end Sys2Proof.Machine
end

