-- ==== Sys2Proof/Laws/Calm.lean ====
section
/-! SUPPORT. The end of an event that calls for nothing more: where no queue examination is called for, or no route waits, and
no wait of a show is resolved, it settles the signals, the feeds that follow them and the panel, and leaves the rest
(`settle_calm`). -/

namespace Sys2Proof.Machine

/-- `t` is `s` after the signals have settled or the panel has followed. -/
def Calmly (s t : State) : Prop := t.calm = s.calm ∧ t.work = s.work

theorem Calmly.refl (s : State) : Calmly s s := ⟨rfl, rfl⟩

theorem Calmly.trans {s t u : State} (h : Calmly s t) (k : Calmly t u) : Calmly s u :=
  ⟨k.1.trans h.1, k.2.trans h.2⟩

theorem Calmly.foldl {α : Type} (f : State → α → State) (h : ∀ s a, Calmly s (f s a)) (l : List α) (s : State) :
    Calmly s (l.foldl f s) := by
  induction l generalizing s with
  | nil => exact Calmly.refl s
  | cons a l ih => exact (h s a).trans (ih _)

theorem mark_calmly (s : State) (x : Subject) : Calmly s (s.mark x) := ⟨rfl, rfl⟩

theorem recomputeParts_calmly (s : State) : Calmly s s.recomputeParts := by
  refine ⟨?_, rfl⟩
  simp only [State.calm, State.recomputeParts]
  congr 1
  refine tab_ext fun m => ?_
  simp only [tget_map, tget_tgen]

theorem settlePanel_calmly (s : State) : Calmly s s.settlePanel :=
  (recomputeParts_calmly s).trans ⟨rfl, rfl⟩

theorem setFeedState_calmly (s : State) (b : Fin 48) (x : FeedState) : Calmly s (s.setFeedState b x) := by
  unfold State.setFeedState
  split
  · exact Calmly.refl s
  · extract_lets s1
    have h1 : Calmly s s1 := ⟨by
      simp only [s1, State.calm, State.mark, State.updFeed, State.updLink]
      rw [map_tupd_of]; rfl, rfl⟩
    refine Calmly.trans ?_ (settlePanel_calmly _)
    refine h1.trans ⟨?_, rfl⟩
    simp only [State.calm, State.updChannel]
    rw [map_tupd_of]; split <;> rfl

theorem feedFollow_calmly (s : State) (b : Fin 48) : Calmly s (s.feedFollow b) := by
  unfold State.feedFollow
  split
  · split
    · exact Calmly.refl s
    · exact setFeedState_calmly _ _ _
  · split
    · exact setFeedState_calmly _ _ _
    · exact Calmly.refl s
  · exact Calmly.refl s

theorem showAspect_calmly (s : State) (g : Fin 32) (a : Aspect) : Calmly s (s.showAspect g a) := by
  unfold State.showAspect
  extract_lets old s1 s2
  have h1 : Calmly s s1 := by
    simp only [s1, State.putSignal]
    split
    · exact Calmly.refl s
    · refine ⟨?_, rfl⟩
      simp only [State.calm, State.mark, State.updSignal, State.updLink]
      rw [map_tupd_of]; rfl
  have h2 : Calmly s1 s2 := by
    simp only [s2]
    split
    · exact Calmly.refl _
    · exact settlePanel_calmly _
  refine (h1.trans h2).trans ?_
  split
  · exact Calmly.refl _
  · split
    · exact feedFollow_calmly _ _
    · exact Calmly.refl _

theorem showSettled_calmly (now s : State) (g : Fin 32) : Calmly s (now.showSettled s g) := by
  unfold State.showSettled
  split
  · exact showAspect_calmly _ _ _
  · exact Calmly.refl _

theorem showChain_calmly (now : State) (n : Nat) (s : State) (g : Fin 32) : Calmly s (now.showChain n s g) := by
  induction n generalizing s g with
  | zero => exact showSettled_calmly _ _ _
  | succ n ih =>
    unfold State.showChain
    refine Calmly.trans ?_ (showSettled_calmly _ _ _)
    split
    · exact ih _ _
    · exact Calmly.refl _

theorem settleSignals_calmly (s : State) : Calmly s s.settleSignals :=
  Calmly.foldl _ (fun _ _ => showChain_calmly _ _ _ _) _ s

/-- With no route waiting an examination takes none. -/
theorem examineQueue_empty (s : State) (h : s.queue = []) :
    s.examineQueue = s.updWork fun w => { w with examine := false } := by
  have he (c : RouteClass) (t : State) (ht : t.queue = []) : t.entriesOf c = [] := by simp [State.entriesOf, ht]
  unfold State.examineQueue
  extract_lets t u
  have ht : t.queue = [] := h
  have hu : u = t := by simp only [u]; rw [he _ t ht, List.foldl_nil]
  split
  · rw [hu, he _ t ht, List.foldl_nil]
  · rfl

theorem comeToRest_calm (n : Nat) (s : State) (he : s.work.examine = false ∨ s.queue = []) (hw : s.work.wake = none) :
    (State.comeToRest n s).calm = s.calm := by
  induction n generalizing s with
  | zero => exact (settleSignals_calmly s).1
  | succ n ih =>
    have hs := settleSignals_calmly s
    have hq : s.settleSignals.queue = s.queue := by simpa [State.calm] using congrArg (fun x : State => x.queue) hs.1
    unfold State.comeToRest
    dsimp only
    rw [hs.2, hw]
    split
    · rename_i hx
      have hq' : s.settleSignals.queue = [] := by
        rw [hq]; exact he.resolve_left (by rw [hx]; simp)
      rw [examineQueue_empty _ hq', ih _ (Or.inr (by simpa using hq')) (by simp [hs.2, hw])]
      exact hs.1
    · exact hs.1

/-- The end of an event that calls for nothing more leaves the calm part of the state. -/
theorem settle_calm (s : State) (he : s.work.examine = false ∨ s.queue = []) (hw : s.work.wake = none) :
    s.settle.calm = s.calm :=
  (settlePanel_calmly _).1.trans (comeToRest_calm _ s he hw)

/-- With no show running, no wait is resolved by what a neighbour hands on. -/
theorem waitingStep_none (s : State) (h : s.runningShow = none) : s.waitingStep = none := by
  unfold State.waitingStep
  rw [h]
  split <;> simp_all

theorem noteRoute_noShow (s : State) (r : Fin 64) (x : RouteRec) (h : s.runningShow = none) : s.noteRoute r x = s := by
  unfold State.noteRoute
  rw [waitingStep_none s h]

theorem noteDeck_noShow (s : State) (h : s.runningShow = none) : s.noteDeck = s := by
  unfold State.noteDeck
  rw [waitingStep_none s h]

theorem setCueFlag_noShow (s : State) (c : Fin 16) (h : s.runningShow = none) : s.setCueFlag c = s.putCue c true := by
  have hr : (s.putCue c true).runningShow = s.runningShow := by
    unfold State.putCue
    split <;> rfl
  unfold State.setCueFlag
  dsimp only
  rw [waitingStep_none _ (hr.trans h)]

/-! ### `State.moveStarts` -/

section
variable (s : State) (g : Fin 8) (x : GroupRec) (p : Fin 64) (l : Lie) (rest : List (Fin 64 × Lie))

@[simp] theorem State.moveStarts_groups : (s.moveStarts g x p l rest).groups = tset s.groups g (s.groupStarts g x p l rest) := rfl
@[simp] theorem State.moveStarts_points :
    (s.moveStarts g x p l rest).points = tset s.points p (s.pointStarts g (tget s.points p)) := rfl
@[simp] theorem State.moveStarts_clock : (s.moveStarts g x p l rest).clock = s.clock := rfl
@[simp] theorem State.moveStarts_tables : (s.moveStarts g x p l rest).tables = s.tables := rfl
@[simp] theorem State.moveStarts_routes : (s.moveStarts g x p l rest).routes = s.routes := rfl
@[simp] theorem State.moveStarts_link : (s.moveStarts g x p l rest).link = s.link := rfl

end

end Sys2Proof.Machine
end

