-- ==== Sys2Proof/Laws/Checks.lean ====
section
/-! SUPPORT. Decidable checks of the invariants, each with the proof that passing it gives the invariant, so that a concrete
state can be shown to meet one. -/

namespace Sys2Proof.Machine

/-- A show runs where its record says so. -/
theorem showRuns_iff (s : State) (i : Fin 8) :
    s.showRuns i ↔ (match (tget s.shows i).state with | .running _ => true | _ => false) = true := by
  unfold State.showRuns
  cases (tget s.shows i).state <;> simp

/-- A show is queued where its record says so. -/
theorem showQueued_iff (s : State) (i : Fin 8) :
    s.showQueued i ↔ (match (tget s.shows i).state with | .queued _ => true | _ => false) = true := by
  unfold State.showQueued
  cases (tget s.shows i).state <;> simp

/-- A route is queued where its record says so. -/
theorem routeQueued_iff (s : State) (r : Fin 64) :
    s.routeQueued r ↔ (match tget s.routes r with | .queued .. => true | _ => false) = true := by
  unfold State.routeQueued
  cases tget s.routes r <;> simp

/-- The checks of one train record. -/
def State.trainCheck (s : State) (t : Fin 24) : Bool :=
  match tget s.trains t with
  | .active _ l _ _ =>
    !l.isEmpty && decide (l.length ≤ 8) && decide (l.map (·.block)).Nodup && l.head?.all (fun x => !s.bridged x.block) &&
      l.getLast?.all fun x => !s.bridged x.block
  | _ => true

/-- The checks of all train records and block flags. -/
abbrev State.trainsCheck (s : State) : Prop :=
  (∀ t, s.trainCheck t = true) ∧ (∀ t, (Train.number (tget s.trains t)).all (fun n => decide (1 ≤ n ∧ n ≤ 9999)) = true) ∧
  (∀ t, ∀ b ∈ s.listOf t, ∀ u, t ≠ u → b ∉ s.listOf u) ∧
  (∀ t, Train.number (tget s.trains t) = none ∨
    ∀ u, t ≠ u → Train.number (tget s.trains t) ≠ Train.number (tget s.trains u)) ∧
  (∀ b, (tget s.blockFlags b).stray.isSome = true → s.holder b = none) ∧
  ∀ b, s.bridged b = true → (s.holder b).isSome = true

/-- Train records that pass the checks are sound. -/
theorem trainsSound_of_check {s : State} (h : s.trainsCheck) : s.trainsSound := by
  obtain ⟨h1, h2, h3, h4, h5, h6⟩ := h
  refine ⟨?_, ?_, fun t u hne b hb => h3 t b hb u hne, ?_, h5, h6⟩
  · intro t n l speed o ht
    have := h1 t
    simp only [State.trainCheck, ht, Bool.and_eq_true, decide_eq_true_eq, Bool.not_eq_true'] at this
    obtain ⟨⟨⟨⟨a, b⟩, c⟩, d⟩, e⟩ := this
    refine ⟨by simpa using a, b, c, ?_, ?_⟩
    · intro x hx; simpa [hx] using d
    · intro x hx; simpa [hx] using e
  · intro t n ht
    have := h2 t
    simpa [ht] using this
  · intro t u n ht hu
    by_contra hne
    rcases h4 t with h | h
    · simp [ht] at h
    · exact h u hne (ht.trans hu.symm)

/-- The checks of the show queue and of the running show. -/
abbrev State.showsCheck (s : State) : Prop :=
  (∀ i j, (match (tget s.shows i).state with | .running _ => true | _ => false) = true →
    (match (tget s.shows j).state with | .running _ => true | _ => false) = true → i = j) ∧
  s.showQueue.length ≤ 4 ∧ s.showQueue.Nodup ∧
  ∀ i, i ∈ s.showQueue ↔ (match (tget s.shows i).state with | .queued _ => true | _ => false) = true

/-- Shows that pass the checks are sound. -/
theorem showsSound_of_check {s : State} (h : s.showsCheck) : s.showsSound := by
  obtain ⟨h1, h2, h3, h4⟩ := h
  exact ⟨fun i j hi hj => h1 i j ((showRuns_iff s i).1 hi) ((showRuns_iff s j).1 hj), h2, h3,
    fun i => (h4 i).trans (showQueued_iff s i).symm⟩

/-- The checks of the route request queue. -/
abbrev State.queueCheck (s : State) : Prop :=
  s.queue.length ≤ 16 ∧ (s.entriesOf .visitor).length ≤ 4 ∧ s.queue.Nodup ∧
    ∀ r, r ∈ s.queue ↔ (match tget s.routes r with | .queued .. => true | _ => false) = true

/-- A request queue that passes the checks is sound. -/
theorem queueSound_of_check {s : State} (h : s.queueCheck) : s.queueSound :=
  ⟨h.1, h.2.1, h.2.2.1, fun r => (h.2.2.2 r).trans (routeQueued_iff s r).symm⟩

/-- The check that a route with these marks has not released a block. -/
def RouteDef.unreleasedCheck (d : RouteDef) (m : Marks) (b : Fin 48) : Bool :=
  (List.range d.path.length).any (fun k => d.path[k]? == some b && !m.released k) || (d.overlap.contains b && !m.overlap)

/-- The checks of the reservations. -/
abbrev State.reservationsCheck (s : State) : Prop :=
  (∀ b, (match tget s.reservers b with
    | none => true
    | some r => match s.routeDef r, (tget s.routes r).marks with
      | some d, some m => d.unreleasedCheck m b
      | _, _ => false) = true) ∧
  (∀ r, (match (tget s.routes r).marks with
    | none => true
    | some m => match s.routeDef r with
      | some d => m.path.length == d.path.length
      | none => false) = true) ∧
  (s.mode = .config → ∀ r, (tget s.routes r).marks = none)

/-- Reservations that pass the checks are sound. -/
theorem reservationsSound_of_check {s : State} (h : s.reservationsCheck) : s.reservationsSound := by
  obtain ⟨h1, h2, h3⟩ := h
  refine ⟨?_, ?_, h3⟩
  · intro b r hb
    have h := h1 b
    rw [hb] at h
    simp only at h
    split at h
    · rename_i d m hd hm
      refine ⟨d, m, hd, hm, ?_⟩
      simp only [RouteDef.unreleasedCheck, Bool.or_eq_true, List.any_eq_true, Bool.and_eq_true, beq_iff_eq,
        Bool.not_eq_true', List.contains_iff_mem] at h
      rcases h with ⟨k, -, hk⟩ | h
      · exact .inl ⟨k, hk⟩
      · exact .inr h
    · exact absurd h (by decide)
  · intro r m hm
    have h := h2 r
    rw [hm] at h
    simp only at h
    split at h
    · rename_i d hd
      exact ⟨d, hd, by simpa using h⟩
    · exact absurd h (by decide)

/-- A route keeps a point where its entry and its marks say so. -/
def State.keepsCheck (s : State) (r p : Fin 64) (l : Lie) : Bool :=
  match tget s.tables.routes r, (tget s.routes r).marks with
  | some d, some m =>
    d.points.any (fun x => x.point == p && x.lie == l && m.path[x.release]? == some false) ||
      (d.flank.any (fun x => x.point == p && x.lie == l) && m.path.getLast? == some false)
  | _, _ => false

theorem keepsPoint_iff (s : State) (r p : Fin 64) (l : Lie) : s.keepsPoint r p l ↔ s.keepsCheck r p l = true := by
  unfold State.keepsPoint State.keepsCheck
  cases tget s.tables.routes r <;> cases (tget s.routes r).marks <;> simp [and_assoc]

/-- A point's moving target is what its group's current move says. -/
def State.movingCheck (s : State) (p : Fin 64) (l : Lie) : Bool :=
  match tget s.tables.points p with
  | none => false
  | some x =>
    match (tget s.groups x.group).current with
    | none => false
    | some m => (tget s.groups x.group).outcome == none && m.point == p && m.target == l

theorem movingTo_iff (s : State) (p : Fin 64) (l : Lie) : s.movingTo p l ↔ s.movingCheck p l = true := by
  unfold State.movingTo State.movingCheck
  cases tget s.tables.points p with
  | none => simp
  | some x => cases h : (tget s.groups x.group).current <;> simp [h, and_assoc]

/-- The routes that keep a point, whatever lie they require. -/
def State.keepersOf (s : State) (p : Fin 64) : List (Fin 64) :=
  (indices 64).filter fun r => s.keepsCheck r p .normal || s.keepsCheck r p .reverse

/-- The checks of the locks. -/
abbrev State.locksCheck (s : State) : Prop :=
  (∀ r, (tget s.tables.routes r).all (fun d =>
    !d.path.isEmpty && d.points.all fun x => decide (x.release < d.path.length)) = true) ∧
  (∀ p, (tget s.points p).locks = (s.keepersOf p).length ∧
    ∀ l ∈ [Lie.normal, .reverse], (s.keepersOf p).any (fun r => s.keepsCheck r p l) = true →
      (s.keepersOf p).all (fun r => !s.keepsCheck r p (Lie.other l)) = true ∧ s.movingCheck p (Lie.other l) = false ∧
        ∀ g, (tget s.groups g).queue.contains (p, Lie.other l) = false) ∧
  ∀ g, ((tget s.groups g).queue.map (·.1)).Nodup ∧
    ∀ e ∈ (tget s.groups g).queue, (tget s.tables.points e.1).map (·.group) = some g

/-- Locks that pass the checks are sound. -/
theorem locksSound_of_check {s : State} (h : s.locksCheck) : s.locksSound := by
  obtain ⟨h1, h2, h3⟩ := h
  have keeper (r p : Fin 64) : r ∈ s.keepersOf p ↔ ∃ k, s.keepsPoint r p k := by
    simp only [State.keepersOf, indices, List.mem_filter, List.mem_finRange, true_and, Bool.or_eq_true, keepsPoint_iff]
    constructor
    · rintro (h | h) <;> exact ⟨_, h⟩
    · rintro ⟨k, h⟩
      cases k
      · exact .inl h
      · exact .inr h
  have held {r p : Fin 64} {l : Lie} (k : s.keepsPoint r p l) :
      (s.keepersOf p).any (fun r => s.keepsCheck r p l) = true :=
    List.any_eq_true.2 ⟨r, (keeper r p).2 ⟨l, k⟩, (keepsPoint_iff ..).1 k⟩
  refine ⟨fun r d hd => ?_, fun p => ⟨s.keepersOf p, ?_, (h2 p).1, fun r => keeper r p⟩, ?_, ?_, h3⟩
  · have := h1 r
    rw [hd] at this
    simpa using this
  · exact (List.nodup_finRange 64).filter _
  · intro q r p k l hq hr
    by_contra hne
    have e : Lie.other k = l := by cases k <;> cases l <;> simp_all [Lie.other]
    have := List.all_eq_true.1 ((h2 p).2 k (by cases k <;> simp) (held hq)).1 r ((keeper r p).2 ⟨l, hr⟩)
    rw [e, (keepsPoint_iff ..).1 hr] at this
    exact absurd this (by decide)
  · intro r p l hk
    obtain ⟨-, a, b⟩ := (h2 p).2 l (by cases l <;> simp) (held hk)
    refine ⟨fun hm => ?_, fun g hg => ?_⟩
    · rw [(movingTo_iff ..).1 hm] at a
      exact absurd a (by decide)
    · have := b g
      rw [List.contains_iff_mem.2 hg] at this
      exact absurd this (by decide)

/-- In another mode than CONFIG there is nothing to be at rest. -/
theorem configAtRest_of_mode {s : State} (h : s.mode ≠ .config) : s.configAtRest := fun hc => absurd hc h

end Sys2Proof.Machine
end

