-- ==== Sys2Proof/Laws/Reports.lean ====
section
/-! SUPPORT. How fields of a report are spelled, one width at a time: the bytes of a present value, and 0xFF throughout an absent
one. -/

namespace Sys2Proof.Machine

@[simp] theorem spelled_nil : spelled [] = [] := rfl

theorem spelled_append (a b : List ReportField) : spelled (a ++ b) = spelled a ++ spelled b := by simp [spelled]

theorem spelled_map {α : Type} (f : α → ReportField) (l : List α) :
    spelled (l.map f) = l.flatMap fun a => spelled [f a] := by simp [spelled, List.flatMap_map]

theorem spelled_flatMap {α : Type} (f : α → List ReportField) (l : List α) :
    spelled (l.flatMap f) = l.flatMap fun a => spelled (f a) := by simp [spelled, List.flatMap_assoc]

/-- A present value takes its bytes, most significant first. -/
theorem spelled_present (w n : Nat) (l : List ReportField) : spelled ((w, some n) :: l) = bigEndian w n ++ spelled l := by
  simp [spelled, bigEndian]

/-- An absent value takes as many bytes of 0xFF as it is wide. -/
theorem spelled_absent (w : Nat) (l : List ReportField) : spelled ((w, none) :: l) = List.replicate w 0xFF ++ spelled l := by
  simp [spelled, List.map_const']

@[simp] theorem spelled_byte (n : Nat) (l : List ReportField) : spelled (byteField (some n) :: l) = u8 n ++ spelled l := by
  simp [byteField, spelled_present, bigEndian, u8]

@[simp] theorem spelled_flag (b : Bool) (l : List ReportField) : spelled (flagField b :: l) = flag b ++ spelled l := by
  simp [flagField, spelled_present, bigEndian, flag, u8]

@[simp] theorem spelled_timer (s : State) (t : Timer) (l : List ReportField) :
    spelled (s.timerField t :: l) = s.timerBytes t ++ spelled l := by
  cases t with
  | none => simp [State.timerField, State.timerBytes, spelled_absent, maybe]
  | some e => simp [State.timerField, State.timerBytes, spelled_present, maybe, ageBytes, u32, State.remaining]

end Sys2Proof.Machine
end

