-- ==== Sys2Proof/Laws/Requests.lean ====
section
/-! SUPPORT. What a request comes to, once for all of them: a frame that is discarded, one refused for its length or its tag,
and one handed to the block that owns it (`request_heard`), with the reply queued as `State.replied` says; and what the clock
operations leave. -/

namespace Sys2Proof.Machine

/-! ## The clock -/

theorem advance_eq_later (s : State) (dt : Nat) : s.advance dt = s.later dt := rfl

theorem advanceTo_eq (s : State) (e : Nat) : s.advanceTo e = { s with clock := s.clock.upTo e } := rfl

theorem advance_advanceTo (s : State) (dt e : Nat) :
    (s.advance dt).advanceTo e = { s with clock := (s.clock.plus dt).upTo e } := rfl

theorem advanceToStamp_eq (s : State) (e : Stamp) : s.advanceToStamp e = { s with clock := s.clock.upToStamp e } := by
  unfold State.advanceToStamp Clock.upToStamp
  dsimp only
  split <;> rfl

/-- A timer that has not expired brings the clock to its expiry. -/
theorem upTo_us (c : Clock) (e : Nat) : (c.upTo e).us = max c.us e := by
  simp only [Clock.upTo, Clock.plus]
  omega

theorem later_later (s : State) (a b : Nat) : (s.later a).later b = s.later (a + b) := by
  simp only [State.later, Clock.plus, Nat.add_assoc, BitVec.add_assoc, BitVec.ofNat_add]

/-! ## Replies -/

/-- Queueing a reply with the assembler in HUNT is `State.replied`. -/
theorem pushReply_eq_replied (s : State) (tag : Byte) (r : Reply) (h : s.link.rx = .hunt) :
    s.pushReply tag r = s.replied tag r := by
  simp only [State.pushReply, State.replied, State.updLink, LinkPort.startReply]
  cases hf : s.link.fifo <;> cases ht : s.link.tx <;> simp [h]

theorem pushReply_frameTaken (s : State) (dt : Nat) (tag : Byte) (r : Reply) :
    ((s.advance dt).frameTaken).pushReply tag r = s.answered dt tag r :=
  pushReply_eq_replied _ tag r rfl

theorem frameTaken_eq_frameLost (s : State) (dt : Nat) : (s.advance dt).frameTaken = s.frameLost dt := rfl

/-! ## Requests (R204, R205) -/

theorem frameLost_discards (s : State) (dt : Nat) :
    (s.frameLost dt).discards = (s.link.resetting || decide (8 ≤ s.link.fifo.length)) := rfl

/-- A request, with the time passed and its frame complete. -/
theorem request_eq {α : Type} (s : State) (dt : Nat) (tag : Byte) (body : Body α) (take : α → State → State × Reply) :
    s.request dt tag body take = .next ((s.frameLost dt).examineBody tag body take) := rfl

variable {α : Type} (s : State) (dt : Nat) (tag : Byte) (take : α → State → State × Reply)

/-- A frame is discarded with the FIFO full or a RESET waiting to take effect. -/
theorem request_discarded (body : Body α) (h : s.link.resetting = true ∨ 8 ≤ s.link.fifo.length) :
    s.request dt tag body take = .next (s.frameLost dt) := by
  have hd : (s.frameLost dt).discards = true := by
    rw [frameLost_discards]; rcases h with h | h <;> simp [h]
  simp only [request_eq, State.examineBody, if_pos hd]

/-- A frame that is examined is not discarded. -/
theorem frameLost_examined (h : s.link.resetting = false) (hf : s.link.fifo.length < 8) :
    (s.frameLost dt).discards = false := by
  rw [frameLost_discards]; simp [h]; omega

/-- A payload of another length is refused with BAD_LENGTH. -/
theorem request_wrongLength (h : s.link.resetting = false) (hf : s.link.fifo.length < 8) :
    s.request dt tag (Body.wrongLength : Body α) take = .next (s.answered dt tag (.refused .badLength)) := by
  simp only [request_eq, State.examineBody, frameLost_examined s dt h hf, Bool.false_eq_true, ↓reduceIte]
  exact congrArg _ (pushReply_frameTaken s dt tag _)

/-- A tag of 0 is refused with BAD_VALUE. -/
theorem request_tagZero (a : α) (h : s.link.resetting = false) (hf : s.link.fifo.length < 8) :
    s.request dt 0 (.fields a) take = .next (s.answered dt 0 (.refused .badValue)) := by
  simp only [request_eq, State.examineBody, frameLost_examined s dt h hf, Bool.false_eq_true, ↓reduceIte]
  exact congrArg _ (pushReply_frameTaken s dt 0 _)

/-- A request that is heard is handed to the block that owns it, whose reply is queued. -/
theorem request_heard (a : α) (h : s.hears tag) :
    s.request dt tag (.fields a) take =
      .next ((take a (s.frameLost dt)).1.pushReply tag (take a (s.frameLost dt)).2) := by
  simp only [request_eq, State.examineBody, frameLost_examined s dt h.1 h.2.1, Bool.false_eq_true, ↓reduceIte,
    if_neg h.2.2]

/-- A block that refuses leaves its state, so the request comes to `answered`. -/
theorem request_refused (a : α) (h : s.hears tag) (r : Reason)
    (hx : take a (s.frameLost dt) = (s.frameLost dt).refuse r) :
    s.request dt tag (.fields a) take = .next (s.answered dt tag (.refused r)) := by
  rw [request_heard s dt tag take a h, hx]
  exact congrArg _ (pushReply_frameTaken s dt tag _)

/-- A block that replies and changes nothing. -/
theorem request_replied (a : α) (h : s.hears tag) (r : Reply) (hx : take a (s.frameLost dt) = (s.frameLost dt, r)) :
    s.request dt tag (.fields a) take = .next (s.answered dt tag r) := by
  rw [request_heard s dt tag take a h, hx]
  exact congrArg _ (pushReply_frameTaken s dt tag _)

/-- The calm part of a reply is that of `replied` over the calm part it is queued on. -/
theorem pushReply_calm (s : State) (tag : Byte) (r : Reply) (h : s.link.rx = .hunt) :
    (s.pushReply tag r).calm = s.calm.replied tag r := by
  rw [pushReply_eq_replied s tag r h]; rfl

/-- Queueing a reply keeps the report list. -/
@[simp] theorem pushReply_reports (s : State) (tag : Byte) (r : Reply) :
    (s.pushReply tag r).link.reports = s.link.reports := by
  simp only [State.pushReply, State.updLink, LinkPort.startReply]
  split <;> rfl

end Sys2Proof.Machine
end

