-- ==== Sys2Proof/Laws/Routes.lean ====
section
/-! SUPPORT. What the model's derived conditions of points, blocks and routes say, in the terms of the claims: the moving and the
queued target of a point, a clear block, the proof status of a point, and the points that a route still locks. -/

namespace Sys2Proof.Machine

/-- The block list of a slot holds a block where an entry of the ACTIVE record does. -/
theorem mem_listOf {s : State} {t : Fin 24} {b : Fin 48} :
    b ∈ s.listOf t ↔ ∃ n l speed overlong, tget s.trains t = .active n l speed overlong ∧ ∃ x ∈ l, x.block = b := by
  unfold State.listOf
  cases h : tget s.trains t <;> simp [Train.blocks]

/-- No slot holds a block where no list names it. -/
theorem holder_eq_none {s : State} {b : Fin 48} : s.holder b = none ↔ ∀ t, b ∉ s.listOf t := by
  simp [State.holder, State.listOf, List.find?_eq_none]

/-- A block is clear where R47 says so. -/
theorem isClear_iff {s : State} {b : Fin 48} : s.isClear b = true ↔ s.standsClear b := by
  have h : s.holder b = none ↔
      ∀ t n l speed overlong, tget s.trains t = .active n l speed overlong → ∀ x ∈ l, x.block ≠ b := by
    rw [holder_eq_none]
    refine forall_congr' fun t => ?_
    rw [mem_listOf]
    constructor
    · intro h n l speed overlong e x hx hb
      exact h ⟨n, l, speed, overlong, e, x, hx, hb⟩
    · rintro h ⟨n, l, speed, overlong, e, x, hx, hb⟩
      exact h n l speed overlong e x hx hb
  simp only [State.isClear, State.standsClear, State.occupied, Bool.and_eq_true, Bool.not_eq_true', Option.isNone_iff_eq_none,
    and_assoc, h]

/-- A point's moving target is the target of its group's undecided current move. -/
theorem movingTarget_eq_some {s : State} {p : Fin 64} {l : Lie} : s.movingTarget p = some l ↔ s.movingTo p l := by
  unfold State.movingTarget State.movingTo State.pointDef
  cases tget s.tables.points p with
  | none => simp
  | some d =>
    cases h : (tget s.groups d.group).current with
    | none => simp [h]
    | some m => by_cases hp : m.point = p <;> by_cases ho : (tget s.groups d.group).outcome = none <;> simp [h, hp, ho]

/-- A point's queued target is that of its first entry in its group's move queue. -/
theorem queuedTarget_eq_some {s : State} {p : Fin 64} {l : Lie} : s.queuedTarget p = some l ↔ s.waitsFor p l := by
  unfold State.queuedTarget State.waitsFor State.pointDef
  cases tget s.tables.points p with
  | none => simp
  | some d =>
    simp only [Option.map_eq_some_iff, Option.some.injEq, exists_eq_left']
    constructor
    · rintro ⟨⟨q, k⟩, h, rfl⟩
      have := List.find?_some h
      simp only [beq_iff_eq] at this
      rw [h, this]
    · exact fun h => ⟨_, h, rfl⟩

/-- A point is proved in a lie where its lie, its motion, its failed flag and its contact say so (R77). -/
theorem provedIn_iff {s : State} {p : Fin 64} {l : Lie} : s.provedIn p l = true ↔
    (tget s.points p).lie = some l ∧ (∀ k, ¬ s.movingTo p k) ∧ (tget s.points p).failed = false ∧
      ((∀ d, tget s.tables.points p = some d → d.feedback = .none) ∨
        (tget s.contacts p).stale = false ∧ (tget s.contacts p).reading = Lie.reading l) := by
  have rest : s.atRest p = true ↔ ∀ k, ¬ s.movingTo p k := by
    simp [State.atRest, Option.eq_none_iff_forall_ne_some, movingTarget_eq_some]
  have feed : s.feedback p = .none ↔ ∀ d, tget s.tables.points p = some d → d.feedback = .none := by
    unfold State.feedback State.pointDef
    cases tget s.tables.points p <;> simp
  simp [State.provedIn, State.contactReads, rest, feed, and_assoc]

/-- A point's proof status is the lie in which it is proved. -/
theorem proof_eq_some {s : State} {p : Fin 64} {l : Lie} : s.proof p = some l ↔ s.provedIn p l = true := by
  unfold State.proof
  cases l with
  | normal => by_cases h : s.provedIn p .normal = true <;> simp [h]
  | reverse =>
    by_cases h : s.provedIn p .normal = true
    · have : s.provedIn p .reverse ≠ true := fun h' =>
        absurd ((provedIn_iff.1 h).1.symm.trans (provedIn_iff.1 h').1) (by decide)
      simp [h, this]
    · simp [h]

/-- The last path block of a route with these marks is not released where its mark is not set. -/
theorem lastReleased_eq_false {m : Marks} : m.lastReleased = false ↔ m.path.getLast? = some false := by
  unfold Marks.lastReleased
  rw [List.getLastD_eq_getLast?]
  cases m.path.getLast? <;> simp

/-- Path block `k` is not released where there is a mark for it and it is not set. -/
theorem released_eq_false {m : Marks} {k : Nat} : m.released k = false ↔ m.path[k]? = some false := by
  unfold Marks.released
  rw [List.getD_eq_getElem?_getD]
  cases m.path[k]? <;> simp

/-- A route still locks a point, requiring a lie, where it keeps it. -/
theorem mem_lockedBy {s : State} {r p : Fin 64} {l : Lie} : (p, l) ∈ s.lockedBy r ↔ s.keepsPoint r p l := by
  unfold State.lockedBy State.keepsPoint State.routeDef
  cases tget s.tables.routes r with
  | none => simp
  | some d =>
    cases (tget s.routes r).marks with
    | none => simp
    | some m =>
      simp only [RouteDef.stillLocked, List.mem_append, List.mem_map, List.mem_filter, Bool.not_eq_true', Prod.mk.injEq,
        Option.some.injEq]
      trans ((∃ x ∈ d.points, x.point = p ∧ x.lie = l ∧ m.path[x.release]? = some false) ∨
        (∃ x ∈ d.flank, x.point = p ∧ x.lie = l) ∧ m.path.getLast? = some false)
      swap
      · exact ⟨fun h => ⟨d, m, rfl, rfl, h⟩, by rintro ⟨_, _, rfl, rfl, h⟩; exact h⟩
      refine or_congr ?_ ?_
      · refine exists_congr fun x => ?_
        rw [released_eq_false]
        tauto
      · by_cases h : m.lastReleased = true
        · have : m.path.getLast? ≠ some false := fun e => by simp [lastReleased_eq_false.2 e] at h
          simp [h, this]
        · rw [Bool.not_eq_true] at h
          simp [h, lastReleased_eq_false.1 h]

/-! ## The fields of a part whose route frees its elements -/

@[simp] theorem freeing_routes (s : State) (r : Fin 64) (d : RouteDef) (x : FreeReason) :
    (s.freeing r d x).routes = tset s.routes r (.free x) := rfl
@[simp] theorem freeing_queue (s : State) (r : Fin 64) (d : RouteDef) (x : FreeReason) :
    (s.freeing r d x).queue = s.queue := rfl
@[simp] theorem freeing_tables (s : State) (r : Fin 64) (d : RouteDef) (x : FreeReason) :
    (s.freeing r d x).tables = s.tables := rfl
@[simp] theorem freeing_mode (s : State) (r : Fin 64) (d : RouteDef) (x : FreeReason) : (s.freeing r d x).mode = s.mode := rfl
@[simp] theorem freeing_deck (s : State) (r : Fin 64) (d : RouteDef) (x : FreeReason) : (s.freeing r d x).deck = s.deck := rfl
@[simp] theorem freeing_groups (s : State) (r : Fin 64) (d : RouteDef) (x : FreeReason) :
    (s.freeing r d x).groups = s.groups := rfl
@[simp] theorem freeing_channels (s : State) (r : Fin 64) (d : RouteDef) (x : FreeReason) :
    (s.freeing r d x).channels = s.channels := rfl
@[simp] theorem freeing_trains (s : State) (r : Fin 64) (d : RouteDef) (x : FreeReason) :
    (s.freeing r d x).trains = s.trains := rfl
@[simp] theorem freeing_blockFlags (s : State) (r : Fin 64) (d : RouteDef) (x : FreeReason) :
    (s.freeing r d x).blockFlags = s.blockFlags := rfl

end Sys2Proof.Machine
end

