-- ==== Sys2Proof/WellFormed.lean ====
section
/-! DEFINITION. The commands that the outside can send: every number lies in the bytes its field has on the control link
(R203), no value takes the place of the all-ones pattern that leaves a field out (R203), a list has a one-byte count, a
text has at most 20 codes (R12, R185), and an unknown kind is not a kind of the request table (R204). -/

namespace Sys2Proof

/-- A number of one byte. -/
def fitsByte (n : Nat) : Bool := decide (n ≤ 255)

/-- A number of two bytes. -/
def fitsWord (n : Nat) : Bool := decide (n ≤ 65535)

/-- A defaulted number below `left`, the pattern that leaves it out. -/
def Sent.below (left : Nat) : Sent Nat → Bool
  | .value n => decide (n < left)
  | _ => true

/-- A required choice is sent. -/
def Sent.isSent {α : Type} : Sent α → Bool
  | .omitted => false
  | _ => true

/-- A link fits its three bytes. -/
def RawLink.wf : RawLink → Bool
  | .blockEnd b e => fitsByte b && e.isSent
  | .pointLeg p g => fitsByte p && g.isSent
  | _ => true

/-- A block kind fits. -/
def RawKind.wf : RawKind → Bool
  | .stop g => fitsByte g
  | _ => true

/-- What a sent choice carries satisfies `f`. -/
def Sent.carries {α : Type} (f : α → Bool) : Sent α → Bool
  | .value a => f a
  | _ => true

/-- A block record fits (R203). -/
def DefBlock.wf (d : DefBlock) : Bool :=
  fitsByte d.index && d.kind.isSent && d.kind.carries RawKind.wf && d.link0.wf && d.link1.wf &&
    d.threshold.below 255 && d.hysteresis.below 255 && d.dwellOn.below 255 && d.dwellOff.below 255 &&
    d.restartGroup.below 255

/-- A point record fits (R203). -/
def DefPoint.wf (d : DefPoint) : Bool :=
  fitsByte d.index && d.toe.wf && d.normal.wf && d.reverse.wf && fitsByte d.group

/-- A group record fits (R203). -/
def DefGroup.wf (d : DefGroup) : Bool :=
  fitsByte d.index && d.setup.below 255 && d.pulse.below 65535 && d.recovery.below 65535 && d.window.below 65535

/-- A signal record fits (R203). -/
def DefSignal.wf (d : DefSignal) : Bool :=
  fitsByte d.index && fitsByte d.block && d.stands.isSent && fitsByte d.aspects && fitsByte d.lampModule &&
    fitsByte d.firstOutput

/-- A point requirement of a route fits (R203). -/
def RawPointReq.wf (d : RawPointReq) : Bool := fitsByte d.point && d.lie.isSent && fitsByte d.release

/-- A flank requirement fits (R203). -/
def RawFlankReq.wf (d : RawFlankReq) : Bool := fitsByte d.point && d.lie.isSent

/-- A turntable requirement fits (R203). -/
def RawDeckReq.wf (d : RawDeckReq) : Bool := fitsByte d.road && d.side.isSent

/-- An approach control requirement fits (R203). -/
def RawApproach.wf (d : RawApproach) : Bool := fitsWord d.limit && fitsByte d.trap && fitsByte d.release

/-- A list with a one-byte count whose entries satisfy `f`. -/
def listFits {α : Type} (f : α → Bool) (l : List α) : Bool := fitsByte l.length && l.all f

/-- A route record fits (R203). -/
def DefRoute.wf (d : DefRoute) : Bool :=
  fitsByte d.index && fitsByte d.entrance && d.exit.all (fun n => decide (n < 255)) && listFits fitsByte d.path &&
    listFits RawPointReq.wf d.points && listFits RawFlankReq.wf d.flank && listFits fitsByte d.overlap &&
    d.turntable.carries RawDeckReq.wf && d.approach.carries RawApproach.wf

/-- A turntable record fits (R203). -/
def DefTurntable.wf (d : DefTurntable) : Bool :=
  fitsByte d.index && fitsWord d.r && fitsWord d.vMin && fitsWord d.vMax && fitsWord d.increment &&
    fitsByte d.tolerance && d.settle.below 65535 && d.bolt.below 65535 && d.deadtime.below 65535 && fitsByte d.deckBlock

/-- A road record fits (R203). -/
def DefRoad.wf (d : DefRoad) : Bool := fitsByte d.index && fitsWord d.position && fitsByte d.block

/-- A trap record fits (R203). -/
def DefTrap.wf (d : DefTrap) : Bool :=
  fitsByte d.index && fitsWord d.distance && d.edges.below 255 && d.quiet.below 65535 && fitsByte d.block &&
    d.abEnd.isSent

/-- A module record fits (R203). -/
def DefModule.wf (d : DefModule) : Bool := fitsByte d.index && fitsByte d.address && d.type.isSent

/-- A key action fits (R203). -/
def RawAction.wf : RawAction → Bool
  | .startShow i => fitsByte i
  | .visitorRoute r => fitsByte r
  | _ => true

/-- A key record fits (R203). -/
def DefKey.wf (d : DefKey) : Bool :=
  fitsByte d.index && fitsByte d.panel && fitsByte d.key && d.action.isSent && d.action.carries RawAction.wf

/-- An LED record fits (R203). -/
def DefLed.wf (d : DefLed) : Bool := fitsWord d.number && d.kind.isSent && fitsByte d.index

/-- A cue selector fits (R203). -/
def RawSelector.wf : RawSelector → Bool
  | .blockOccupied b => fitsByte b
  | .blockCleared b => fitsByte b
  | .trapResult t => fitsByte t
  | .turntableAligned => true
  | .routeEntered r => fitsByte r
  | .routeFreed r => fitsByte r
  | .key m k => fitsByte m && fitsByte k

/-- A cue record fits (R203). -/
def DefCue.wf (d : DefCue) : Bool := fitsByte d.index && d.selector.carries RawSelector.wf

/-- A show step fits (R203). -/
def RawStep.wf : RawStep → Bool
  | .route r => fitsByte r
  | .turn road e => fitsByte road && e.isSent
  | .waitRoute r t n => fitsByte r && t.isSent && fitsWord n
  | .waitTurntable n => fitsWord n
  | .waitCue c n => fitsByte c && fitsWord n
  | .pause n => fitsWord n
  | .clearCue c => fitsByte c
  | .caption k => fitsByte k
  | .cancel r => fitsByte r
  | .finish => true

/-- A step definition fits (R203). -/
def DefStep.wf (d : DefStep) : Bool :=
  fitsByte d.showNo && fitsByte d.position && d.step.isSent && d.step.carries RawStep.wf

/-- 0xFFFF is ALL, so an index lies below it. -/
def EraseReq.wf (d : EraseReq) : Bool := d.table.isSent && d.index.all fun n => decide (n < 65535)

/-- A parameter setting fits (R203). -/
def ParamReq.wf (d : ParamReq) : Bool := d.param.isSent && fitsWord d.value

/-- At most 20 character codes. -/
def codesFit (l : List Byte) : Bool := decide (l.length ≤ 20)

/-- A caption fits (R203). -/
def CaptionReq.wf (d : CaptionReq) : Bool := fitsByte d.index && codesFit d.codes

/-- An isolation request fits (R203). -/
def IsolateReq.wf (d : IsolateReq) : Bool := fitsByte d.block && d.on.isSent

/-- A placing of a train fits (R203). -/
def PlaceReq.wf (d : PlaceReq) : Bool := fitsWord d.number && fitsByte d.block && d.leading.isSent

/-- A throw fits (R203). -/
def ThrowReq.wf (d : ThrowReq) : Bool := fitsByte d.point && d.lie.isSent

/-- A turn fits (R203). -/
def TurnReq.wf (d : TurnReq) : Bool := fitsByte d.road && d.side.isSent

/-- A query fits (R203). -/
def QueryReq.wf (d : QueryReq) : Bool := fitsByte d.code && fitsByte d.index

/-- The fields of a body satisfy `f`. -/
def Body.carries {α : Type} (f : α → Bool) : Body α → Bool
  | .wrongLength => true
  | .fields a => f a

/-- Whether a kind code stands in the request table (R203). -/
def requestKind (k : Byte) : Bool :=
  (decide (0x01 ≤ k.toNat) && decide (k.toNat ≤ 0x15)) || (decide (0x20 ≤ k.toNat) && decide (k.toNat ≤ 0x30))

/-- Whether the outside can send a command. -/
def Instr.wf : Instr → Bool
  | .defineBlock _ _ body => body.carries DefBlock.wf
  | .definePoint _ _ body => body.carries DefPoint.wf
  | .defineGroup _ _ body => body.carries DefGroup.wf
  | .defineSignal _ _ body => body.carries DefSignal.wf
  | .defineRoute _ _ body => body.carries DefRoute.wf
  | .defineTurntable _ _ body => body.carries DefTurntable.wf
  | .defineRoad _ _ body => body.carries DefRoad.wf
  | .defineTrap _ _ body => body.carries DefTrap.wf
  | .defineModule _ _ body => body.carries DefModule.wf
  | .defineKey _ _ body => body.carries DefKey.wf
  | .defineLed _ _ body => body.carries DefLed.wf
  | .defineCue _ _ body => body.carries DefCue.wf
  | .defineStep _ _ body => body.carries DefStep.wf
  | .erase _ _ body => body.carries EraseReq.wf
  | .setParam _ _ body => body.carries ParamReq.wf
  | .setCaption _ _ body => body.carries CaptionReq.wf
  | .isolateFeed _ _ body => body.carries IsolateReq.wf
  | .restoreFeed _ _ body => body.carries fitsByte
  | .placeTrain _ _ body => body.carries PlaceReq.wf
  | .removeTrain _ _ body => body.carries fitsWord
  | .throwPoint _ _ body => body.carries ThrowReq.wf
  | .requestRoute _ _ body => body.carries fitsByte
  | .cancelRoute _ _ body => body.carries fitsByte
  | .forceRelease _ _ body => body.carries fitsByte
  | .turn _ _ body => body.carries TurnReq.wf
  | .startShow _ _ body => body.carries fitsByte
  | .stopShow _ _ body => body.carries fitsByte
  | .setCue _ _ body => body.carries fitsByte
  | .clearCue _ _ body => body.carries fitsByte
  | .setText _ _ body => body.carries codesFit
  | .query _ _ body => body.carries QueryReq.wf
  | .unknownKind _ _ kind => !requestKind kind
  | .powerOn _ | .startRun .. | .stopRun .. | .haltLayout .. | .resume .. | .reset .. | .resetTakesEffect _ => true
  | .home .. | .stopTurntable .. => true
  | .badCheckFrame _ | .framingError _ | .frameGapTimeout _ | .frameSent _ | .sendReport _ | .receivedByte .. => true
  | .levelSample .. | .contactReading .. | .channelStale .. | .contactStale .. => true
  | .feedCoolExpiry .. | .restartDue .. => true
  | .setupEnd .. | .pulseTimeEnd .. | .feedbackWindowEnd .. | .confirmWaitEnd .. | .recoveryEnd .. => true
  | .stackTimeoutExpiry .. | .overlapTimerExpiry .. | .approachLockExpiry .. | .approachTimerExpiry .. => true
  | .gateEdge .. | .quietTimerExpiry .. | .trapTimeout .. => true
  | .boltOutContact .. | .boltInContact .. | .boltTimerExpiry _ | .deadtimeExpiry _ | .stepComplete _ => true
  | .reversalEnd _ | .creepStepComplete _ | .homingStepComplete _ | .indexEdge _ => true
  | .settleTimeExpiry _ | .relayDeadtimeExpiry _ => true
  | .startTransaction .. | .clockStretchTimeout _ | .busRecoveryEnd _ | .generalCallEnd .. | .partWriteEnd .. => true
  | .probeEnd .. | .readBackEnd .. | .keyPollEnd .. => true
  | .proveTimerExpiry .. | .pollTimerExpiry .. | .probeTimerExpiry .. => true
  | .speedHoldExpiry _ | .waitTimerExpiry .. | .holdOffExpiry .. => true

end Sys2Proof
end

