-- ==== Sys2Proof/Tests/Slice0.lean ====
section
/-! SUPPORT. Tests with values from the manual: the well-formedness smoke, the manual's worked examples one command at a time,
and a witness for the hypotheses and the clauses of every statement. The expected values come from the rules and the worked
examples named with each test, worked by hand. -/

set_option maxRecDepth 100000
set_option Elab.async false

namespace Sys2Proof.Tests

open Sys2Proof Sys2Proof.Machine

/-! ## The layout of the worked examples -/

/-- A PLAIN block with the default levels and dwells (R4). -/
def plain (l0 l1 : Link) : BlockDef := ⟨.plain, l0, l1, 40, 8, 3, 12, .auto, 0⟩

/-- The blocks of the worked examples: 0 to 2 of chapter 4, 12 of chapter 2, 20 to 25 of chapter 3, 29 to 37 of chapters 5 and 6,
and the deck with three road blocks of chapter 8. -/
def blockAt : Nat → Option BlockDef
  | 0 => some (plain .noLink (.blockEnd 2 .e0))
  | 1 => some (plain (.pointLeg 11 .reverse) .noLink)
  | 2 => some (plain (.blockEnd 0 .e1) (.pointLeg 9 .toe))
  | 12 => some { plain .noLink .noLink with restartGroup := 2 }
  | 20 => some (plain .noLink (.blockEnd 21 .e0))
  | 21 => some (plain (.blockEnd 20 .e1) (.pointLeg 5 .toe))
  | 22 => some (plain (.pointLeg 5 .normal) (.blockEnd 25 .e0))
  | 23 => some (plain (.pointLeg 5 .reverse) .noLink)
  | 25 => some (plain (.blockEnd 22 .e1) .noLink)
  | 29 => some (plain .noLink (.blockEnd 30 .e0))
  | 30 => some (plain (.blockEnd 29 .e1) (.blockEnd 31 .e0))
  | 31 => some (plain (.blockEnd 30 .e1) (.pointLeg 20 .toe))
  | 32 => some (plain (.pointLeg 20 .reverse) (.blockEnd 33 .e0))
  | 33 => some { plain (.blockEnd 32 .e1) (.blockEnd 34 .e0) with kind := .stop 7, restartGroup := 2 }
  | 34 => some (plain (.blockEnd 33 .e1) (.blockEnd 36 .e0))
  | 35 => some (plain (.pointLeg 20 .normal) .noLink)
  | 36 => some (plain (.blockEnd 34 .e1) (.blockEnd 37 .e0))
  | 37 => some (plain (.blockEnd 36 .e1) .noLink)
  | 40 => some (plain .noLink .noLink)
  | 41 => some (plain .noLink .noLink)
  | 42 => some { plain .noLink .noLink with kill := .latch }
  | 47 => some { plain .noLink .noLink with kind := .deck }
  | _ => none

/-- The points of the worked examples: 5 of chapter 3, 9 to 11 of chapter 4, 20 and 21 of chapter 5. -/
def pointAt : Nat → Option PointDef
  | 5 => some ⟨.blockEnd 21 .e1, .blockEnd 22 .e0, .blockEnd 23 .e0, 0, .none, .asFound⟩
  | 9 => some ⟨.blockEnd 2 .e1, .noLink, .pointLeg 10 .toe, 2, .none, .normal⟩
  | 10 => some ⟨.pointLeg 9 .reverse, .noLink, .pointLeg 11 .toe, 2, .hold, .asFound⟩
  | 11 => some ⟨.pointLeg 10 .reverse, .noLink, .blockEnd 1 .e0, 2, .confirm, .normal⟩
  | 20 => some ⟨.blockEnd 31 .e1, .blockEnd 35 .e0, .blockEnd 32 .e0, 1, .none, .normal⟩
  | 21 => some ⟨.noLink, .noLink, .noLink, 1, .none, .normal⟩
  | _ => none

/-- The signals of chapter 6. -/
def signalAt : Nat → Option SignalDef
  | 4 => some ⟨30, .e1, 3, 0, 0⟩
  | 7 => some ⟨33, .e1, 4, 2, 4⟩
  | 10 => some ⟨36, .e1, 4, 3, 0⟩
  | _ => none

/-- Route 12 of chapter 5. -/
def route12 : RouteDef :=
  ⟨4, some 7, [31, 32, 33], [⟨20, .reverse, 0⟩], [⟨21, .normal⟩], [34], none, none, false⟩

/-- The routes of chapters 5 and 6, 16 with approach control as in 6.8, and 17 with one path block
and an overlap. -/
def routeAt : Nat → Option RouteDef
  | 12 => some route12
  | 13 => some ⟨4, none, [31, 35], [⟨20, .normal, 0⟩], [], [], none, none, true⟩
  | 14 => some ⟨7, none, [34], [], [], [], none, none, false⟩
  | 15 => some ⟨7, some 10, [34, 36], [], [], [], none, none, false⟩
  | 16 => some { route12 with approach := some ⟨250, 2, 20⟩ }
  | 17 => some ⟨7, none, [34], [], [], [36], none, none, false⟩
  | 18 => some ⟨10, none, [37], [], [], [], none, none, false⟩
  | _ => none

/-- The turntable of the worked move (8.5). -/
def turntable : TurntableDef := ⟨6400, 100, 400, 100, false, 8, true, 300, 1500, 100, 47⟩

/-- The layout of the worked examples. -/
def layout : Tables :=
  { Tables.empty with
    blocks := tgen 48 fun b => blockAt b.val
    points := tgen 64 fun p => pointAt p.val
    signals := tgen 32 fun g => signalAt g.val
    routes := tgen 64 fun r => routeAt r.val
    turntable := some turntable
    roads := tgen 24 fun q => match q.val with
      | 3 => some ⟨1200, 40⟩
      | 7 => some ⟨6000, 41⟩
      | 11 => some ⟨6398, 42⟩
      | _ => none
    traps := tgen 4 fun t => match t.val with
      | 1 => some ⟨300, 2, 50, 22, .e1⟩
      | 2 => some ⟨100, 1, 50, 30, .e1⟩
      | _ => none
    modules := tgen 24 fun m => match m.val with
      | 0 => some ⟨0x20, .lamp⟩
      | 2 => some ⟨0x22, .lamp⟩
      | 3 => some ⟨0x23, .lamp⟩
      | 5 => some ⟨0x25, .keys⟩
      | 6 => some ⟨0x26, .text⟩
      | 7 => some ⟨0x27, .mimic⟩
      | _ => none
    keys := tgen 64 fun k => match k.val with
      | 12 => some ⟨5, 3, .startShow 3⟩
      | 13 => some ⟨5, 4, .emergency⟩
      | 14 => some ⟨5, 5, .none⟩
      | _ => none
    leds := [(451, .blockOcc 12)]
    cues := tgen 16 fun c => match c.val with
      | 0 => .routeEntered 12
      | 1 => .routeFreed 12
      | 2 => .blockOccupied 47
      | 3 => .turntableAligned
      | 4 => .trapResult 1
      | 5 => .key 5 5
      | _ => .none
    shows := tgen 8 fun i => match i.val with
      | 1 => [.pause 5000, .finish]
      | 2 => [.waitCue 6 10, .finish]
      | 3 => [.clearCue 2, .pause 1000, .finish]
      | _ => [] }

/-- The part in CONFIG with the layout loaded, one second after power-on, its report list read out. -/
def loaded : State :=
  { State.reset with tables := layout, clock := ⟨1000000, 1000000⟩, link := { LinkPort.initial with reports := [] } }

/-- The part in RUN with nothing under way. -/
def inRun : State := { loaded with mode := .run }

/-- The part in HALT with nothing under way. -/
def inHalt : State := { loaded with mode := .halt .host }

/-- The state after a command. -/
def did (c : Instr) (s : State) : State :=
  match exec c s with
  | .next t => t
  | _ => s

/-- The last reply queued. -/
def replied (s : State) : Option Reply := s.link.fifo.getLast?.map (·.reply)

/-- A LEVEL record with its check nibble. -/
def level (dt : Nat) (b : Fin 48) (value : Byte) : Instr :=
  .levelSample dt (BitVec.ofNat 7 b.val) value (recordCheck false (BitVec.ofNat 7 b.val) value)

/-- A CONTACT record with its check nibble. -/
def contact (dt : Nat) (p : Fin 64) (value : Byte) : Instr :=
  .contactReading dt (BitVec.ofNat 7 p.val) value (recordCheck true (BitVec.ofNat 7 p.val) value)

/-- The layout passes every check of START_RUN (R15 to R19). -/
theorem test_layout_passes : layout.firstFailure = none := by decide +kernel

/-! ## Well-formed commands: each check refuses an ill-formed term -/

/-- A DEFINE_BLOCK that fits: index 12, PLAIN, every default taken. -/
def sentBlock : DefBlock :=
  ⟨12, .value .plain, .noLink, .blockEnd 13 (.value .e0), .omitted, .omitted, .omitted, .omitted, .omitted, .omitted⟩

theorem smoke_block :
    DefBlock.wf sentBlock = true ∧ DefBlock.wf { sentBlock with threshold := .value 254, kind := .unlisted } = true ∧
    ∀ d ∈ [{ sentBlock with index := 256 }, { sentBlock with kind := .omitted }, { sentBlock with kind := .value (.stop 256) },
      { sentBlock with link0 := .blockEnd 256 (.value .e0) }, { sentBlock with link0 := .blockEnd 1 .omitted },
      { sentBlock with link1 := .pointLeg 256 (.value .toe) }, { sentBlock with link1 := .pointLeg 1 .omitted },
      { sentBlock with threshold := .value 255 }, { sentBlock with hysteresis := .value 255 },
      { sentBlock with dwellOn := .value 255 }, { sentBlock with dwellOff := .value 255 },
      { sentBlock with restartGroup := .value 255 }], DefBlock.wf d = false := by decide +kernel

/-- A DEFINE_POINT that fits. -/
def sentPoint : DefPoint := ⟨5, .blockEnd 21 (.value .e1), .noLink, .noLink, 0, .omitted, .omitted⟩

theorem smoke_point :
    DefPoint.wf sentPoint = true ∧
    ∀ d ∈ [{ sentPoint with index := 256 }, { sentPoint with toe := .blockEnd 256 (.value .e0) },
      { sentPoint with normal := .blockEnd 0 .omitted }, { sentPoint with reverse := .pointLeg 0 .omitted },
      { sentPoint with group := 256 }], DefPoint.wf d = false := by decide +kernel

theorem smoke_group :
    DefGroup.wf ⟨0, .value 254, .value 65534, .value 65534, .value 65534⟩ = true ∧
    ∀ d ∈ ([⟨256, .omitted, .omitted, .omitted, .omitted⟩, ⟨0, .value 255, .omitted, .omitted, .omitted⟩,
      ⟨0, .omitted, .value 65535, .omitted, .omitted⟩, ⟨0, .omitted, .omitted, .value 65535, .omitted⟩,
      ⟨0, .omitted, .omitted, .omitted, .value 65535⟩] : List DefGroup), DefGroup.wf d = false := by decide +kernel

theorem smoke_signal :
    DefSignal.wf ⟨4, 30, .value .e1, 3, 0, 0⟩ = true ∧
    ∀ d ∈ ([⟨256, 30, .value .e1, 3, 0, 0⟩, ⟨4, 256, .value .e1, 3, 0, 0⟩, ⟨4, 30, .omitted, 3, 0, 0⟩,
      ⟨4, 30, .value .e1, 256, 0, 0⟩, ⟨4, 30, .value .e1, 3, 256, 0⟩, ⟨4, 30, .value .e1, 3, 0, 256⟩] : List DefSignal),
      DefSignal.wf d = false := by decide +kernel

/-- A DEFINE_ROUTE that fits: route 12 of chapter 5. -/
def sentRoute : DefRoute :=
  ⟨12, 4, some 7, [31, 32, 33], [⟨20, .value .reverse, 0⟩], [⟨21, .value .normal⟩], [34], .omitted, .omitted, .omitted⟩

theorem smoke_route :
    DefRoute.wf sentRoute = true ∧
    DefRoute.wf { sentRoute with turntable := .value ⟨3, .value .a⟩, approach := .value ⟨250, 1, 20⟩ } = true ∧
    ∀ d ∈ [{ sentRoute with index := 256 }, { sentRoute with entrance := 256 }, { sentRoute with exit := some 255 },
      { sentRoute with path := [256] }, { sentRoute with path := List.replicate 256 0 },
      { sentRoute with points := [⟨256, .value .normal, 0⟩] }, { sentRoute with points := [⟨20, .omitted, 0⟩] },
      { sentRoute with points := [⟨20, .value .normal, 256⟩] }, { sentRoute with flank := [⟨256, .value .normal⟩] },
      { sentRoute with flank := [⟨21, .omitted⟩] }, { sentRoute with overlap := [256] },
      { sentRoute with turntable := .value ⟨256, .value .a⟩ }, { sentRoute with turntable := .value ⟨3, .omitted⟩ },
      { sentRoute with approach := .value ⟨65536, 1, 20⟩ }, { sentRoute with approach := .value ⟨250, 256, 20⟩ },
      { sentRoute with approach := .value ⟨250, 1, 256⟩ }], DefRoute.wf d = false := by decide +kernel

/-- A DEFINE_TURNTABLE that fits: the turntable of 8.5. -/
def sentTurntable : DefTurntable :=
  ⟨0, 6400, 100, 400, 100, .value false, 8, .value true, .omitted, .omitted, .omitted, 47⟩

theorem smoke_turntable :
    DefTurntable.wf sentTurntable = true ∧
    ∀ d ∈ [{ sentTurntable with index := 256 }, { sentTurntable with r := 65536 }, { sentTurntable with vMin := 65536 },
      { sentTurntable with vMax := 65536 }, { sentTurntable with increment := 65536 },
      { sentTurntable with tolerance := 256 }, { sentTurntable with settle := .value 65535 },
      { sentTurntable with bolt := .value 65535 }, { sentTurntable with deadtime := .value 65535 },
      { sentTurntable with deckBlock := 256 }], DefTurntable.wf d = false := by decide +kernel

theorem smoke_road_trap_module :
    (DefRoad.wf ⟨3, 1200, 40⟩ = true ∧
      ∀ d ∈ ([⟨256, 0, 0⟩, ⟨0, 65536, 0⟩, ⟨0, 0, 256⟩] : List DefRoad), DefRoad.wf d = false) ∧
    (DefTrap.wf ⟨1, 300, .value 2, .omitted, 22, .value .e1⟩ = true ∧
      ∀ d ∈ ([⟨256, 300, .omitted, .omitted, 22, .value .e1⟩, ⟨1, 65536, .omitted, .omitted, 22, .value .e1⟩,
        ⟨1, 300, .value 255, .omitted, 22, .value .e1⟩, ⟨1, 300, .omitted, .value 65535, 22, .value .e1⟩,
        ⟨1, 300, .omitted, .omitted, 256, .value .e1⟩, ⟨1, 300, .omitted, .omitted, 22, .omitted⟩] : List DefTrap),
        DefTrap.wf d = false) ∧
    DefModule.wf ⟨0, 0x20, .value .lamp⟩ = true ∧
      ∀ d ∈ ([⟨256, 0x20, .value .lamp⟩, ⟨0, 256, .value .lamp⟩, ⟨0, 0x20, .omitted⟩] : List DefModule),
        DefModule.wf d = false := by decide +kernel

theorem smoke_key_led_cue :
    (DefKey.wf ⟨12, 5, 3, .value (.startShow 3)⟩ = true ∧
      ∀ d ∈ ([⟨256, 5, 3, .value .none⟩, ⟨12, 256, 3, .value .none⟩, ⟨12, 5, 256, .value .none⟩, ⟨12, 5, 3, .omitted⟩,
        ⟨12, 5, 3, .value (.startShow 256)⟩, ⟨12, 5, 3, .value (.visitorRoute 256)⟩] : List DefKey), DefKey.wf d = false) ∧
    (DefLed.wf ⟨1535, .value .road, 3⟩ = true ∧
      ∀ d ∈ ([⟨65536, .value .road, 3⟩, ⟨0, .omitted, 3⟩, ⟨0, .value .road, 256⟩] : List DefLed), DefLed.wf d = false) ∧
    DefCue.wf ⟨2, .value (.blockOccupied 47)⟩ = true ∧ DefCue.wf ⟨2, .omitted⟩ = true ∧
      ∀ d ∈ ([⟨256, .omitted⟩, ⟨2, .value (.blockOccupied 256)⟩, ⟨2, .value (.blockCleared 256)⟩,
        ⟨2, .value (.trapResult 256)⟩, ⟨2, .value (.routeEntered 256)⟩, ⟨2, .value (.routeFreed 256)⟩,
        ⟨2, .value (.key 256 0)⟩, ⟨2, .value (.key 0 256)⟩] : List DefCue), DefCue.wf d = false := by decide +kernel

theorem smoke_step :
    DefStep.wf ⟨3, 0, .value .finish⟩ = true ∧
    ∀ d ∈ ([⟨256, 0, .value .finish⟩, ⟨3, 256, .value .finish⟩, ⟨3, 0, .omitted⟩, ⟨3, 0, .value (.route 256)⟩,
      ⟨3, 0, .value (.turn 256 (.value .a))⟩, ⟨3, 0, .value (.turn 5 .omitted)⟩,
      ⟨3, 0, .value (.waitRoute 256 (.value .isFree) 1)⟩, ⟨3, 0, .value (.waitRoute 40 .omitted 1)⟩,
      ⟨3, 0, .value (.waitRoute 40 (.value .isFree) 65536)⟩, ⟨3, 0, .value (.waitTurntable 65536)⟩,
      ⟨3, 0, .value (.waitCue 256 1)⟩, ⟨3, 0, .value (.waitCue 2 65536)⟩, ⟨3, 0, .value (.pause 65536)⟩,
      ⟨3, 0, .value (.clearCue 256)⟩, ⟨3, 0, .value (.caption 256)⟩, ⟨3, 0, .value (.cancel 256)⟩] : List DefStep),
      DefStep.wf d = false := by decide +kernel

theorem smoke_requests :
    ∀ c ∈ ([.erase 0 1 (.fields ⟨.omitted, none⟩), .erase 0 1 (.fields ⟨.value .block, some 65535⟩),
      .setParam 0 1 (.fields ⟨.omitted, 0⟩), .setParam 0 1 (.fields ⟨.value .scaleDivisor, 65536⟩),
      .setCaption 0 1 (.fields ⟨256, []⟩), .setCaption 0 1 (.fields ⟨0, List.replicate 21 0x20⟩),
      .isolateFeed 0 1 (.fields ⟨256, .value true⟩), .isolateFeed 0 1 (.fields ⟨12, .omitted⟩),
      .restoreFeed 0 1 (.fields 256), .placeTrain 0 1 (.fields ⟨65536, 20, .value .e1⟩),
      .placeTrain 0 1 (.fields ⟨4471, 256, .value .e1⟩), .placeTrain 0 1 (.fields ⟨4471, 20, .omitted⟩),
      .removeTrain 0 1 (.fields 65536), .throwPoint 0 1 (.fields ⟨256, .value .normal⟩),
      .throwPoint 0 1 (.fields ⟨5, .omitted⟩), .requestRoute 0 1 (.fields 256), .cancelRoute 0 1 (.fields 256),
      .forceRelease 0 1 (.fields 256), .turn 0 1 (.fields ⟨256, .value .any⟩), .turn 0 1 (.fields ⟨3, .omitted⟩),
      .startShow 0 1 (.fields 256), .stopShow 0 1 (.fields 256), .setCue 0 1 (.fields 256), .clearCue 0 1 (.fields 256),
      .setText 0 1 (.fields (List.replicate 21 0x20)), .query 0 1 (.fields ⟨256, 0⟩), .query 0 1 (.fields ⟨0, 256⟩),
      .unknownKind 0 1 0x01, .unknownKind 0 1 0x30] : List Instr), Instr.wf c = false := by decide +kernel

theorem smoke_accepted :
    ∀ c ∈ ([.erase 0 1 (.fields ⟨.value .block, none⟩), .setParam 0 1 (.fields ⟨.value .displayTrap, 65535⟩),
      .setCaption 0 1 (.fields ⟨6, List.replicate 20 0x20⟩), .isolateFeed 0 1 (.fields ⟨12, .value true⟩),
      .restoreFeed 0 1 (.fields 255), .placeTrain 0 1 (.fields ⟨4471, 20, .value .e1⟩), .removeTrain 0 1 (.fields 65535),
      .throwPoint 0 1 (.fields ⟨5, .unlisted⟩), .requestRoute 0 1 .wrongLength, .cancelRoute 0 1 (.fields 12),
      .forceRelease 0 1 (.fields 12), .turn 0 1 (.fields ⟨3, .value .any⟩), .startShow 0 1 (.fields 3),
      .stopShow 0 1 (.fields 3), .setCue 0 1 (.fields 15), .clearCue 0 1 (.fields 15), .setText 0 1 (.fields []),
      .query 0 1 (.fields ⟨255, 255⟩), .unknownKind 0 1 0x16, .unknownKind 0 1 0x31, .unknownKind 0 1 0x00, .powerOn 0,
      .startRun 0 1 (.fields ()), .defineRoute 0 1 (.fields sentRoute), .levelSample 0 127 255 15] : List Instr),
      Instr.wf c = true := by decide +kernel

/-- No row of the operation table gives bits, so no word spells a command (log entry 23). -/
theorem test_no_word_spells_a_command : Sys2Proof.decodeTableWord 16 0x1234 = none ∧ State.reset.withFetchWord 16 0x1234 = State.reset :=
  ⟨rfl, rfl⟩
/-! ## States the tests start from -/

/-- With one channel replaced. -/
def withChannel (s : State) (b : Fin 48) (c : Channel) : State := { s with channels := tset s.channels b c }

/-- An OCCUPIED channel. -/
def occupied : Channel := ⟨true, 0, false, false, some 1500000⟩

/-- With one feed replaced. -/
def withFeed (s : State) (b : Fin 48) (f : Feed) : State := { s with feeds := tset s.feeds b f }

/-- With one route record replaced. -/
def withRoute (s : State) (r : Fin 64) (x : RouteRec) : State := { s with routes := tset s.routes r x }

/-- With one group record replaced. -/
def withGroup (s : State) (g : Fin 8) (x : GroupRec) : State := { s with groups := tset s.groups g x }

/-- With the deck replaced. -/
def withDeck (s : State) (d : Deck) : State := { s with deck := d }

/-- With one module record replaced. -/
def withModule (s : State) (m : Fin 24) (x : ModuleRec) : State := { s with modules := tset s.modules m x }

/-- With one show record replaced. -/
def withShow (s : State) (i : Fin 8) (x : ShowRec) : State := { s with shows := tset s.shows i x }

/-- With the bus doing something. -/
def withBus (s : State) (x : BusState) : State := { s with bus := { s.bus with state := x } }

/-- Train 4471 in slot 0 on these blocks, head first, each with END_1 in front. -/
def withTrain (s : State) (l : List (Fin 48)) : State :=
  { s with trains := tset s.trains 0 (.active 4471 (l.map fun b => ⟨b, .e1⟩) none false) }

/-- The worked move's deck: IDLE at 6000, aligned with road 7 end A, locked, last direction REVERSE (8.5). -/
def deckAt7 : Deck :=
  { Deck.initial with
    state := .idle, pos := some 6000, align := some ⟨7, .a⟩, locked := true, lastDir := some .reverse
    relay := .normal, boltIn := true }

/-- The worked move. -/
def move3 : MoveRec := ⟨.host, 3, .a, 1200, .forward, 1600, 0⟩

/-- An ONLINE module. -/
def online : ModuleRec := { ModuleRec.initial with state := .online }

/-- In RUN with points 20 and 21 lying NORMAL, as the worked route of 5.6 finds them, and the lamp modules ONLINE. -/
def ready : State :=
  { inRun with
    points := tset (tset inRun.points 20 ⟨some .normal, false, false, 0, 0⟩) 21 ⟨some .normal, false, false, 0, 0⟩
    modules := tset (tset (tset inRun.modules 0 online) 2 online) 3 online }

/-- Nothing released of route 12. -/
def marks12 : Marks := ⟨[false, false, false], false⟩

/-- Route 12 in a state that holds its elements, its points in their lies and locked. -/
def holding (x : RouteRec) : State :=
  { ready with
    routes := tset ready.routes 12 x
    reservers := tgen 48 fun b => if b ∈ [31, 32, 33, 34] then some 12 else none
    points := tset (tset ready.points 20 ⟨some .reverse, false, false, 0, 1⟩) 21 ⟨some .normal, false, false, 0, 1⟩
    signals := tset ready.signals 4 { SignalRec.initial with control := some 12 } }

/-- The layout without its signals, whose aspects the tests of routes leave aside. -/
def bare (s : State) : State := { s with tables := { layout with signals := tfill 32 none } }

/-- The layout with point 5's REVERSE leg left open, which the link of block 23 does not allow (chapter 1). -/
def misjoined : Tables :=
  { layout with points := tset layout.points 5 (some ⟨.blockEnd 21 .e1, .blockEnd 22 .e0, .noLink, 0, .none, .asFound⟩) }

/-! ## One command at a time -/

/-- R1. -/
theorem test_powerOn :
    (did (.powerOn 5) inRun).mode = .config ∧ (did (.powerOn 5) inRun).tables = Tables.empty ∧
    (did (.powerOn 5) inRun).link = ⟨.hunt, [], .free, [.layout], false⟩ := by decide +kernel

/-- R4: the defaults. -/
theorem test_defineBlock :
    tget (did (.defineBlock 0 1 (.fields sentBlock)) loaded).tables.blocks 12 =
      some ⟨.plain, .noLink, .blockEnd 13 .e0, 40, 8, 3, 12, .auto, 0⟩ := by decide +kernel

/-- R2: outside CONFIG. -/
theorem test_defineBlock_in_run :
    replied (did (.defineBlock 0 1 (.fields sentBlock)) inRun) = some (.refused .wrongMode) := by decide +kernel

/-- R5. -/
theorem test_definePoint :
    tget (did (.definePoint 0 1 (.fields sentPoint)) loaded).tables.points 5 =
      some ⟨.blockEnd 21 .e1, .noLink, .noLink, 0, .none, .asFound⟩ := by decide +kernel

/-- R77, R83: point 20, lying NORMAL, is PROVED without feedback and UNPROVED with it, its contact not having been read (log entry
33). -/
theorem test_definePoint_marks :
    let s : State := { loaded with points := tset loaded.points 20 { PointRec.initial with lie := some .normal } }
    let define (f : Feedback) : State := did (.definePoint 0 1 (.fields ⟨20, .noLink, .noLink, .noLink, 1, .value f, .omitted⟩)) s
    s.proof 20 = some .normal ∧ (define .hold).proof 20 = none ∧ (define .hold).link.reports = [.point 20] ∧
      (define .none).link.reports = [] := by decide +kernel

/-- R5: the default profile, and a pulse below 10 ms. -/
theorem test_defineGroup :
    tget (did (.defineGroup 0 1 (.fields ⟨7, .value 250, .omitted, .omitted, .omitted⟩)) loaded).tables.groups 7 =
      ⟨250, 100, 400, 1000⟩ ∧
    replied (did (.defineGroup 0 1 (.fields ⟨7, .omitted, .value 9, .omitted, .omitted⟩)) loaded) =
      some (.refused .badValue) := by decide +kernel

/-- R6: at most 4 aspects, and a first output that is a multiple of 4. -/
theorem test_defineSignal :
    tget (did (.defineSignal 0 1 (.fields ⟨31, 30, .value .e1, 4, 2, 12⟩)) loaded).tables.signals 31 = some ⟨30, .e1, 4, 2, 12⟩ ∧
    replied (did (.defineSignal 0 1 (.fields ⟨4, 30, .value .e1, 5, 2, 4⟩)) loaded) = some (.refused .badValue) ∧
    replied (did (.defineSignal 0 1 (.fields ⟨4, 30, .value .e1, 3, 2, 5⟩)) loaded) = some (.refused .badValue) := by
  decide +kernel

/-- R7: route 12, and a path of 9 blocks. -/
theorem test_defineRoute :
    tget (did (.defineRoute 0 1 (.fields sentRoute)) loaded).tables.routes 12 = some route12 ∧
    replied (did (.defineRoute 0 1 (.fields { sentRoute with path := [1, 2, 3, 4, 5, 6, 7, 8, 9] })) loaded) =
      some (.refused .badValue) := by decide +kernel

/-- R8: the turntable of 8.5, and an odd number of steps. -/
theorem test_defineTurntable :
    (did (.defineTurntable 0 1 (.fields sentTurntable)) loaded).tables.turntable = some turntable ∧
    replied (did (.defineTurntable 0 1 (.fields { sentTurntable with r := 6401 })) loaded) = some (.refused .badValue) := by
  decide +kernel

/-- R8. -/
theorem test_defineRoad :
    tget (did (.defineRoad 0 1 (.fields ⟨23, 64000, 40⟩)) loaded).tables.roads 23 = some ⟨64000, 40⟩ ∧
    replied (did (.defineRoad 0 1 (.fields ⟨24, 0, 40⟩)) loaded) = some (.refused .badValue) := by decide +kernel

/-- R9: the defaults, and a distance below 10 mm. -/
theorem test_defineTrap :
    tget (did (.defineTrap 0 1 (.fields ⟨3, 2000, .omitted, .omitted, 22, .value .e1⟩)) loaded).tables.traps 3 =
      some ⟨2000, 1, 50, 22, .e1⟩ ∧
    replied (did (.defineTrap 0 1 (.fields ⟨3, 9, .omitted, .omitted, 22, .value .e1⟩)) loaded) =
      some (.refused .badValue) := by decide +kernel

/-- R9: addresses 8 to 119. -/
theorem test_defineModule :
    tget (did (.defineModule 0 1 (.fields ⟨1, 119, .value .keys⟩)) loaded).tables.modules 1 = some ⟨119, .keys⟩ ∧
    replied (did (.defineModule 0 1 (.fields ⟨1, 120, .value .keys⟩)) loaded) = some (.refused .badValue) := by decide +kernel

/-- R10. -/
theorem test_defineKey :
    tget (did (.defineKey 0 1 (.fields ⟨63, 5, 15, .value (.visitorRoute 13)⟩)) loaded).tables.keys 63 =
      some ⟨5, 15, .visitorRoute 13⟩ ∧
    replied (did (.defineKey 0 1 (.fields ⟨63, 5, 16, .value .none⟩)) loaded) = some (.refused .badValue) := by decide +kernel

/-- R10: a slot takes the place of the one it had. -/
theorem test_defineLed :
    (did (.defineLed 0 1 (.fields ⟨450, .value .road, 3⟩)) loaded).tables.leds = [(450, .road 3), (451, .blockOcc 12)] ∧
    (did (.defineLed 0 1 (.fields ⟨451, .value .showing, 3⟩)) loaded).tables.leds = [(451, .showing 3)] := by decide +kernel

/-- R10. -/
theorem test_defineCue :
    tget (did (.defineCue 0 1 (.fields ⟨2, .value (.trapResult 3)⟩)) loaded).tables.cues 2 = .trapResult 3 ∧
    tget (did (.defineCue 0 1 (.fields ⟨2, .omitted⟩)) loaded).tables.cues 2 = .none := by decide +kernel

/-- R11: appending, and a position beyond the end. -/
theorem test_defineStep :
    tget (did (.defineStep 0 1 (.fields ⟨1, 2, .value .finish⟩)) loaded).tables.shows 1 = [.pause 5000, .finish, .finish] ∧
    replied (did (.defineStep 0 1 (.fields ⟨1, 3, .value .finish⟩)) loaded) = some (.refused .badValue) := by decide +kernel

/-- R3. -/
theorem test_erase :
    tget (did (.erase 0 1 (.fields ⟨.value .block, some 12⟩)) loaded).tables.blocks 12 = none ∧
    (did (.erase 0 1 (.fields ⟨.value .everything, none⟩)) loaded).tables = Tables.empty ∧
    replied (did (.erase 0 1 (.fields ⟨.value .block, some 48⟩)) loaded) = some (.refused .badValue) := by decide +kernel

/-- R83: a point that is erased loses its lie, which marks it; one that had none is not marked. -/
theorem test_erase_marks :
    let s : State := { loaded with points := tset loaded.points 20 ⟨some .reverse, false, false, 0, 0⟩ }
    (did (.erase 0 1 (.fields ⟨.value .point, none⟩)) s).link.reports = [.point 20] ∧
    (tget (did (.erase 0 1 (.fields ⟨.value .point, none⟩)) s).points 20).lie = none := by decide +kernel

/-- R13: a scale divisor of 300 is clamped to 220, and the ACK carries the value used. -/
theorem test_setParam :
    (did (.setParam 0 1 (.fields ⟨.value .scaleDivisor, 300⟩)) inRun).params.scaleDivisor = 220 ∧
    replied (did (.setParam 0 1 (.fields ⟨.value .scaleDivisor, 300⟩)) inRun) = some (.ack [0, 220]) := by decide +kernel

/-- R12: two characters and eighteen spaces. -/
theorem test_setCaption :
    (tget (did (.setCaption 0 1 (.fields ⟨6, [0x41, 0x7E]⟩)) inRun).captions 6).toList =
      0x41 :: 0x7E :: List.replicate 18 0x20 ∧
    replied (did (.setCaption 0 1 (.fields ⟨6, [0x7F]⟩)) inRun) = some (.refused .badValue) := by decide +kernel

/-- R15, and the refused start of chapter 1: a link that the other side does not return. -/
theorem test_startRun :
    (did (.startRun 0 1 (.fields ())) loaded).mode = .run ∧
    replied (did (.startRun 0 1 (.fields ())) { loaded with tables := misjoined }) = some (.invalid .block 23) := by decide +kernel

/-- R23. -/
theorem test_stopRun :
    (did (.stopRun 0 1 (.fields ())) (withTrain inRun [20])).mode = .config ∧
    tget (did (.stopRun 0 1 (.fields ())) (withTrain inRun [20])).trains 0 = .free := by decide +kernel

/-- R21, R36, R171. -/
theorem test_haltLayout :
    let t := did (.haltLayout 0 1 (.fields ())) (withFeed inRun 12 { Feed.initial with state := .on })
    t.mode = .halt .host ∧ (tget t.feeds 12).state = .off ∧ t.bus.calls = [(.dangerAll, 0)] ∧
      (tget t.groups 7).paused = true := by decide +kernel

/-- R22, R44: block 12 is in restart group 2, so its feed comes on 200 ms after the resume (2.4). -/
theorem test_resume :
    let t := did (.resume 0 1 (.fields ())) inHalt
    t.mode = .run ∧ tget t.feeds 12 = { Feed.initial with restart := some 1200000 } ∧
      (tget t.feeds 20).state = .on := by decide +kernel

/-- R210: the ACK is queued and nothing more is heard. -/
theorem test_reset :
    replied (did (.reset 0 1 (.fields ())) inRun) = some (.ack []) ∧ (did (.reset 0 1 (.fields ())) inRun).mode = .run ∧
    (did (.requestRoute 0 2 (.fields 12)) (did (.reset 0 1 (.fields ())) inRun)).queue = [] := by decide +kernel

/-- R24. -/
theorem test_resetTakesEffect :
    let s : State := { inRun with link := { inRun.link with resetting := true } }
    (did (.resetTakesEffect 0) s).tables = Tables.empty ∧ (did (.resetTakesEffect 0) s).mode = .config ∧
      (did (.resetTakesEffect 0) inRun).mode = .run := by decide +kernel

/-- R41. -/
theorem test_isolateFeed :
    let s := withFeed inRun 12 { Feed.initial with state := .on }
    tget (did (.isolateFeed 0 1 (.fields ⟨12, .value true⟩)) s).feeds 12 = { Feed.initial with isolated := true } ∧
    replied (did (.isolateFeed 0 1 (.fields ⟨13, .value true⟩)) s) = some (.refused .notDefined) := by decide +kernel

/-- R42: RESTORE_FEED of a LATCHED feed, as in the worked example of 2.4. -/
theorem test_restoreFeed :
    let s := withChannel (withFeed inRun 12 { Feed.initial with state := .latched, log := [0, 5000, 9000] }) 12
      { occupied with held := true }
    tget (did (.restoreFeed 0 1 (.fields 12)) s).feeds 12 = { Feed.initial with state := .on } ∧
    (tget (did (.restoreFeed 0 1 (.fields 12)) s).channels 12).held = false := by decide +kernel

/-- R61: train 4471 in block 20 takes slot 0 (3.8). -/
theorem test_placeTrain :
    let t := did (.placeTrain 0 1 (.fields ⟨4471, 20, .value .e1⟩)) (withChannel inRun 20 occupied)
    tget t.trains 0 = .active 4471 [⟨20, .e1⟩] none false ∧ replied t = some (.ack [0]) := by decide +kernel

/-- R62: the block it stood on is stray with reason REMOVED while its channel reads OCCUPIED. -/
theorem test_removeTrain :
    let t := did (.removeTrain 0 1 (.fields 4471)) (withTrain (withChannel inRun 20 occupied) [20])
    tget t.trains 0 = .free ∧ (tget t.blockFlags 20).stray = some .removed := by decide +kernel

/-- R69, R79: an idle group goes into SETUP for its setup time of 20 ms. -/
theorem test_throwPoint :
    let t := did (.throwPoint 0 1 (.fields ⟨20, .value .reverse⟩)) ready
    replied t = some .accepted ∧ (tget t.groups 1).phase = .setup ∧ (tget t.groups 1).phaseTimer = some 1020000 ∧
      t.movingTarget 20 = some .reverse := by decide +kernel

/-- R91, 5.6: route 12 is taken at once to SETTING; 31 to 34 are reserved, and the points locked. -/
theorem test_requestRoute :
    let t := did (.requestRoute 0 7 (.fields 12)) (bare ready)
    tget t.routes 12 = .setting false marks12 ∧ (indices 48).filter (fun b => (tget t.reservers b).isSome) = [31, 32, 33, 34] ∧
      (tget t.points 20).locks = 1 ∧ (tget t.points 21).locks = 1 ∧ (tget t.signals 4).control = some 12 := by
  decide +kernel

/-- The report list of 11.6: BLOCK 31, whose report is on the line, joins again behind ROUTE 12. -/
theorem test_requestRoute_marks :
    let s : State := { bare ready with link := { ready.link with reports := [.point 20], tx := .report [] } }
    (did (.requestRoute 0 7 (.fields 12)) s).link.reports =
      [.point 20, .route 12, .block 31, .block 32, .block 33, .block 34, .point 21, .signal 4] := by decide +kernel

/-- R101: a SETTING route is freed; an ENTERED one is LOCKED. -/
theorem test_cancelRoute :
    tget (did (.cancelRoute 0 1 (.fields 12)) (bare (holding (.setting false marks12)))).routes 12 = .free .cancelled ∧
    replied (did (.cancelRoute 0 1 (.fields 12)) (holding (.entered false .stopped marks12))) = some (.refused .locked) := by
  decide +kernel

/-- The line of 6.8 in its standing state: routes 12, 15 and 18 SET, signals 10, 7 and 4 at CAUTION, PRELIM and CLEAR, and the
images of the three lamp modules sent. -/
def line : State :=
  State.settlePanel { ready with
    tables := { layout with routes := tset layout.routes 12 (some { route12 with overlap := [] }) }
    routes := tset (tset (tset ready.routes 12 (.isSet true false ⟨[false, false, false], true⟩)) 15
      (.isSet true false ⟨[false, false], true⟩)) 18 (.isSet true false ⟨[false], true⟩)
    signals := tset (tset (tset ready.signals 4 { SignalRec.initial with aspect := .clear, control := some 12, cleared := true })
      7 { SignalRec.initial with aspect := .prelim, control := some 15, cleared := true })
      10 { SignalRec.initial with aspect := .caution, control := some 18, cleared := true } }

/-- 6.8 at step 1: block 37 of route 18 becomes stray, the chain falls from the front, and R177 lists module 3 before module 2. -/
theorem test_chain_falls_from_the_front :
    let t := State.settleSignals { line with blockFlags := tset line.blockFlags 37 ⟨some .noTrain, false⟩ }
    (tget t.signals 10).aspect = .danger ∧ (tget t.signals 7).aspect = .caution ∧ (tget t.signals 4).aspect = .clear ∧
      line.bus.safety = [] ∧ t.bus.safety = [3, 2] := by decide +kernel

/-- R103. -/
theorem test_forceRelease :
    let s := bare (holding (.entered false .stopped marks12))
    tget (did (.forceRelease 0 1 (.fields 12)) s).routes 12 = .free .forced ∧
    replied (did (.forceRelease 0 1 (.fields 12)) (withChannel s 33 occupied)) = some (.refused .occupied) := by decide +kernel

/-- The worked move of 8.5: end A, FORWARD, 1600 steps, the bolt time 1500 ms. -/
theorem test_turn :
    let t := did (.turn 0 1 (.fields ⟨3, .value .any⟩)) (withDeck inRun deckAt7)
    replied t = some .accepted ∧ t.deck.state = .unlocking move3 2500000 ∧ t.deck.bolt = .driveOut ∧
      t.deck.align = none ∧ t.deck.locked = false := by decide +kernel

/-- R144: the deck there already. -/
theorem test_turn_there :
    replied (did (.turn 0 1 (.fields ⟨7, .value .any⟩)) (withDeck inRun deckAt7)) = some (.ack []) := by decide +kernel

/-- R157, R158. -/
theorem test_home :
    let t := did (.home 0 1 (.fields ())) inRun
    replied t = some .accepted ∧ t.deck.state = .homing false 0 (.bolt 2500000) ∧ t.deck.bolt = .driveOut := by decide +kernel

/-- The worked kills of 8.8 at 763 and 2000: rate 200 keeps the count, rate 400 loses it. -/
theorem test_stopTurntable :
    let at' (rate : Nat) (x : Nat) := did (.stopTurntable 0 1 (.fields ()))
      (withDeck inRun { deckAt7 with state := .moving move3 (.ramp rate 5000 1500000), pos := some x, align := none, locked := false })
    (at' 200 6001).deck.state = .stopped ∧ (at' 200 6001).deck.pos = some 6001 ∧
      (at' 400 8).deck.state = .unhomed ∧ (at' 400 8).deck.pos = none := by decide +kernel

/-- R189, R191: the CLEAR_CUE step is passed, and the PAUSE begins. -/
theorem test_startShow :
    let t := did (.startShow 0 1 (.fields 3)) inRun
    (tget t.shows 3).state = .running ⟨.host, 1, .pause, some 2000000, [], false⟩ ∧ replied t = some .accepted := by
  decide +kernel

/-- R190, R193. -/
theorem test_stopShow :
    tget (did (.stopShow 0 1 (.fields 1))
      (withShow inRun 1 ⟨.running ⟨.host, 0, .pause, some 6000000, [], false⟩, none, 4⟩)).shows 1 =
      ⟨.aborted, some (.aborted 0 .stopped), 5⟩ := by decide +kernel

/-- R196. -/
theorem test_setCue_clearCue :
    tget (did (.setCue 0 1 (.fields 15)) inRun).cues 15 = true ∧
    tget (did (.clearCue 0 1 (.fields 15)) { inRun with cues := tfill 16 true }).cues 15 = false ∧
    replied (did (.setCue 0 1 (.fields 16)) inRun) = some (.refused .badValue) := by decide +kernel

/-- R185. -/
theorem test_setText :
    (did (.setText 0 1 (.fields [0x48, 0x49])) inRun).text.line1.toList = 0x48 :: 0x49 :: List.replicate 18 0x20 ∧
    replied (did (.setText 0 1 (.fields (List.replicate 21 0x20))) inRun) = some (.refused .badLength) := by decide +kernel

/-- R209: ROUTE 12 leaves the report list (11.6); a subject code above 10 is refused. -/
theorem test_query :
    (did (.query 0 8 (.fields ⟨4, 12⟩))
      { inRun with link := { inRun.link with reports := [.point 20, .route 12, .block 31] } }).link.reports =
        [.point 20, .block 31] ∧
    replied (did (.query 0 8 (.fields ⟨11, 0⟩)) inRun) = some (.refused .badValue) := by decide +kernel

/-- R204. -/
theorem test_unknownKind : replied (did (.unknownKind 0 9 0x16) inRun) = some (.refused .unknownKind) := by decide +kernel

/-- R202: the frame in progress is given up; FRAME_GAP_TIMEOUT comes 20 ms after the last byte. -/
theorem test_failed_frames :
    let s : State := { inRun with link := { inRun.link with rx := .body 2 [0x25] 0x27 1000000 } }
    (did (.badCheckFrame 0) s).link.rx = .hunt ∧ (did (.framingError 0) s).link.rx = .hunt ∧
      (did (.frameGapTimeout 0) s).link.rx = .hunt ∧ (did (.frameGapTimeout 0) s).clock.us = 1020000 ∧
      (did (.badCheckFrame 0) s).link.fifo = [] := by decide +kernel

/-- 11.6 at 3.1: ACCEPTED 7 ends and ACK 8 begins. -/
theorem test_frameSent :
    (did (.frameSent 0) { inRun with link := { inRun.link with fifo := [⟨7, .accepted⟩, ⟨8, .ack []⟩], tx := .reply } }).link =
      ⟨.hunt, [⟨8, .ack []⟩], .reply, [], false⟩ := by decide +kernel

/-- 11.6 at 0.0: the report of BLOCK 31 begins, and BLOCK 31 leaves the list. -/
theorem test_sendReport :
    (did (.sendReport 0) { inRun with link := { inRun.link with reports := [.block 31, .point 20] } }).link.reports =
      [.point 20] := by decide +kernel

/-- 2.2, samples 6 and 10: the third level at or above 40 makes the channel OCCUPIED, and 36 holds it. -/
theorem test_levelSample :
    tget (did (level 0 12 88) (withChannel inRun 12 ⟨false, 2, false, false, some 1500000⟩)).channels 12 = occupied ∧
    tget (did (level 0 12 36) (withChannel inRun 12 { occupied with count := 2 })).channels 12 = occupied ∧
    tget (did (level 0 12 25) (withChannel inRun 12 occupied)).channels 12 = { occupied with count := 1 } := by decide +kernel

/-- 2.4 at 9000: the third trip within 10 s latches; at 12 000 the first is outside the window. -/
theorem test_levelSample_overload :
    let s (ms : Nat) : State := { withChannel (withFeed inRun 12 { Feed.initial with state := .on, log := [0, 5000] }) 12 occupied with
      clock := ⟨1000 * ms, 0⟩ }
    (tget (did (level 0 12 255) (s 9000)).feeds 12).state = .latched ∧
      (tget (did (level 0 12 255) (s 9000)).feeds 12).log = [0, 5000, 9000] ∧
      (tget (did (level 0 12 255) (s 12000)).feeds 12).state = .cooling ∧
      (tget (did (level 0 12 255) (s 12000)).feeds 12).cool = some 14000000 := by decide +kernel

/-- R25, R34. -/
theorem test_contactReading :
    tget (did (contact 0 10 1) inRun).contacts 10 = ⟨.normal, false, some 1500000⟩ ∧
    tget (did (contact 0 10 3) inRun).contacts 10 = ⟨.neither, false, some 1500000⟩ ∧
    tget (did (.contactReading 0 10 1 (recordCheck true 10 1 + 1)) inRun).contacts 10 = Contact.initial := by decide +kernel

/-- R32, R34. -/
theorem test_stale :
    tget (did (.channelStale 0 12) (withChannel inRun 12 occupied)).channels 12 = ⟨true, 0, false, true, none⟩ ∧
    (did (.channelStale 0 12) (withChannel inRun 12 occupied)).clock.us = 1500000 ∧
    (tget (did (.contactStale 0 10) { inRun with contacts := tset inRun.contacts 10 ⟨.normal, false, some 1500000⟩ }).contacts 10).stale =
      true := by decide +kernel

/-- R40: 2.4 at 2000, the feed goes ON again and its trip log stays. -/
theorem test_feedCoolExpiry :
    let t := did (.feedCoolExpiry 0 12) (withFeed inRun 12 { Feed.initial with state := .cooling, log := [0], cool := some 2000000 })
    tget t.feeds 12 = { Feed.initial with state := .on, log := [0] } ∧ t.clock.us = 2000000 := by decide +kernel

/-- R43. -/
theorem test_restartDue :
    tget (did (.restartDue 0 12) (withFeed inRun 12 { Feed.initial with restart := some 1200000 })).feeds 12 =
      { Feed.initial with state := .on } := by decide +kernel

/-- Group 2 moving a point to REVERSE (4.9). -/
def moving (p : Fin 64) (phase : GroupPhase) (pt wt : Timer) : State :=
  { withGroup inRun 2 ⟨phase, some ⟨p, .reverse, 1000000, none⟩, none, [], false, pt, wt⟩ with
    points := tset inRun.points p ⟨some .normal, false, false, 0, 0⟩ }

/-- R71. -/
theorem test_setupEnd :
    let t := did (.setupEnd 0 2) (moving 9 .setup (some 1020000) none)
    (tget t.groups 2).phase = .pulse ∧ (tget t.groups 2).phaseTimer = some 1120000 ∧ (tget t.points 9).lie = none := by
  decide +kernel

/-- R70, R71: without feedback the move is decided SET. -/
theorem test_pulseTimeEnd :
    let t := did (.pulseTimeEnd 0 2) (moving 9 .pulse (some 1120000) none)
    (tget t.groups 2).phase = .recovery ∧ (tget t.groups 2).phaseTimer = some 1520000 ∧
      (tget t.points 9).lie = some .reverse := by decide +kernel

/-- R72: a HOLD point whose contact never read the target fails when its window ends. -/
theorem test_feedbackWindowEnd :
    let t := did (.feedbackWindowEnd 0 2) (moving 10 .pulse none (some 2020000))
    (tget t.points 10).failed = true ∧ (tget t.points 10).lie = none ∧ (tget t.groups 2).phase = .recovery := by
  decide +kernel

/-- R73. -/
theorem test_confirmWaitEnd :
    let t := did (.confirmWaitEnd 0 2) (moving 11 .recovery (some 2520000) (some 2120000))
    (tget t.points 11).failed = true ∧ (tget t.groups 2).phase = .recovery ∧ (tget t.groups 2).outcome = some .failed := by
  decide +kernel

/-- R74: the group goes on to the next move of its queue. -/
theorem test_recoveryEnd :
    let s := moving 9 .recovery (some 1520000) none
    let t := did (.recoveryEnd 0 2)
      (withGroup s 2 { tget s.groups 2 with outcome := some .isSet, queue := [(10, .reverse)] })
    (tget t.groups 2).phase = .setup ∧ t.movingTarget 10 = some .reverse ∧ (tget t.groups 2).queue = [] := by decide +kernel

/-- R87: a stack timeout of 120 s. -/
theorem test_stackTimeoutExpiry :
    let t := did (.stackTimeoutExpiry 0 12) { withRoute inRun 12 (.queued .host 1000) with queue := [12] }
    tget t.routes 12 = .free .expired ∧ t.queue = [] ∧ t.clock.us = 121000000 := by decide +kernel

/-- R99: the overlap of route 12 is given back. -/
theorem test_overlapTimerExpiry :
    let t := did (.overlapTimerExpiry 0 12) (bare (holding (.entered false (.running 16000000) ⟨[true, true, false], false⟩)))
    tget t.routes 12 = .entered false .expired ⟨[true, true, false], true⟩ ∧ tget t.reservers 34 = none := by decide +kernel

/-- R102. -/
theorem test_approachLockExpiry :
    let t := did (.approachLockExpiry 0 12) (bare (holding (.cancelling 31000000 marks12)))
    tget t.routes 12 = .free .cancelled ∧ (tget t.points 20).locks = 0 ∧ tget t.reservers 31 = none := by decide +kernel

/-- R118. -/
theorem test_approachTimerExpiry :
    (tget (did (.approachTimerExpiry 0 4) { inRun with
      signals := tset inRun.signals 4 { SignalRec.initial with release := some false, timer := some 21000000 } }).signals 4).release =
      some true := by decide +kernel

/-- 7.6 at 3 280 400, 400 µs after the command before: a time of 2 280 000 µs over 300 mm gives 412, toward END_1. -/
theorem test_gateEdge :
    let s : State := { inRun with
      clock := ⟨3280000, 3280000⟩
      filters := tset inRun.filters 3 (.counting 1 3330000)
      traps := tset inRun.traps 1 ⟨.timing .ab 1000400 false 11000400, none, 0, 0, none⟩ }
    tget (did (.gateEdge 400 3 true) s).traps 1 = ⟨.holdoff, some ⟨412, .e1, 2280000, false, 1⟩, 1, 0, some .result⟩ ∧
    tget (did (.gateEdge 400 3 true) s).filters 3 = .spent 3330400 := by decide +kernel

/-- The worked cases of 7.4. -/
theorem test_scaleSpeed :
    scaleSpeed 300 148 1500000 = 1066 ∧ scaleSpeed 100 87 480000 = 653 ∧ scaleSpeed 2000 220 50000 = 9999 ∧
    scaleSpeed 10 1 10000000 = 0 := by decide +kernel

/-- 7.6 at 250 000 and at 4 230 000. -/
theorem test_quietTimerExpiry :
    tget (did (.quietTimerExpiry 0 2) { inRun with filters := tset inRun.filters 2 (.counting 1 1050000) }).filters 2 = .quiet ∧
    (tget (did (.quietTimerExpiry 0 3) { inRun with
      filters := tset inRun.filters 3 (.spent 4230000)
      traps := tset inRun.traps 1 { TrapRec.initial with state := .holdoff } }).traps 1).state = .idle := by decide +kernel

/-- R133. -/
theorem test_trapTimeout :
    tget (did (.trapTimeout 0 1) { inRun with
      traps := tset inRun.traps 1 ⟨.timing .ab 1000400 false 11000400, none, 0, 0, none⟩ }).traps 1 =
      ⟨.idle, none, 0, 1, some .timeout⟩ := by decide +kernel

/-- 8.5 at 650: the deadtime, since the deck last went REVERSE. -/
theorem test_boltOutContact :
    (did (.boltOutContact 0 true) (withDeck inRun { deckAt7 with
      state := .unlocking move3 2500000, align := none, locked := false, bolt := .driveOut })).deck.state =
      .moving move3 (.deadtime 1100000) := by decide +kernel

/-- 8.5 at 5871.666: IDLE, aligned with road 3 end A, locked, the cue set, the deck's feed ON. -/
theorem test_boltInContact :
    let t := did (.boltInContact 0 true) (withDeck inRun { deckAt7 with
      state := .locking move3 2500000, pos := some 1200, align := none, locked := false, bolt := .driveIn, boltIn := false })
    t.deck.state = .idle ∧ t.deck.align = some ⟨3, .a⟩ ∧ t.deck.locked = true ∧ t.deck.bolt = .off ∧
      t.deck.lastOutcome = some (.aligned, .host) ∧ tget t.cues 3 = true ∧ (tget t.feeds 47).state = .on := by decide +kernel

/-- R150. -/
theorem test_boltTimerExpiry :
    let t := did (.boltTimerExpiry 0) (withDeck inRun { deckAt7 with
      state := .unlocking move3 2500000, align := none, locked := false, bolt := .driveOut })
    t.deck.state = .faulted .boltOutTimeout ∧ t.deck.pos = none ∧ t.deck.bolt = .off := by decide +kernel

/-- R165, R208: 70 000 steps are sent as 00 01 11 70, after 3, A, 1200, FORWARD and 1600. -/
theorem test_steps_taken_in_four_bytes :
    (withDeck inRun { deckAt7 with state := .moving { move3 with steps := 70000 } (.ramp 1 1 1) }).moveBytes.take 12 =
      [0, 3, 0, 0x04, 0xB0, 0, 0x06, 0x40, 0x00, 0x01, 0x11, 0x70] := by decide +kernel

/-- R203: the second and third byte of a link NONE are disregarded (log entry 34). -/
theorem test_link_none : getLink [0, 0xFF, 7, 9] = some (.noLink, [9]) := by decide +kernel

/-- R158, R165: a homing's deadtime ends, and nothing that R165 lists changes (log entry 26). -/
theorem test_homing_deadtime_marks_nothing :
    let t := did (.deadtimeExpiry 0) (withDeck inRun { Deck.initial with state := .homing false 0 (.deadtime 1100000) })
    t.deck.state = .homing false 0 (.search 1110000) ∧ t.link.reports = [] := by decide +kernel

/-- 8.5 at 750: step 0 at 100 steps/s. -/
theorem test_deadtimeExpiry :
    let t := did (.deadtimeExpiry 0) (withDeck inRun { deckAt7 with state := .moving move3 (.deadtime 1100000) })
    t.deck.state = .moving move3 (.ramp 100 10000 1110000) ∧ t.deck.stepDir = .forward := by decide +kernel

/-- The worked ramp of 8.4: step 2 of seven, with rem 5, runs at 300 in 3333 µs; and the last step ends the stepping. -/
theorem test_stepComplete :
    let m : MoveRec := ⟨.host, 3, .a, 1200, .forward, 7, 1⟩
    let t := did (.stepComplete 0) (withDeck inRun { deckAt7 with state := .moving m (.ramp 200 5000 1005000), pos := some 1194 })
    t.deck.state = .moving { m with steps := 2 } (.ramp 300 3333 1008333) ∧ t.deck.pos = some 1195 ∧
    (did (.stepComplete 0) (withDeck inRun { deckAt7 with
      state := .moving { m with steps := 6 } (.ramp 100 10000 1010000), pos := some 1199 })).deck.state =
      .settling { m with steps := 7 } (.settle 1310000) := by decide +kernel

/-- The overshoot of 8.6: move to road 11 at 6398. -/
def move11 : MoveRec := ⟨.host, 11, .a, 6398, .forward, 18, 15⟩

/-- 8.6: the deadtime ends and the creep begins. -/
theorem test_reversalEnd :
    let t := did (.reversalEnd 0) (withDeck inRun { deckAt7 with state := .moving move11 (.reversal 2 1100000), pos := some 0 })
    t.deck.state = .moving move11 (.creep 2 1110000) ∧ t.deck.stepDir = .reverse := by decide +kernel

/-- 8.6: creep step 1 and creep step 2. -/
theorem test_creepStepComplete :
    let at' (n x : Nat) := did (.creepStepComplete 0)
      (withDeck inRun { deckAt7 with state := .moving move11 (.creep n 1010000), pos := some x })
    (at' 2 0).deck.pos = some 6399 ∧ (at' 2 0).deck.state = .moving move11 (.creep 1 1020000) ∧
      (at' 1 6399).deck.pos = some 6398 ∧ (at' 1 6399).deck.state = .settling move11 (.settle 1310000) := by decide +kernel

/-- R158: step 7999 of a search over at most 1.25 × 6400 = 8000 steps goes on; the 8000th ends it. -/
theorem test_homingStepComplete :
    let at' (n : Nat) := did (.homingStepComplete 0) (withDeck inRun { deckAt7 with state := .homing false n (.search 1010000), pos := none })
    (at' 7998).deck.state = .homing false 7999 (.search 1020000) ∧ (at' 7999).deck.state = .faulted .indexNotFound := by
  decide +kernel

/-- R158: of 1602 steps a quarter is 400.5, so that step 2002 is within the search and step 2003 ends it. -/
theorem test_homingStepComplete_odd_quarter :
    let s : State := { inRun with tables := { layout with turntable := some { turntable with r := 1602 } } }
    let at' (n : Nat) := did (.homingStepComplete 0) (withDeck s { deckAt7 with state := .homing false n (.search 1010000), pos := none })
    (at' 2001).deck.state = .homing false 2002 (.search 1020000) ∧ (at' 2002).deck.state = .faulted .indexNotFound := by
  decide +kernel

/-- 8.6: an edge at 6395 corrects by -5 and overshoots by 2; an edge at 6386 is an INDEX_ERROR. -/
theorem test_indexEdge :
    let at' (x : Nat) := did (.indexEdge 0) (withDeck inRun { deckAt7 with state := .moving move11 (.ramp 300 3333 1003333), pos := some x })
    (at' 6395).deck.state = .moving move11 (.reversal 2 1100000) ∧ (at' 6395).deck.pos = some 0 ∧
      (at' 6395).deck.lastCorrection = some (-5) ∧ (at' 6395).deck.corrections = 1 ∧
      (at' 6386).deck.state = .faulted .indexError := by decide +kernel

/-- 8.5 at 5071.666. -/
theorem test_settleTimeExpiry :
    (did (.settleTimeExpiry 0) (withDeck inRun { deckAt7 with state := .settling move3 (.settle 1300000), relay := .bothOpen })).deck.state =
      .settling move3 (.relay 1400000) := by decide +kernel

/-- 8.5 at 5171.666: LOCKING, the NORMAL relay closed, the bolt driving in. -/
theorem test_relayDeadtimeExpiry :
    let t := did (.relayDeadtimeExpiry 0) (withDeck inRun { deckAt7 with
      state := .settling move3 (.relay 1100000), relay := .bothOpen, boltIn := false })
    t.deck.state = .locking move3 2600000 ∧ t.deck.relay = .normal ∧ t.deck.bolt = .driveIn := by decide +kernel

/-- R170, R177: a general call goes before a key poll, and a bus held low is recovered first. -/
theorem test_startTransaction :
    let s : State := { withModule inRun 5 { online with pollDue := true } with
      bus := { Bus.initial with calls := [(.dangerAll, 0)], keys := [5] } }
    (did (.startTransaction 0 true) s).bus.state = .busy (.call .dangerAll) ∧
      (did (.startTransaction 0 false) s).bus.state = .recovery true ∧
      (did (.startTransaction 0 true) { s with bus := { s.bus with calls := [] } }).bus.state = .busy (.poll 5) := by
  decide +kernel

/-- R168, R169, R171, R172: the bytes of a general call, of the write of a KEYS module's flash-image and of a poll. -/
theorem test_bytes_on_the_bus :
    (withBus inRun (.busy (.call .dangerAll))).onTheBus = [[0, 0x44]] ∧
    (withBus inRun (.busy (.write 5 1 [0x80, 0x01]))).onTheBus = [[0x4A, 2, 0x80, 0x01]] ∧
    (withBus inRun (.busy (.poll 5))).onTheBus = [[0x4A, 16], [0x4B]] := by decide +kernel

/-- R168, R171, R172, R179: LED part 11 of a MIMIC module, line 2 of a TEXT module, and the probes of a TEXT and a LAMP module. -/
theorem test_bytes_by_module_type :
    (withBus inRun (.busy (.write 7 11 [0x80]))).onTheBus = [[0x4E, 88, 0x80]] ∧
    (withBus inRun (.busy (.write 6 1 [0x41]))).onTheBus = [[0x4C, 16, 0x41]] ∧
    (withBus inRun (.busy (.probe 6 [0x41]))).onTheBus = [[0x4C, 0, 0x41]] ∧
    (withBus inRun (.busy (.probe 2 []))).onTheBus = [[0x44, 16], [0x45]] := by decide +kernel

/-- R170: the transaction fails with STRETCH, and bus recovery follows. -/
theorem test_clockStretchTimeout :
    let t := did (.clockStretchTimeout 0) (withBus (withModule inRun 5 online) (.busy (.poll 5)))
    t.bus.state = .recovery false ∧ (tget t.modules 5).consecutive = 1 ∧ (tget t.modules 5).cause = some .stretch := by
  decide +kernel

/-- R170. -/
theorem test_busRecoveryEnd : (did (.busRecoveryEnd 0) (withBus inRun (.recovery true))).bus.state = .free := by decide +kernel

/-- R171: three attempts in all. -/
theorem test_generalCallEnd :
    let s (n : Nat) : State := { inRun with bus := { Bus.initial with state := .busy (.call .dangerAll), calls := [(.dangerAll, n)] } }
    (did (.generalCallEnd 0 .success) (s 0)).bus.calls = [] ∧
      (did (.generalCallEnd 0 (.failed .stuck)) (s 1)).bus.calls = [(.dangerAll, 2)] ∧
      (did (.generalCallEnd 0 (.failed .stuck)) (s 2)).bus.calls = [] := by decide +kernel

/-- 9.10 at 1: the third failure in a row takes module 2 OFFLINE, its probe due a second later. -/
theorem test_partWriteEnd :
    let t := did (.partWriteEnd 0 (.failed .noAck))
      (withBus (withModule inRun 2 { online with consecutive := 2, total := 2 }) (.busy (.write 2 0 [0, 0])))
    (tget t.modules 2).state = .offline ∧ (tget t.modules 2).total = 3 ∧ (tget t.modules 2).probeTimer = some 2000000 := by
  decide +kernel

/-- 9.10 at 2001: the probe succeeds, and the prove timer runs for 250 ms. -/
theorem test_probeEnd :
    let t := did (.probeEnd 0 .success)
      (withBus (withModule inRun 2 { ModuleRec.initial with state := .offline, consecutive := 3, total := 4, probeDue := true }) (.busy (.probe 2 [0])))
    (tget t.modules 2).state = .online ∧ (tget t.modules 2).consecutive = 0 ∧ (tget t.modules 2).total = 4 ∧
      (tget t.modules 2).proveTimer = some 1250000 := by decide +kernel

/-- 9.10 at 0, R180: outputs 5 and 6 were sent and all read dark, which leaves the output image pending. -/
theorem test_readBackEnd :
    let t := did (.readBackEnd 0 (.success 0))
      (withBus (withModule inRun 2 { online with lastSent := some 0x0060, readBackDue := true, parts := [⟨[0, 0x60], false⟩] })
        (.busy (.readBack 2)))
    (tget t.modules 2).consecutive = 1 ∧ (tget t.modules 2).cause = some .mismatch ∧ (tget t.modules 2).state = .online ∧
      (tget t.modules 2).parts.map (·.pending) = [true] ∧ t.bus.safety = [2] := by decide +kernel

/-- R182, R195: the second poll in a row that reads key 4 down is its press, an EMERGENCY. -/
theorem test_keyPollEnd :
    let s (n : Nat) := withBus (withModule inRun 5 { online with keys := tset online.keys 4 ⟨false, n⟩, pollDue := true }) (.busy (.poll 5))
    (did (.keyPollEnd 0 (.success 0x0010)) (s 1)).mode = .halt .key ∧
      (tget (did (.keyPollEnd 0 (.success 0x0010)) (s 1)).keys 13).presses = 1 ∧
      (did (.keyPollEnd 0 (.success 0x0010)) (s 0)).mode = .run := by decide +kernel

/-- R176. -/
theorem test_panel_timers :
    (tget (did (.proveTimerExpiry 0 2) (withModule inRun 2 { online with proveTimer := some 1250000 })).modules 2).readBackDue = true ∧
    (did (.pollTimerExpiry 0 5) (withModule inRun 5 { online with pollTimer := some 1040000 })).bus.keys = [5] ∧
    (did (.probeTimerExpiry 0 2) (withModule inRun 2 { ModuleRec.initial with state := .offline, probeTimer := some 2000000 })).bus.prove =
      [2] := by decide +kernel

/-- R186: 30 s after the result line 2 is blank. -/
theorem test_speedHoldExpiry :
    (did (.speedHoldExpiry 0) { inRun with text := ⟨blankText, speedLine 412, some 31000000⟩ }).text = ⟨blankText, blankText, none⟩ ∧
    (speedLine 412).toList = "SPEED  41.2 KM/H    ".toList.map fun c => BitVec.ofNat 8 c.toNat := by decide +kernel

/-- R191, R194: the PAUSE ends and FINISH completes the run. -/
theorem test_waitTimerExpiry :
    tget (did (.waitTimerExpiry 0 1)
      (withShow inRun 1 ⟨.running ⟨.host, 0, .pause, some 6000000, [], false⟩, none, 0⟩)).shows 1 = ⟨.idle, some .completed, 1⟩ ∧
    tget (did (.waitTimerExpiry 0 2)
      (withShow inRun 2 ⟨.running ⟨.host, 0, .cue, some 11000000, [], false⟩, none, 0⟩)).shows 2 =
      ⟨.aborted, some (.aborted 0 .timeout), 1⟩ := by decide +kernel

/-- R192, R196: the abort for a TIMEOUT cancels the run's queued route 12, and the cue which that sets stays set, though the run
waited for it. -/
theorem test_timeout_leaves_the_cue_set :
    let s : State := { withRoute inRun 12 (.queued .visitor 1000) with
      queue := [12], tables := { layout with shows := tset layout.shows 2 [.waitCue 1 10, .finish] } }
    let t := did (.waitTimerExpiry 0 2) (withShow s 2 ⟨.running ⟨.host, 0, .cue, some 11000000, [12], false⟩, none, 0⟩)
    tget t.routes 12 = .free .cancelled ∧ tget t.cues 1 = true ∧
      tget t.shows 2 = ⟨.aborted, some (.aborted 0 .timeout), 1⟩ := by decide +kernel

/-- R197. -/
theorem test_holdOffExpiry :
    (tget (did (.holdOffExpiry 0 12) { inRun with keys := tset inRun.keys 12 ⟨none, 0, none, some 61000000⟩ }).keys 12).holdOff =
      none := by decide +kernel

/-- R202: the length byte, and the check byte of REQUEST_ROUTE 12 with tag 7 (check 0x2D by exclusive OR of 3, 0x25, 7, 12). -/
theorem test_receivedByte :
    (did (.receivedByte 87 2) { inRun with link := { inRun.link with rx := .length 1000000 } }).link.rx = .body 2 [] 2 1000087 ∧
    tget (did (.receivedByte 87 0x2D) { bare ready with
      link := { ready.link with rx := .check [0x25, 7, 12] 0x2D 1000000 } }).routes 12 = .setting false marks12 := by
  decide +kernel

/-! ## A witness for the hypotheses of every statement, and for each clause at a boundary of its range -/

/-- The part in the middle of service: train 4471 in block 20, route 12 SET with its signal at CAUTION, route 13 and show 2
waiting, show 1 running, a reply on the line, and a command waiting. -/
def live : State :=
  { holding (.isSet true false marks12) with
    channels := tset inRun.channels 20 occupied
    feeds := tgen 48 fun b =>
      if (tget layout.blocks b).map (·.kind) = some .plain then { Feed.initial with state := .on } else Feed.initial
    trains := tset inRun.trains 0 (.active 4471 [⟨20, .e1⟩] none false)
    routes := tset (tset inRun.routes 12 (.isSet true false marks12)) 13 (.queued .visitor 1000)
    queue := [13]
    signals := tset (tset (tset inRun.signals 4 { SignalRec.initial with aspect := .caution, control := some 12, cleared := true })
      7 { SignalRec.initial with aspect := .danger }) 10 { SignalRec.initial with aspect := .danger }
    shows := tset (tset inRun.shows 1 ⟨.running ⟨.host, 0, .pause, some 6000000, [], false⟩, none, 0⟩) 2 ⟨.queued .host, none, 0⟩
    showQueue := [2]
    link := ⟨.hunt, [⟨7, .accepted⟩], .reply, [.block 20], false⟩
    pending := [.frameSent 430] }

theorem live_trainsSound : live.trainsSound := trainsSound_of_check (by decide +kernel)
theorem live_showsSound : live.showsSound := showsSound_of_check (by decide +kernel)
theorem live_queueSound : live.queueSound := queueSound_of_check (by decide +kernel)
theorem live_reservationsSound : live.reservationsSound := reservationsSound_of_check (by decide +kernel)
theorem live_locksSound : live.locksSound := locksSound_of_check (by decide +kernel)
theorem live_steps : ∃ t, step live = .next t := ⟨_, rfl⟩

theorem witness_StepTakesFrontCommand :
    live.pending = .frameSent 430 :: [] ∧ inRun.pending = [] := ⟨rfl, rfl⟩

theorem witness_EveryCommandCompletes :
    (∀ dt, Instr.sendReport 5 ≠ .powerOn dt) ∧ ∀ dt, Instr.sendReport 5 ≠ .resetTakesEffect dt :=
  ⟨nofun, nofun⟩

/-- The part with a RESET waiting to take effect. -/
def resetting : State := { inRun with link := { inRun.link with resetting := true } }

/-- The part with this many replies in the FIFO. -/
def backlog (n : Nat) : State := { inRun with link := { inRun.link with fifo := List.replicate n ⟨7, .accepted⟩, tx := .reply } }

theorem witness_PowerOnAndReset :
    inRun.hears 1 ∧ (backlog 7).hears 255 ∧ resetting.link.resetting = true ∧ inRun.link.resetting = false := by decide +kernel

theorem witness_StepKeepsLinkSound : ∃ t, live.linkSound ∧ step live = .next t :=
  live_steps.imp fun _ h => ⟨by decide +kernel, h⟩

theorem witness_StepKeepsConfigAtRest : ∃ t, live.configAtRest ∧ step live = .next t :=
  live_steps.imp fun _ h => ⟨configAtRest_of_mode (by decide +kernel), h⟩

theorem witness_StepKeepsSignalsShow : ∃ t, live.signalsShow ∧ step live = .next t :=
  live_steps.imp fun _ h => ⟨by decide +kernel, h⟩

/-- In service with the panel brought up, and HALT_LAYOUT waiting. -/
def shown : State := { live.settlePanel with pending := [.haltLayout 0 1 (.fields ())] }

/-- HALT turns signal 4 from CAUTION to DANGER, so the output image of its module changes and is pending (R120, R172, R174). -/
theorem witness_panelShows :
    shown.configAtRest ∧ shown.panelShows ∧ (tget shown.modules 0).state = .online ∧
    (tget shown.modules 0).parts[0]? = some ⟨[0, 2], false⟩ ∧
    (tget (did (.haltLayout 0 1 (.fields ())) shown).modules 0).state = .online ∧
    (tget (did (.haltLayout 0 1 (.fields ())) shown).modules 0).parts[0]? = some ⟨[0, 1], true⟩ :=
  ⟨configAtRest_of_mode (by decide +kernel), by decide +kernel⟩

theorem witness_StepKeepsTrainsSound : ∃ t, live.trainsSound ∧ step live = .next t :=
  live_steps.imp fun _ h => ⟨live_trainsSound, h⟩

theorem witness_StepKeepsFeedsSound : ∃ t, step live = .next t ∧ live.feedsSound ∧ live.tables.ledsOrdered :=
  live_steps.imp fun _ h => ⟨h, by decide +kernel, by decide +kernel⟩

theorem witness_StepKeepsReservationsSound : ∃ t, live.reservationsSound ∧ live.feedsSound ∧ live.configAtRest ∧
    live.locksSound ∧ step live = .next t :=
  live_steps.imp fun _ h =>
    ⟨live_reservationsSound, by decide +kernel, configAtRest_of_mode (by decide +kernel), live_locksSound, h⟩

theorem witness_StepKeepsQueuesSound : ∃ t, step live = .next t ∧ live.queueSound ∧ live.showsSound :=
  live_steps.imp fun _ h => ⟨h, live_queueSound, live_showsSound⟩

/-- In CONFIG everything is at rest, though the layout is loaded. -/
theorem loaded_configAtRest : loaded.configAtRest := by
  intro _
  unfold State.resting ModuleRec.resting
  and_intros <;> first | decide +kernel | (intro t h; cases h)

theorem witness_RefusalChangesNothing :
    ∃ t, requestOf (.requestRoute 3 1 (.fields 64)) = some (3, 1) ∧ inRun.hears 1 ∧
      exec (.requestRoute 3 1 (.fields 64)) inRun = .next t ∧ t.link.fifo.getLast? = some ⟨1, .refused .badValue⟩ :=
  ⟨_, rfl, by decide +kernel, rfl, by decide +kernel⟩

theorem witness_FramesAreExaminedInOrder :
    requestOf (.setCue 0 1 .wrongLength) = some (0, 1) ∧ lengthWrong (.setCue 0 1 .wrongLength) = true ∧
    lengthWrong (.setText 0 1 (.fields (List.replicate 21 0x20))) = true ∧
    lengthWrong (.setText 0 0 (.fields (List.replicate 20 0x20))) = false ∧
    requestOf (.reset 0 0 (.fields ())) = some (0, 0) ∧ lengthWrong (.reset 0 0 (.fields ())) = false ∧ resetting.link.resetting = true ∧ 8 ≤ (backlog 8).link.fifo.length ∧
    (backlog 7).link.fifo.length < 8 ∧ (backlog 7).link.resetting = false ∧ inRun.link.rx = .hunt ∧
    (Rx.length 1000000).lastAt = some 1000000 ∧ (Rx.check [0x25, 7, 12] 0x2D 1000000).lastAt = some 1000000 := by
  decide +kernel

theorem witness_DefineReplacesTheEntry :
    inRun.hears 1 ∧ inRun.mode ≠ .config ∧ loaded.hears 1 ∧ loaded.mode = .config ∧
    ((readBlock { sentBlock with index := 47 }).isSome = true ∧ readBlock { sentBlock with threshold := .value 0 } = none) ∧
    ((readPoint { sentPoint with index := 63 }).isSome = true ∧ readPoint { sentPoint with group := 8 } = none) ∧
    ((readGroup ⟨7, .omitted, .omitted, .omitted, .omitted⟩).isSome = true ∧
      readGroup ⟨7, .value 251, .omitted, .omitted, .omitted⟩ = none) ∧
    ((readSignal ⟨31, 47, .value .e1, 4, 23, 12⟩).isSome = true ∧ readSignal ⟨31, 47, .value .e1, 1, 23, 12⟩ = none) ∧
    ((readRoute { sentRoute with index := 63 }).isSome = true ∧ readRoute { sentRoute with path := [] } = none) ∧
    ((readTurntable sentTurntable).isSome = true ∧ readTurntable { sentTurntable with r := 1598 } = none) ∧
    ((readRoad ⟨23, 64000, 47⟩).isSome = true ∧ readRoad ⟨23, 64001, 47⟩ = none) ∧
    ((readTrap ⟨3, 10, .omitted, .omitted, 47, .value .e0⟩).isSome = true ∧
      readTrap ⟨3, 2001, .omitted, .omitted, 47, .value .e0⟩ = none) ∧
    ((readModule ⟨23, 8, .value .text⟩).isSome = true ∧ readModule ⟨23, 7, .value .text⟩ = none) ∧
    ((readKey ⟨63, 23, 15, .value (.startShow 7)⟩).isSome = true ∧ readKey ⟨63, 23, 16, .value .none⟩ = none) ∧
    ((readLed ⟨1535, .value .showing, 7⟩).isSome = true ∧ readLed ⟨1535, .value .showing, 8⟩ = none) ∧
    (readCue ⟨15, .value (.blockCleared 47)⟩).isSome = true ∧ readCue ⟨15, .value (.blockCleared 48)⟩ = none := by
  decide +kernel

theorem witness_FieldRangesAndDefaults :
    (readBlock ⟨0, .value .plain, .noLink, .noLink, .value 1, .value 0, .value 1, .value 1, .omitted, .value 0⟩).isSome = true ∧
    (readBlock ⟨0, .value .plain, .noLink, .noLink, .value 254, .value 63, .value 15, .value 63, .omitted, .value 7⟩).isSome =
      true ∧ (readPoint sentPoint).isSome = true ∧
    (readGroup ⟨0, .value 0, .value 10, .value 0, .value 100⟩).isSome = true ∧
    (readGroup ⟨0, .value 250, .value 1000, .value 5000, .value 5000⟩).isSome = true ∧
    (readSignal ⟨0, 0, .value .e0, 2, 0, 0⟩).isSome = true ∧ (readSignal ⟨0, 0, .value .e0, 4, 0, 12⟩).isSome = true ∧
    (readRoute ⟨0, 0, none, [0], [], [], [], .omitted, .omitted, .omitted⟩).isSome = true ∧
    (readRoute ⟨0, 0, none, [0, 1, 2, 3, 4, 5, 6, 7], List.replicate 8 ⟨0, .value .normal, 7⟩,
      List.replicate 4 ⟨0, .value .normal⟩, [8, 9], .value ⟨0, .value .a⟩, .value ⟨9999, 3, 240⟩, .omitted⟩).isSome = true ∧
    (readTurntable ⟨0, 1600, 16, 16, 1, .omitted, 0, .omitted, .value 0, .value 100, .value 10, 0⟩).isSome = true ∧
    (readTurntable ⟨0, 64000, 2000, 20000, 500, .omitted, 255, .omitted, .value 2000, .value 5000, .value 500, 47⟩).isSome =
      true ∧ (readRoad ⟨0, 64000, 0⟩).isSome = true ∧
    (readTrap ⟨0, 10, .value 1, .value 5, 0, .value .e0⟩).isSome = true ∧
    (readTrap ⟨0, 2000, .value 8, .value 500, 0, .value .e0⟩).isSome = true ∧
    (readModule ⟨0, 8, .value .lamp⟩).isSome = true ∧ (readModule ⟨0, 119, .value .lamp⟩).isSome = true := by decide +kernel

/-- The layout with the step store filled but for `left` steps. -/
def steps (left : Nat) : Tables :=
  { layout with shows := tset (tfill 8 (List.replicate 16 .finish)) 7 (List.replicate (16 - left) .finish) }

theorem witness_DefineStepPlacesTheStep :
    loaded.hears 1 ∧ inRun.mode ≠ .config ∧ loaded.mode = .config ∧ (∀ x, (Sent.unlisted : Sent RawStep) ≠ .value x) ∧
    readStep (.pause 60000) ≠ none ∧ readStep (.waitCue 16 1) = none ∧
    1 < (tget layout.shows 1).length ∧ 2 = (tget layout.shows 1).length ∧ layout.stepsUsed < 128 ∧
    (steps 1).stepsUsed = 127 ∧ 15 = (tget (steps 1).shows 7).length ∧ (steps 0).stepsUsed = 128 ∧
    16 = (tget (steps 0).shows 7).length ∧ (tget layout.shows 1).length < 3 := by
  refine ⟨?_, ?_, ?_, nofun, ?_⟩ <;> decide +kernel

theorem witness_EraseReturnsEntries :
    loaded.hears 1 ∧ inRun.mode ≠ .config ∧ loaded.mode = .config ∧ eraseSize .block ≤ 48 ∧ eraseSize .turntable ≤ 1 ∧
    eraseSize .everything ≤ 0 ∧ eraseSize .led ≤ 1536 := by decide +kernel

/-- Route 12 waiting since 1000 ms, 120 s later. -/
def waiting : State := { withRoute inRun 12 (.queued .host 1000) with queue := [12], clock := ⟨121000000, 0⟩ }

theorem waiting_queueSound : waiting.queueSound := queueSound_of_check (by decide +kernel)

/-- The age of route 12 reaches a stack timeout of 120 s and not one of 121 s. -/
theorem witness_SetParamClampsTheValue :
    inRun.hears 1 ∧ inRun.queue = [] ∧ waiting.hears 1 ∧ waiting.queueSound ∧ waiting.noRun ∧
    tget waiting.routes 12 = .queued .host 1000 ∧ 1000 * 120 ≤ (waiting.later 0).ageOf 1000 ∧
    ¬ 1000 * 121 ≤ (waiting.later 0).ageOf 1000 :=
  by refine ⟨?_, ?_, ?_, waiting_queueSound, ?_⟩ <;> decide +kernel

theorem witness_CaptionsAndTextArePadded :
    inRun.hears 1 ∧ 20 < (List.replicate 21 (0x20 : Byte)).length ∧ (List.replicate 20 (0x7E : Byte)).length ≤ 20 ∧
    (∀ c ∈ ([0x20, 0x7E] : List Byte), 0x20 ≤ c.toNat ∧ c.toNat ≤ 0x7E) ∧
    (¬ ∀ c ∈ ([0x1F] : List Byte), 0x20 ≤ c.toNat ∧ c.toNat ≤ 0x7E) ∧
    (¬ ∀ c ∈ ([0x7F] : List Byte), 0x20 ≤ c.toNat ∧ c.toNat ≤ 0x7E) ∧ 16 ≤ 16 ∧ 15 < 16 := by decide +kernel

/-- The layout with route 12's exit signal undefined. -/
def exitless : Tables := { layout with routes := tset layout.routes 12 (some { route12 with exit := some 5 }) }

theorem witness_StartRunChecksTheTables :
    inRun.hears 1 ∧ inRun.mode ≠ .config ∧ loaded.mode = .config ∧ misjoined.firstFailure = some (.block, 23) ∧
    misjoined.blockOk 23 = false ∧ (∀ a : Fin 48, a.val < 23 → misjoined.blockOk a = true) ∧
    (∀ b, exitless.blockOk b = true) ∧ (∀ p, exitless.pointOk p = true) ∧ (∀ g, exitless.signalOk g = true) ∧
    exitless.routeOk 12 = false ∧ ∀ q : Fin 64, q.val < 12 → exitless.routeOk q = true := by
  and_intros <;> decide +kernel

/-- Of a block and a route that both fail, the block is named. -/
theorem witness_the_first_failure :
    let t : Tables := { exitless with points := misjoined.points }
    t.ledsOrdered ∧ t.fails .block 23 ∧ t.fails .route 12 ∧ CheckTable.place .block < CheckTable.place .route ∧
      t.firstFailure = some (.block, 23) := by
  simp only [Tables.fails]
  decide +kernel

/-- Each check has an entry that it applies to, one that passes and one that fails. -/
theorem witness_the_checks :
    tget layout.blocks 13 = none ∧ tget layout.blocks 33 = blockAt 33 ∧ layout.blockOk 33 = true ∧ misjoined.blockOk 23 = false ∧
    tget layout.points 20 = pointAt 20 ∧ layout.pointOk 20 = true ∧ misjoined.pointOk 5 = true ∧
    tget layout.signals 4 = signalAt 4 ∧ layout.signalOk 4 = true ∧
    ({ layout with modules := tset layout.modules 0 none } : Tables).signalOk 4 = false ∧
    tget layout.routes 12 = some route12 ∧ layout.routeOk 12 = true ∧ exitless.routeOk 12 = false ∧
    layout.turntableOk = true ∧ layout.roadOk 3 = true ∧
    ({ layout with roads := tset layout.roads 3 (some ⟨6400, 40⟩) } : Tables).roadOk 3 = false ∧
    layout.trapOk 1 = true ∧ layout.moduleOk 7 = true ∧ layout.keyOk 12 = true ∧ 451 / 64 = (7 : Fin 24).val ∧
    layout.ledOk (451, .blockOcc 12) = true ∧ layout.ledOk (451, .blockOcc 13) = false ∧ layout.showOk 1 = true ∧
    ({ layout with shows := tset layout.shows 1 [.pause 1] } : Tables).showOk 1 = false ∧ layout.cueOk 4 = true := by
  decide +kernel

/-- The walks of route 12 (5.6): past point 20, entered by its toe and left by its REVERSE leg, to the end at which signal 7
stands. -/
theorem witness_WalksAlong :
    WalksAlong layout route12 30 .e1 [31, 32, 33, 34] [20] [.e0, .e0, .e0, .e0] := by
  have along (a b : Fin 48) (x : BlockDef) (y : Side) (h : tget layout.blocks a = some x) (hl : x.link1 = .blockEnd b y)
      (hd : layout.turntable.map (·.deckBlock) ≠ some a) (hp : layout.pitRoad a .e1 = none) :
      layout.walks route12 a .e1 [] b y :=
    ⟨x, h, .inr ⟨hd, .inr ⟨hp, by decide, (show x.link .e1 = _ from hl) ▸ .block b y⟩⟩⟩
  refine .cons (l := []) (along 30 31 _ .e0 rfl rfl (by decide +kernel) (by decide +kernel)) ?_
  refine .cons (l := [20]) ⟨_, rfl, .inr ⟨by decide +kernel, .inr ⟨by decide +kernel, by decide, ?_⟩⟩⟩ ?_
  · exact .point (q := ⟨20, .reverse, 0⟩) (out := .reverse) rfl (by decide) rfl (.inl ⟨rfl, rfl⟩) (.block 32 .e0)
  refine .cons (l := []) (along 32 33 _ .e0 rfl rfl (by decide +kernel) (by decide +kernel)) ?_
  exact .cons (l := []) (along 33 34 _ .e0 rfl rfl (by decide +kernel) (by decide +kernel)) (.nil 34 .e1)

/-- A walk crosses the join that a route requires: from the deck to road 3's block at its pit end, and back. -/
theorem witness_walks_across_the_deck :
    layout.walks { route12 with turntable := some ⟨3, .a⟩ } 47 .e0 [] 40 .e0 ∧
    layout.walks { route12 with turntable := some ⟨3, .a⟩ } 40 .e0 [] 47 .e0 :=
  ⟨⟨_, rfl, .inl ⟨by decide +kernel, rfl, ⟨3, .a⟩, rfl, by decide +kernel⟩⟩,
    ⟨_, rfl, .inr ⟨by decide +kernel, .inl ⟨3, ⟨3, .a⟩, by decide +kernel, rfl, rfl, by decide +kernel⟩⟩⟩⟩

theorem witness_StartRunBeginsService :
    loaded.hears 1 ∧ loaded.configAtRest ∧ loaded.mode = .config ∧ loaded.tables.firstFailure = none ∧
    (tget loaded.tables.points 5).map (·.home) = some .asFound ∧ (tget loaded.tables.points 20).map (·.home) = some .normal ∧
    (tget loaded.tables.signals 4).isSome = true ∧ tget loaded.tables.shows 1 ≠ [] :=
  by and_intros <;> first | exact loaded_configAtRest | decide +kernel

/-- The part in CONFIG with the bolt drawn, the deck having last gone this way. -/
def drawn (last : Option StepDir) : State := withDeck loaded { Deck.initial with boltOut := true, lastDir := last }

/-- Home moves of group 1, whose point 20 lies otherwise; homing at start with the bolt in and with the bolt drawn, after a last move
either way; and a turntable without homing at start. -/
theorem witness_homingAtStart :
    (loaded.homeMoves 1 = [(20, .normal), (21, .normal)] ∧ loaded.homeMoves 0 = [] ∧ turntable.homeAtStart = true ∧
      loaded.deck.boltOut = false) ∧
    (∀ last, (drawn last).hears 1 ∧ (drawn last).configAtRest ∧ (drawn last).tables.turntable = some turntable ∧
      (drawn last).deck.boltOut = true ∧ (drawn last).deck.lastDir = last) ∧
    ({ turntable with homeAtStart := false } : TurntableDef).homeAtStart = false := by
  refine ⟨by decide +kernel, fun last => ⟨(by decide +kernel : loaded.hears 1), fun h => ?_, rfl, rfl, rfl⟩, rfl⟩
  have rest : loaded.resting := loaded_configAtRest h
  exact rest

theorem witness_StopRunClearsDynamicState :
    loaded.hears 1 ∧ loaded.mode = .config ∧ inHalt.hears 1 ∧ inHalt.mode ≠ .config ∧ live.hears 1 ∧ live.mode ≠ .config := by
  decide +kernel

theorem witness_HaltStopsTheLayout :
    loaded.mode = .config ∧ inHalt.mode = .halt .host ∧ live.hears 1 ∧ live.mode = .run ∧ live.showsSound ∧ live.queueSound ∧
    ((tget live.feeds 33).state ≠ .on ∧ (tget live.feeds 12).state = .on) ∧ 12 ∉ live.queue :=
  by refine ⟨?_, ?_, ?_, ?_, live_showsSound, live_queueSound, ?_⟩ <;> decide +kernel

/-- The deck at road 7, with route 19 over the deck to road 3's end A. -/
def overDeck : State :=
  { withDeck inRun deckAt7 with
    tables := { layout with routes := tset layout.routes 19 (some ⟨10, none, [40, 47], [], [], [], some ⟨3, .a⟩, none, false⟩) } }

/-- In service with the deck under way to road 3 for route 19, a HOST and a VISITOR request waiting, and a route that show 1 asked
for. -/
def halting : State :=
  { live with
    tables := overDeck.tables
    routes := tset (tset (tset live.routes 14 (.queued .host 1000)) 15 (.queued .host 2000)) 19
      (.setting true ⟨[false, false], true⟩)
    queue := [13, 14, 15]
    reservers := tset (tset live.reservers 40 (some 19)) 47 (some 19)
    shows := tset live.shows 1 ⟨.running ⟨.host, 0, .pause, some 6000000, [14], false⟩, none, 0⟩
    deck := { deckAt7 with
      state := .moving { move3 with origin := .route 19 } (.ramp 200 5000 1005000), align := none, locked := false } }

theorem witness_halt_and_the_routes :
    halting.hears 1 ∧ halting.mode = .run ∧ halting.showsSound ∧ halting.queueSound ∧
    tget halting.routes 13 = .queued .visitor 1000 ∧ tget halting.routes 14 = .queued .host 1000 ∧
    tget halting.routes 15 = .queued .host 2000 ∧ (tget halting.tables.routes 14).isSome = true ∧
    (tget halting.shows 1).state = .running ⟨.host, 0, .pause, some 6000000, [14], false⟩ ∧
    (tget halting.routes 19 = .setting true ⟨[false, false], true⟩ ∧ halting.tables.turntable.isSome = true ∧
      (halting.deck.state.move.map (·.origin)) = some (.route 19)) ∧
    (tget halting.routes 12).marks = some marks12 ∧ tget halting.routes 12 = .isSet true false marks12 :=
  by refine ⟨?_, ?_, showsSound_of_check ?_, queueSound_of_check ?_, ?_⟩ <;> decide +kernel

/-- R104: HOST entries stay in their order, and the requests of the visitor and of the show go; the SET route keeps its state. -/
theorem test_halt_and_the_queue :
    let t := did (.haltLayout 0 1 (.fields ()))
      { halting with tables := layout, routes := tset halting.routes 19 (.free .none), deck := deckAt7 }
    t.queue = [15] ∧ tget t.routes 13 = .free .halted ∧ tget t.routes 14 = .free .cancelled ∧
      tget t.routes 15 = .queued .host 2000 ∧ tget t.routes 12 = .isSet true false marks12 ∧ tget t.reservers 31 = some 12 := by
  decide +kernel

/-- In HALT with a COOLING feed, a LATCHED one, one LATCHED with its restore deferred, and the rest OFF. -/
def tripped : State :=
  withFeed (withFeed (withFeed inHalt 20 { Feed.initial with state := .cooling, cool := some 2000000 }) 21
    { Feed.initial with state := .latched }) 22 { Feed.initial with state := .latched, deferred := true }

theorem witness_ResumeReturnsToRun :
    inRun.hears 1 ∧ inRun.mode.isHalt = false ∧ tripped.hears 1 ∧ tripped.mode.isHalt = true ∧
    (tget tripped.feeds 20).state = .cooling ∧ ((tget tripped.feeds 21).state = .latched ∧ (tget tripped.feeds 21).deferred = false) ∧
    ((tget tripped.feeds 22).state = .latched ∧ (tget tripped.feeds 22).deferred = true) ∧
    ((tget tripped.feeds 12).state = .off ∧ (did (.resume 0 1 (.fields ())) tripped).feedDemand 12 = true ∧
      (tget tripped.tables.blocks 12).map (·.restartGroup) = some 2) ∧
    (tget tripped.feeds 0).state = .off ∧ (did (.resume 0 1 (.fields ())) tripped).feedDemand 0 = true ∧
      (tget tripped.tables.blocks 0).map (·.restartGroup) = some 0 := by decide +kernel

/-- No feed ON; a group with a queue and one without; nothing waiting. -/
theorem witness_resumedGroups :
    (∀ b, (tget tripped.feeds b).state ≠ .on) ∧
    let s := withGroup tripped 1 { GroupRec.initial with paused := true, queue := [(20, .reverse)] };
      s.hears 1 ∧ s.mode.isHalt = true ∧ s.quiet ∧ (tget s.groups 1).phase = .idle ∧
        (tget s.groups 1).queue = [(20, .reverse)] ∧ (tget s.groups 2).queue = [] := by decide +kernel

theorem witness_FeedsObeyRequestsAndTimers :
    loaded.hears 1 ∧ loaded.mode = .config ∧ inRun.hears 1 ∧ inRun.mode ≠ .config ∧ 48 ≤ 48 ∧
    tget inRun.tables.blocks 47 ≠ none ∧ tget inRun.tables.blocks 13 = none ∧
    (tget inRun.tables.blocks 12).isSome = true ∧ true ≠ (tget inRun.feeds 12).isolated ∧
    (tget inRun.feeds 12).state ≠ .latched ∧
    ((tget tripped.feeds 21).state = .latched ∧ tripped.mode.isHalt = true ∧ tripped.hears 1) ∧
    (let s : State := { tripped with mode := .run };
      (tget s.feeds 21).state = .latched ∧ s.mode = .run ∧ s.hears 1) ∧
    ((tget tripped.feeds 20).state = .cooling ∧ (tget tripped.feeds 20).cool = some 2000000) ∧
    (tget tripped.feeds 21).state ≠ .cooling ∧ (tget inRun.feeds 12).restart = none ∧
    (tget (withFeed inRun 12 { Feed.initial with restart := some 1200000 }).feeds 12).restart = some 1200000 := by
  decide +kernel

/-- Block 12 with its feed ON, its channel OCCUPIED, and these trips in its log, 10 s after the time 0. -/
def tripping (log : List MsCount) : State :=
  { withChannel (withFeed inRun 12 { Feed.initial with state := .on, log := log }) 12 occupied with clock := ⟨10000000, 0⟩ }

/-- A third trip 10 s after the first latches, one 10.001 s after it does not; a log of five drops its oldest. -/
theorem witness_OverloadTripsTheFeed :
    let s := tripping [0, 9000]
    s.work = Work.none ∧ s.mode ≠ .config ∧ s.signalsShow ∧ (tget s.tables.blocks 12).map (·.kill) = some .auto ∧
    (tget s.feeds 12).state = .on ∧ (tget s.channels 12).occupied = true ∧
    s.params.tripsToLatch ≤ (([0, 9000, (s.later 0).ms] : List MsCount).filter fun x =>
      decide ((s.later 0).ageOf x ≤ 1000 * s.params.tripWindow)).length ∧
    ¬ s.params.tripsToLatch ≤ (([0, 9000, (s.later 1000).ms] : List MsCount).filter fun x =>
      decide ((s.later 1000).ageOf x ≤ 1000 * s.params.tripWindow)).length ∧
    (tget (tripping [0, 1, 2, 3, 4]).feeds 12).log.length = 5 ∧
    ((tget s.tables.blocks 42).map (·.kill) = some .latch ∧
      (tget (withFeed s 42 { Feed.initial with state := .on }).feeds 42).state = .on) := by decide +kernel

/-- The feed of the deck block ON, its channel CLEAR, with two trips in its log. -/
def readsClear : State :=
  withFeed { inRun with clock := ⟨10000000, 0⟩ } 47 { Feed.initial with state := .on, log := [0, 9000] }

theorem witness_overload_while_clear :
    readsClear.work = Work.none ∧ readsClear.mode ≠ .config ∧ (tget readsClear.tables.blocks 47).isSome = true ∧
    (tget readsClear.feeds 47).state = .on ∧ (tget readsClear.channels 47).occupied = false ∧ readsClear.runningShow = none ∧
    tget readsClear.tables.cues 2 = .blockOccupied 47 := by decide +kernel

/-- R28, R38, R196: the trip of a CLEAR block makes it OCCUPIED and held, and its cue is set. -/
theorem test_overload_while_clear :
    let t := did (level 0 47 255) readsClear
    (tget t.feeds 47).state = .latched ∧ tget t.channels 47 = ⟨true, 0, true, false, some 10500000⟩ ∧ tget t.cues 2 = true := by
  decide +kernel

/-- The levels 40 and 39, 32 and 31; the counts 1 and 2 of a dwell-on of 3, 10 and 11 of a dwell-off of 12; a stale channel; and
the level 255 with its feed OFF. -/
theorem witness_DwellCountsSamples :
    inRun.mode ≠ .config ∧ tget inRun.tables.blocks 12 = some { plain .noLink .noLink with restartGroup := 2 } ∧
    ¬ ((255 : Byte) = 255 ∧ (tget inRun.feeds 12).state = .on) ∧ ¬ ((40 : Byte) = 255 ∧ (tget live.feeds 12).state = .on) ∧
    (tget inRun.channels 12).held = false ∧ (tget inRun.channels 12).occupied = false ∧
    40 ≤ (40 : Byte).toNat ∧ (39 : Byte).toNat < 40 ∧ 1 + 1 < 3 ∧ 3 ≤ 2 + 1 ∧
    (tget (withChannel inRun 12 occupied).channels 12).occupied = true ∧ (31 : Byte).toNat < 40 - 8 ∧
    40 - 8 ≤ (32 : Byte).toNat ∧ 10 + 1 < 12 ∧ 12 ≤ 11 + 1 ∧
    (tget (withChannel inRun 12 { occupied with stale := true, count := 0 }).channels 12).stale = true := by decide +kernel

/-- A part whose contact of point 10 reads NORMAL. -/
def reading : State := { inRun with contacts := tset inRun.contacts 10 ⟨.normal, false, some 1500000⟩ }

theorem witness_BadRecordsAndStaleness :
    recordCheck false 12 88 + 1 ≠ recordCheck false 12 88 ∧ loaded.mode = .config ∧ 48 ≤ (48 : BitVec 7).toNat ∧
    (13 : BitVec 7).toNat = (13 : Fin 48).val ∧ tget inRun.tables.blocks 13 = none ∧
    recordCheck true 10 1 + 1 ≠ recordCheck true 10 1 ∧ 64 ≤ (64 : BitVec 7).toNat ∧
    (12 : BitVec 7).toNat = (12 : Fin 64).val ∧ tget inRun.tables.points 12 = none ∧
    (tget inRun.channels 12).timer = none ∧ (tget (withChannel inRun 12 occupied).channels 12).timer = some 1500000 ∧
    (tget inRun.contacts 10).timer = none ∧ reading.still ∧ (tget reading.contacts 10).timer = some 1500000 ∧
    (tget reading.contacts 10).stale = false := by decide +kernel

/-- Point 10 (HOLD) as it stands, with nothing moving. -/
def resting (x : PointRec) : State := { reading with points := tset inRun.points 10 x }

theorem witness_ContactReadings :
    inRun.still ∧ inRun.mode ≠ .config ∧ (tget inRun.tables.points 5).map (·.feedback) = some .none ∧
    (tget inRun.tables.points 10).map (·.feedback) = some .hold ∧ (reading.still ∧ reading.movingTarget 10 = none) ∧
    (tget (resting ⟨none, false, true, 0, 0⟩).points 10).asFound = true ∧ (resting ⟨none, false, true, 0, 0⟩).still ∧
    (tget (resting ⟨some .normal, false, false, 1, 0⟩).points 10).lie = some .normal ∧
    (resting ⟨some .normal, false, false, 1, 0⟩).still ∧ Reading.reverse ≠ Lie.reading .normal ∧ 1 + 1 < 3 ∧ 3 ≤ 2 + 1 ∧
    (tget (resting ⟨some .normal, true, false, 0, 0⟩).points 10).failed = true ∧
    (tget inRun.contacts 10).stale = true := by decide +kernel

/-- A HOLD pulse within its time and held on, a CONFIRM move in RECOVERY and waiting on, one in SETUP; 2 reads REVERSE, the target,
and 1 and 3 do not. -/
theorem witness_contactWhileMoving :
    (∀ x ∈ ([(10, .pulse, some 1120000, none), (10, .pulse, none, some 2020000), (11, .recovery, some 2520000, some 2120000),
        (11, .recovery, none, some 2120000), (11, .setup, some 1020000, none)] : List (Fin 64 × GroupPhase × Timer × Timer)),
      let s := moving x.1 x.2.1 x.2.2.1 x.2.2.2;
      s.still ∧ s.mode ≠ .config ∧ (tget s.tables.points x.1).map (·.group) = some 2 ∧
      (tget s.groups 2).current = some ⟨x.1, .reverse, 1000000, none⟩ ∧ (tget s.groups 2).outcome = none ∧
      (tget s.groups 2).queue = [] ∧ 0 < (tget s.tables.groups 2).recovery) ∧
    inRun.feedback 10 = .hold ∧ inRun.feedback 11 = .confirm ∧ Reading.reverse = Lie.reading .reverse ∧
    Reading.normal ≠ Lie.reading .reverse ∧ Reading.neither ≠ Lie.reading .reverse := by decide +kernel

/-- Block 20 OCCUPIED with no train. -/
def stood : State := withChannel inRun 20 occupied

/-- Every slot taken by a train on no block of the layout. -/
def fullRegister : State :=
  { stood with trains := tgen 24 fun t => .active (t.val + 1) [⟨⟨t.val, by omega⟩, .e1⟩] none false }

/-- Train 4471 standing on block 20. -/
def standing : State := withTrain stood [20]

theorem standing_trainsSound : standing.trainsSound := trainsSound_of_check (by decide +kernel)

theorem witness_TrainsArePlacedAndRemoved :
    standing.trainsSound ∧
    (loaded.hears 1 ∧ loaded.mode = .config) ∧ (stood.hears 1 ∧ stood.mode ≠ .config) ∧ 9999 < 10000 ∧ 48 ≤ 48 ∧
    tget stood.tables.blocks 13 = none ∧ (tget stood.tables.blocks 20).isSome = true ∧
    Train.number (tget standing.trains 0) = some 4471 ∧ (∀ t, Train.number (tget stood.trains t) ≠ some 9999) ∧
    ((∀ t, tget fullRegister.trains t ≠ .free) ∧ ∀ t, Train.number (tget fullRegister.trains t) ≠ some 4471) ∧
    tget stood.trains 0 = .free ∧ (tget stood.channels 21).occupied = false ∧ (20 : Fin 48) ∈ standing.listOf 0 ∧
    (tget standing.trains 1 = .free ∧ ∀ q : Fin 24, q.val < 1 → tget standing.trains q ≠ .free) ∧
    ((tget stood.channels 20).occupied = true ∧ (∀ q, (20 : Fin 48) ∉ stood.listOf q) ∧ stood.work = Work.none) ∧
    standing.hears 1 ∧ standing.mode ≠ .config ∧ standing.still := by
  refine ⟨standing_trainsSound, ?_⟩
  and_intros <;> decide +kernel

/-- Train 4471 on block 20, which has read below 32 for 11 samples. -/
def leaving : State := withChannel standing 20 { occupied with count := 11 }

theorem witness_SingleBlockClearsAndTrainIsLost :
    leaving.mode ≠ .config ∧ leaving.trainsSound ∧
    tget leaving.tables.blocks 20 = some (plain .noLink (.blockEnd 21 .e0)) ∧ (tget leaving.channels 20).occupied = true ∧
    (tget leaving.channels 20).held = false ∧ (31 : Byte).toNat < max 1 (40 - 8) ∧
    ¬ ((31 : Byte) = 255 ∧ (tget leaving.feeds 20).state = .on) ∧
    12 ≤ (if (tget leaving.channels 20).stale then 0 else (tget leaving.channels 20).count) + 1 ∧
    tget leaving.trains 0 = .active 4471 [⟨20, .e1⟩] none false :=
  by refine ⟨?_, trainsSound_of_check ?_, ?_⟩ <;> decide +kernel

/-- Train 4471 on these blocks, head first, some of them bridged, and block `b` read below 32 for 11 samples. -/
def spread (l gaps : List (Fin 48)) (b : Fin 48) : State :=
  { withChannel (withTrain inRun l) b { occupied with count := 11 } with
    blockFlags := tgen 48 fun a => ⟨none, gaps.contains a⟩ }

theorem spread_sound : ∀ b, (spread [20, 21, 22] [21] b).trainsSound := fun b =>
  have h : (spread [20, 21, 22] [21] 0).trainsSound := trainsSound_of_check (by decide +kernel)
  h

/-- The head and the tail clear, each beside a bridged block; a middle block; and a stray block. -/
theorem witness_blockLeavesItsTrain :
    (let s := spread [20, 21, 22] [21] 20;
      s.trainsSound ∧ s.mode ≠ .config ∧ s.becomesClear 20 (plain .noLink (.blockEnd 21 .e0)) 31 ∧
      tget s.trains 0 = .active 4471 (⟨20, .e1⟩ :: ([⟨21, .e1⟩] ++ ⟨22, .e1⟩ :: [])) none false ∧
      s.allBridged [⟨21, .e1⟩] ∧ s.bridged 22 = false) ∧
    (let s := spread [20, 21, 22] [21] 22;
      s.trainsSound ∧ s.becomesClear 22 (plain (.pointLeg 5 .normal) (.blockEnd 25 .e0)) 31 ∧
      tget s.trains 0 = .active 4471 ([] ++ ⟨20, .e1⟩ :: [⟨21, .e1⟩] ++ [⟨22, .e1⟩]) none false ∧ s.bridged 20 = false) ∧
    (let s := spread [20, 21, 22] [] 21;
      s.trainsSound ∧ s.becomesClear 21 (plain (.blockEnd 20 .e1) (.pointLeg 5 .toe)) 31 ∧
      tget s.trains 0 = .active 4471 ([⟨20, .e1⟩] ++ ⟨21, .e1⟩ :: [⟨22, .e1⟩]) none false) ∧
    (let s := { withChannel inRun 20 { occupied with count := 11 } with
        blockFlags := tset inRun.blockFlags 20 ⟨some .noTrain, false⟩ };
      s.trainsSound ∧ s.becomesClear 20 (plain .noLink (.blockEnd 21 .e0)) 31 ∧ ∀ t, 20 ∉ s.listOf t) := by
  refine ⟨⟨spread_sound 20, ?_⟩, ⟨spread_sound 22, ?_⟩, ⟨trainsSound_of_check ?_, ?_⟩, trainsSound_of_check ?_, ?_⟩
  · unfold State.allBridged; decide +kernel
  all_goals decide +kernel

/-- Train 4471 on block 20 with block 21 one sample short, its feed ON (3.8). -/
def growing : State :=
  withFeed (withChannel standing 21 ⟨false, 2, false, false, some 1500000⟩) 21 { Feed.initial with state := .on }

/-- Train 4471 on blocks 20 and 29, its tail at 20: block 21 is reached from the tail. -/
def backing : State :=
  { growing with trains := tset growing.trains 0 (.active 4471 [⟨29, .e1⟩, ⟨20, .e0⟩] none false) }

theorem witness_TrainGrowsOntoTheBlock :
    (growing.mode ≠ .config ∧
      tget growing.tables.blocks 21 = some (plain (.blockEnd 20 .e1) (.pointLeg 5 .toe)) ∧
      (tget growing.channels 21).occupied = false ∧ (tget growing.channels 21).held = false ∧
      ((255 : Byte) = 255 ∧ (tget growing.feeds 21).state = .on) ∧
      40 ≤ (40 : Byte).toNat ∧ 3 ≤ (if (tget growing.channels 21).stale then 0 else (tget growing.channels 21).count) + 1 ∧
      tget growing.blockFlags 21 = ⟨none, false⟩ ∧ (∀ t, (21 : Fin 48) ∉ growing.listOf t)) ∧
    (growing.candidacies 21).map (fun x => (x.slot, x.atHead)) = [(0, true)] ∧
    tget growing.trains 0 = .active 4471 [⟨20, .e1⟩] none false ∧
    (backing.candidacies 21).map (fun x => (x.slot, x.atHead)) = [(0, false)] := by decide +kernel

/-- Block 21 one sample short of OCCUPIED between two that are, among these train records. -/
def nearing (x y : Train) : State :=
  { withChannel (withChannel (withChannel inRun 20 occupied) 22 occupied) 21 ⟨false, 2, false, false, some 1500000⟩ with
    trains := tset (tset inRun.trains 0 x) 1 y
    points := tset inRun.points 5 ⟨some .normal, false, false, 0, 0⟩ }

/-- No two roads of the layout share a position or a block. -/
theorem layout_roads : ∀ p q x z, tget layout.roads p = some x → tget layout.roads q = some z →
    x.position = z.position ∨ x.block = z.block → p = q := by
  intro p q x z hp hq h
  have := (by decide +kernel : ∀ p q : Fin 24, (tget layout.roads p).all fun x => (tget layout.roads q).all fun z =>
    decide (x.position = z.position ∨ x.block = z.block → p = q)) p q
  rw [hp, hq] at this
  simp only [Option.all_some, decide_eq_true_eq] at this
  exact this h

theorem witness_neighbourIsFound :
    (∀ p q x z, tget live.tables.roads p = some x → tget live.tables.roads q = some z →
      x.position = z.position ∨ x.block = z.block → p = q) ∧ live.tables.turntable.map (·.r) = some 6400 :=
  ⟨layout_roads, by decide +kernel⟩

/-- From block 21 past point 5, lying NORMAL, to END_0 of block 22 (3.5). -/
theorem test_beside_past_a_point : (nearing .free .free).beside 21 .e1 22 .e0 :=
  .inr ⟨by decide +kernel, .inr ⟨by
    rintro q ⟨z, x, hz, hb, -⟩
    have := (by decide +kernel : ∀ q : Fin 24, (tget layout.roads q).all fun z => decide (z.block ≠ 21)) q
    rw [show tget layout.roads q = some z from hz] at this
    simp [hb] at this,
    plain (.blockEnd 20 .e1) (.pointLeg 5 .toe), by decide +kernel,
    .point (out := .normal) (l := .normal) (x := ⟨.blockEnd 21 .e1, .blockEnd 22 .e0, .blockEnd 23 .e0, 0, .none, .asFound⟩)
      (by decide +kernel) (by decide +kernel) (by decide +kernel) (fun k hk => by
        rw [movingTo_iff] at hk; revert hk; cases k <;> decide +kernel) (.inl ⟨rfl, rfl⟩) (.block 7 22 .e0)⟩⟩

/-- Across the join of the deck, IDLE and locked at road 7, end A (R8, R49): END_0 of the deck faces the pit end of block 41. -/
theorem test_beside_across_the_join : overDeck.beside 47 .e0 41 .e0 ∧ overDeck.beside 41 .e0 47 .e0 :=
  have faces : overDeck.deckFaces .e0 7 := ⟨by decide +kernel, by decide +kernel, ⟨7, .a⟩, by decide +kernel, .inl (by decide +kernel)⟩
  have pit : overDeck.isPitEnd 41 .e0 7 :=
    ⟨⟨6000, 41⟩, plain .noLink .noLink, by decide +kernel, rfl, by decide +kernel, by decide +kernel⟩
  ⟨.inl ⟨by decide +kernel, 7, faces, pit⟩, .inr ⟨by decide +kernel, .inl ⟨7, pit, by decide +kernel, faces⟩⟩⟩

/-- R51: a train with its head at the OCCUPIED neighbour and one with its tail there, across END_0 of block 21. -/
theorem test_candidacies :
    growing.candidacies 21 = [⟨0, true, .e0⟩] ∧ backing.candidacies 21 = [⟨0, false, .e0⟩] ∧
    { growing with channels := inRun.channels }.candidacies 21 = [] := by decide +kernel

/-- A LOST train seen in a block, with its front at END_1, this many ms ago, 20 s after the time 0. -/
def lostAt (n : Nat) (b : Fin 48) (ago : Nat) : Train := .lost n ⟨b, .e1, 20000 - ago⟩ none false

/-- A bridged block; a train of eight; two trains head to head; no LOST train in time, one lost 10 s ago at the block or beside it,
and two. -/
theorem witness_otherBlocksAreSoughtATrain :
    (let s := nearing .free .free; s.mode ≠ .config ∧ s.becomesOccupied 21 (plain (.blockEnd 20 .e1) (.pointLeg 5 .toe)) 40 ∧
      tget s.blockFlags 21 = ⟨none, false⟩ ∧ (∀ t, 21 ∉ s.listOf t) ∧ s.candidacies 21 = []) ∧
    (tget (spread [20, 21, 22] [21] 21).blockFlags 21).bridged = true ∧
    (let l : List TrainBlock := ([20, 0, 1, 2, 12, 40, 41, 42] : List (Fin 48)).map fun b => ⟨b, .e1⟩;
      let s := nearing (.active 4471 l none false) .free;
      (s.candidacies 21).map (·.slot) = [0] ∧ 8 ≤ l.length ∧ ∀ t, 21 ∉ s.listOf t) ∧
    ((nearing (.active 4471 [⟨20, .e1⟩] none false) (.active 4472 [⟨22, .e0⟩] none false)).candidacies 21).map (·.slot) =
      [0, 1] ∧
    (let s (x y : Train) : State := { nearing x y with clock := ⟨20000000, 20000000⟩ };
      (s (lostAt 4471 21 10001) .free).offeredTo 0 21 = [] ∧ (s (lostAt 4471 21 10000) .free).offeredTo 0 21 = [(0, .e1)] ∧
      (s (lostAt 4471 20 0) .free).offeredTo 0 21 = [(0, .e1)] ∧
      (s (lostAt 4471 20 0) (lostAt 4472 22 0)).offeredTo 0 21 = [(0, .e1), (1, .e0)]) := by decide +kernel

/-- Group 1 in SETUP with the move of this point to REVERSE, this queue behind it. -/
def asking (p : Fin 64) (q : List (Fin 64 × Lie)) : State :=
  withGroup ready 1 ⟨.setup, some ⟨p, .reverse, 1000000, none⟩, none, q, false, some 1020000, none⟩

/-- With the setup time of group 1 replaced. -/
def unready (ms : Nat) (s : State) : State :=
  { s with tables := { s.tables with groups := tset s.tables.groups 1 { tget s.tables.groups 1 with setup := ms } } }

theorem witness_ThrowPointAsksAMove :
    (inHalt.hears 1 ∧ inHalt.mode ≠ .run) ∧ (ready.hears 1 ∧ ready.mode = .run) ∧ 64 ≤ 64 ∧
    tget ready.tables.points 63 = none ∧ 0 < (tget (holding (.setting false marks12)).points 20).locks ∧
    (tget ready.points 20).locks = 0 ∧ (withChannel ready 31 occupied).isClear 31 = false ∧
    (∀ b, b ∈ ([31, 32, 35] : List (Fin 48)) → ready.isClear b = true) ∧ ready.still ∧
    ((tget ready.points 20).lie = some .normal ∧ ready.movingTarget 20 = none ∧ ready.queuedTarget 20 = none ∧
      (tget ready.groups 1).queue = []) ∧
    ((tget ready.points 20).lie ≠ some .reverse ∧ tget ready.groups 1 = GroupRec.initial ∧
      0 < (tget ready.tables.groups 1).setup ∧ (tget (unready 0 ready).tables.groups 1).setup = 0):= by decide +kernel

/-- No entry for point 20 in its group's queue, and one behind another point's, for either lie, with point 20 at rest at NORMAL and
moving to REVERSE. -/
theorem witness_requestsFindTheQueue :
    (∀ p ∈ ([20, 21] : List (Fin 64)), ∀ k ∈ [Lie.normal, .reverse],
      let s := asking p [(22, .normal), (20, k)]
      s.still ∧ s.hears 1 ∧ s.mode = .run ∧ (tget s.groups 1).phase ≠ .idle ∧ (tget s.points 20).locks = 0 ∧
        (tget s.groups 1).queue = [(22, .normal)] ++ (20, k) :: [] ∧
        (([(22, .normal)] ++ [] : List (Fin 64 × Lie)).all fun x => x.1 != 20) = true ∧
        s.movingTarget 20 = if p = 20 then some .reverse else none) ∧
    (let s := asking 21 [(22, .normal)];
      s.still ∧ (tget s.points 20).lie = some .normal ∧ (tget s.groups 1).phase ≠ .idle ∧ s.movingTarget 20 = none ∧
        ((tget s.groups 1).queue.all fun x => x.1 != 20) = true) := by decide +kernel

theorem witness_PulseTimeEnds :
    (∀ p ∈ ([9, 10, 11] : List (Fin 64)), let s := moving p .pulse (some 1120000) none;
      s.still ∧ (tget s.groups 2).phase = .pulse ∧ (tget s.groups 2).phaseTimer = some 1120000 ∧
      (tget s.groups 2).outcome = none) ∧
    0 < (tget layout.groups 2).recovery ∧ inRun.feedback 9 = .none ∧ inRun.feedback 10 = .hold ∧
    inRun.feedback 11 = .confirm ∧
    ((tget reading.contacts 10).stale = false ∧ (tget reading.contacts 10).reading = Lie.reading .normal) ∧
    (tget reading.contacts 10).reading ≠ Lie.reading .reverse ∧ (2020000 : Nat) ≤ 2020000 ∧ 1120000 < 1120001 := by
  decide +kernel

theorem witness_PointTimersEnd :
    (let s := moving 9 .setup (some 1020000) none;
      s.still ∧ (tget s.groups 2).phase = .setup ∧ (tget s.groups 2).phaseTimer = some 1020000 ∧
      (tget s.groups 2).phase ≠ .recovery ∧ (tget s.groups 2).phase ≠ .pulse) ∧
    (let s := moving 9 .recovery (some 1520000) none;
      s.still ∧ (tget s.groups 2).phase = .recovery ∧ (tget s.groups 2).outcome = none ∧ (tget s.groups 2).phase ≠ .setup) ∧
    (∀ q ∈ ([[], [(9, .normal)]] : List (List (Fin 64 × Lie))),
      let s := withGroup inRun 2 ⟨.recovery, some ⟨9, .reverse, 1000000, none⟩, some .isSet, q, false, some 1520000, none⟩
      s.still ∧ (tget s.groups 2).outcome ≠ none ∧ (tget s.groups 2).queue = q ∧ (tget s.groups 2).paused = false ∧
        s.mode = .run) ∧
    (let s := withGroup inRun 2 ⟨.recovery, some ⟨11, .reverse, 1000000, none⟩, none, [(9, .normal)], false, none, some 2020000⟩;
      s.still ∧ (tget s.groups 2).windowTimer = some 2020000 ∧ (tget s.groups 2).outcome = none) ∧
    (let s := moving 10 .pulse none (some 2020000);
      s.still ∧ (tget s.groups 2).windowTimer = some 2020000 ∧ (tget s.groups 2).phaseTimer = none ∧
      (tget s.groups 2).outcome = none ∧ 0 < (tget s.tables.groups 2).recovery) ∧
    (tget (moving 10 .pulse (some 1120000) (some 2020000)).groups 2).phaseTimer ≠ none ∧
    (tget (moving 11 .recovery (some 1520000) (some 2020000)).groups 2).phaseTimer ≠ none ∧
    (tget (moving 11 .recovery none (some 2020000)).groups 2).phaseTimer = none := by decide +kernel

/-- Fifteen routes, or sixteen, in the queue. -/
def crowded (n : Nat) : State := { inRun with queue := (indices 64).drop 20 |>.take n }

theorem witness_RouteRequestIsQueued :
    (loaded.hears 1 ∧ loaded.mode = .config) ∧ (inRun.hears 1 ∧ inRun.mode ≠ .config) ∧ 64 ≤ 64 ∧
    tget inRun.tables.routes 63 = none ∧ (tget inRun.tables.routes 12).isSome = true ∧
    tget waiting.routes 12 = .queued .host 1000 ∧ tget inRun.routes 12 = .free .none ∧ 16 ≤ (crowded 16).queue.length ∧
    (crowded 15).queue.length < 16 ∧ (inHalt.mode.isHalt = true ∧ inHalt.work = Work.none) ∧
    (let s := withChannel inRun 31 occupied;
      s.mode = .run ∧ s.quiet ∧ ({ s.answered 0 1 .accepted with
        routes := tset s.routes 12 (.queued .host (s.later 0).ms), queue := s.queue ++ [12] } : State).takeable 12 = false) := by
  decide +kernel

/-- What a request of route `r` leaves before it is examined. -/
def asked (s : State) (r : Fin 64) : State :=
  { s.answered 0 1 .accepted with routes := tset s.routes r (.queued .host (s.later 0).ms), queue := [r] }

/-- Route 18 SET over point 20 with this lie, which it locks. -/
def shared (l : Lie) : State :=
  { withRoute ready 18 (.isSet true false ⟨[false], true⟩) with
    tables := { layout with routes := tset layout.routes 18 (some ⟨10, none, [37], [⟨20, l, 0⟩], [], [], none, none, false⟩) }
    points := tset ready.points 20 ⟨some .normal, false, false, 0, 1⟩ }

/-- R89: route 12 over the worked layout; a route that is undefined; its entrance taken by route 13; an overlap block reserved; a path
block OCCUPIED; a stray block; a failed point; point 20, which must change lie, with its NORMAL leg's block OCCUPIED, and one that
need not; a lock that agrees and one that does not; and a moving target to the other lie. -/
theorem test_takeable :
    ready.takeable 12 = true ∧ ready.takeable 63 = false ∧
    (withRoute ready 13 (.isSet true false ⟨[false, false], true⟩)).takeable 12 = false ∧
    { ready with reservers := tset ready.reservers 34 (some 14) }.takeable 12 = false ∧
    (withChannel ready 33 occupied).takeable 12 = false ∧
    { ready with blockFlags := tset ready.blockFlags 32 ⟨some .noTrain, false⟩ }.takeable 12 = false ∧
    { ready with points := tset ready.points 21 ⟨some .normal, true, false, 0, 0⟩ }.takeable 12 = false ∧
    (withChannel ready 35 occupied).takeable 12 = false ∧
    { withChannel ready 35 occupied with points := tset ready.points 20 ⟨some .reverse, false, false, 0, 0⟩ }.takeable 12 = true ∧
    (shared .reverse).takeable 12 = true ∧ (shared .normal).takeable 12 = false ∧
    (withGroup ready 1 ⟨.setup, some ⟨20, .reverse, 1000000, none⟩, none, [], false, none, none⟩).takeable 12 = true ∧
    (withGroup ready 1 ⟨.setup, some ⟨20, .normal, 1000000, none⟩, none, [], false, none, none⟩).takeable 12 = false := by
  decide +kernel

/-- R90: route 19 with the deck elsewhere; with its block reserved, UNHOMED, or in HALT; and with the deck standing there in HALT,
locked or not. -/
theorem test_takeable_over_the_deck :
    overDeck.takeable 19 = true ∧ { overDeck with reservers := tset overDeck.reservers 47 (some 14) }.takeable 19 = false ∧
    (withDeck overDeck { deckAt7 with state := .unhomed }).takeable 19 = false ∧
    { overDeck with mode := .halt .host }.takeable 19 = false ∧
    (∀ locked : Bool, { withDeck overDeck { deckAt7 with pos := some 1200, align := some ⟨3, .a⟩, locked := locked } with
      mode := .halt .host }.takeable 19 = locked) := by decide +kernel

/-- Route 12 with no turntable requirement, alone and while route 18 holds block 37; route 19 with the deck standing elsewhere, and
with it standing there. -/
theorem witness_TakeableRouteIsTaken :
    (ready.hears 1 ∧ ready.quiet ∧ ready.mode = .run ∧ tget ready.tables.routes 12 = some route12 ∧
      route12.turntable = none ∧ tget ready.routes 12 = .free .none ∧ (asked ready 12).takeable 12 = true) ∧
    (let s := { withRoute ready 18 (.isSet true false ⟨[false], true⟩) with reservers := tset ready.reservers 37 (some 18) };
      s.quiet ∧ (tget s.routes 18).holds = true ∧ (asked s 12).takeable 12 = true) ∧
    (overDeck.hears 1 ∧ overDeck.quiet ∧ overDeck.mode = .run ∧ tget overDeck.routes 19 = .free .none ∧
      (asked overDeck 19).takeable 19 = true ∧ overDeck.deck.at' ⟨3, .a⟩ = false ∧
      overDeck.tables.turntable = some turntable ∧ tget overDeck.tables.roads 3 = some ⟨1200, 40⟩ ∧
      turntable.deckBlock ∈ ([40, 47] : List (Fin 48)) ∧ overDeck.deck.pos = some 6000 ∧
      bestOf (turntable.candidates 6000 1200 (DeckEnd.ask .a)) = some ⟨.a, 1200, .forward, 1600⟩ ∧
      overDeck.deck.boltOut = false) ∧
    (let s := withDeck overDeck { deckAt7 with pos := some 1200, align := some ⟨3, .a⟩ };
      s.deck.at' ⟨3, .a⟩ = true ∧ (asked s 19).takeable 19 = true) := by decide +kernel

/-- The deck in another state of the worked move. -/
def decked (x : DeckState) : State :=
  withDeck inRun { deckAt7 with state := x, align := none, locked := false, boltIn := false }

/-- Block 25 OCCUPIED in no train's list, one sample short of CLEAR. -/
def emptying (s : State) : State := withChannel s 25 { occupied with count := 11 }

/-- The same in another mode. -/
def inMode (halted : Bool) (s : State) : State := { s with mode := if halted then .halt .host else .run }

/-- A request and a block that becomes clear, in RUN and in HALT. -/
theorem witness_queueIsExamined :
    ∀ halted : Bool,
    (let s := inMode halted (ready);
      s.noRun ∧ s.hears 1 ∧ tget s.tables.routes 12 = some route12 ∧ tget s.routes 12 = .free .none ∧ s.queue.length < 16) ∧
    (let s := inMode halted (emptying ready);
      s.noRun ∧ (tget s.tables.blocks 25).isSome = true ∧ s.becomesClear 25 (plain (.blockEnd 22 .e1) .noLink) 31 ∧
      (∀ t, 25 ∉ s.listOf t)) := by decide +kernel

/-- A point move that ends, and a cancellation. -/
theorem witness_queueIsExamined_at_releases : ∀ halted : Bool,
    (let s := inMode halted (moving 9 .pulse (some 1120000) none);
      s.noRun ∧ (tget s.groups 2).phase = .pulse ∧ (tget s.groups 2).phaseTimer = some 1120000 ∧
      (tget s.groups 2).current = some ⟨9, .reverse, 1000000, none⟩ ∧ (tget s.groups 2).outcome = none ∧
      0 < (tget s.tables.groups 2).recovery ∧ s.feedback 9 = .none) ∧
    (∀ x ∈ ([.setting false marks12, .isSet true false marks12] : List RouteRec), let s := inMode halted (holding x);
      s.noRun ∧ s.hears 1 ∧ tget s.tables.routes 12 = some route12 ∧ tget s.routes 12 = x ∧
      (tget s.signals route12.entrance).cleared = false) := by decide +kernel

theorem inMode_standing (halted : Bool) : (inMode halted standing).trainsSound := standing_trainsSound

/-- A train removed, the deck locked, overlap blocks released, and RESUME. -/
theorem witness_queueIsExamined_at_the_rest : ∀ halted : Bool,
    (let s := inMode halted standing;
      s.noRun ∧ s.hears 1 ∧ Train.number (tget s.trains 0) = some 4471) ∧
    (let s := inMode halted (decked (.locking move3 2500000));
      s.noRun ∧ s.tables.turntable.isSome = true ∧ s.deck.state = .locking move3 2500000 ∧ s.deck.boltIn = false) ∧
    (let s := inMode halted (holding (.entered false (.running 16000000) ⟨[true, true, false], false⟩));
      s.noRun ∧ tget s.routes 12 = .entered false (.running 16000000) ⟨[true, true, false], false⟩ ∧
      ([true, true, false] : List Bool)[2]? = some false ∧ 34 ∈ route12.overlap ∧ tget s.reservers 34 = some 12) ∧
    (inHalt.noRun ∧ inHalt.hears 1 ∧ inHalt.mode.isHalt = true ∧
      ∀ g, (tget inHalt.groups g).phase = .idle ∧ (tget inHalt.groups g).queue = []) := by decide +kernel

/-- R88, R91: a block that clears brings the examination of a VISITOR entry and, behind it, a HOST entry over a block that both
need: the HOST entry is taken and the VISITOR entry waits on. In HALT both wait. -/
theorem test_host_entries_first :
    let s : State := { bare (emptying ready) with
      routes := tset (tset ready.routes 12 (.queued .visitor 1000)) 14 (.queued .host 2000), queue := [12, 14] }
    let t := did (sampleOf 0 25 31) s
    s.takeable 12 = true ∧ s.takeable 14 = true ∧ t.queue = [12] ∧ tget t.routes 12 = .queued .visitor 1000 ∧
      tget t.reservers 34 = some 14 ∧ (did (sampleOf 0 25 31) { s with mode := .halt .host }).queue = [12, 14] := by
  decide +kernel

/-- Route 12 in SETTING, point 20 alone still moving. -/
def lastMove (pt wt : Timer) : State :=
  withGroup { holding (.setting false marks12) with
      points := tset (holding (.setting false marks12)).points 20 ⟨none, false, false, 0, 1⟩ } 1
    ⟨.pulse, some ⟨20, .reverse, 1000000, none⟩, none, [], false, pt, wt⟩

theorem witness_settingRouteIsDecided :
    (let s := lastMove (some 1120000) none;
      s.quiet ∧ tget s.tables.routes 12 = some route12 ∧ tget s.routes 12 = .setting false marks12 ∧
      (tget s.groups 1).current = some ⟨20, .reverse, 1000000, none⟩ ∧ (tget s.groups 1).outcome = none ∧
      (tget s.groups 1).phase = .pulse ∧ (tget s.groups 1).queue = [] ∧ (tget s.tables.points 20).map (·.group) = some 1 ∧
      (tget s.groups 1).phaseTimer = some 1120000 ∧ s.feedback 20 = .none ∧ (20, .reverse) ∈ route12.locks ∧
      (∀ y ∈ route12.locks, y = (20, .reverse) ∨ (y.1 ≠ 20 ∧ s.provedIn y.1 y.2 = true)) ∧ route12.turntable = none) ∧
    (tget (lastMove none (some 2020000)).groups 1).windowTimer = some 2020000 ∧
    (tget (lastMove none (some 2020000)).groups 1).phaseTimer = none ∧ tget layout.cues 1 = .routeFreed 12 := by decide +kernel

/-- Route 16 with approach control, SETTING, with point 20 alone still moving and block 30 OCCUPIED. -/
def lastMove16 : State :=
  { lastMove (some 1120000) none with
    routes := tset ready.routes 16 (.setting false marks12), channels := tset ready.channels 30 occupied }

theorem witness_approachAtSet :
    lastMove16.quiet ∧ (tget lastMove16.tables.routes 16).map (·.approach) = some (some ⟨250, 2, 20⟩) ∧
    tget lastMove16.routes 16 = .setting false marks12 ∧
    (∀ q, q ≠ 16 → (tget lastMove16.routes q).holds = false) ∧ tget lastMove16.tables.signals 4 = some ⟨30, .e1, 3, 0, 0⟩ ∧
    (tget lastMove16.channels 30).occupied = true ∧ (tget (lastMove (some 1120000) none).channels 30).occupied = false := by
  decide +kernel

/-- Route 18 over point 10 (HOLD), lying NORMAL. -/
def watched (x : RouteRec) (c : Contact) : State :=
  { withRoute reading 18 x with
    tables := { layout with routes := tset layout.routes 18 (some ⟨10, none, [37], [⟨10, .normal, 0⟩], [], [], none, none, false⟩) }
    points := tset reading.points 10 ⟨some .normal, false, false, 0, 1⟩
    contacts := tset reading.contacts 10 c }

theorem witness_setRouteFollowsProof :
    (let s := watched (.isSet true false ⟨[false], true⟩) ⟨.normal, false, some 1500000⟩;
      s.quiet ∧ s.mode ≠ .config ∧ s.signalsShow ∧ (tget s.tables.points 10).map (·.feedback) = some .hold ∧
      (tget s.tables.routes 18).map (·.locks) = some [(10, .normal)] ∧ s.provedIn 10 .normal = true ∧
      (tget s.contacts 10).timer = some 1500000 ∧ tget s.routes 18 = .isSet true false ⟨[false], true⟩) ∧
    (let s := watched (.isSet false true ⟨[false], true⟩) ⟨.normal, true, none⟩;
      s.quiet ∧ s.proof 10 = none ∧ (tget s.points 10).lie = some .normal ∧ s.movingTarget 10 = none ∧
      (tget s.points 10).failed = false ∧ (tget s.points 10).asFound = false ∧
      tget s.routes 18 = .isSet false true ⟨[false], true⟩) := by decide +kernel

/-- Route 19 SET over the deck at road 3, locked or not. -/
def bolted (locked : Bool) : State :=
  withRoute (withDeck overDeck { deckAt7 with pos := some 1200, align := some ⟨3, .a⟩, locked := locked, boltIn := locked }) 19
    (.isSet locked false ⟨[false, false], true⟩)

theorem witness_deckLockIsProof :
    ∀ locked : Bool, (bolted locked).quiet ∧ (bolted locked).mode ≠ .config ∧ (bolted locked).signalsShow ∧
      (tget (bolted locked).tables.routes 19).map (fun d => (d.turntable, d.locks)) = some (some ⟨3, .a⟩, []) ∧
      (bolted locked).deck.state = .idle ∧ (bolted locked).deck.align = some ⟨3, .a⟩ ∧ (bolted locked).deck.locked = locked ∧
      (bolted locked).deck.boltIn = locked ∧ tget (bolted locked).routes 19 = .isSet locked false ⟨[false, false], true⟩ := by
  decide +kernel

theorem witness_CancelRouteByState :
    (loaded.hears 1 ∧ loaded.mode = .config) ∧ (inRun.hears 1 ∧ inRun.mode ≠ .config) ∧ 64 ≤ 64 ∧
    tget inRun.tables.routes 63 = none ∧ tget inRun.tables.routes 12 = some route12 ∧
    tget (holding (.entered false .stopped marks12)).routes 12 = .entered false .stopped marks12 ∧ inRun.noRun ∧
    tget inRun.routes 12 = .free .none ∧ (holding (.cancelling 31000000 marks12)).noRun ∧
    (waiting.noRun ∧ tget waiting.routes 12 = .queued .host 1000) ∧
    (let s := withChannel { holding (.isSet true false marks12) with
        signals := tset inRun.signals 4 { SignalRec.initial with aspect := .caution, control := some 12, cleared := true } } 30 occupied;
      s.noRun ∧ s.hears 1 ∧ (tget s.signals 4).cleared = true ∧ s.isClear 30 = false ∧
        tget s.tables.signals 4 = some ⟨30, .e1, 3, 0, 0⟩) := by decide +kernel

theorem witness_HeldRouteIsFreed :
    (loaded.hears 1 ∧ loaded.mode = .config ∧ 64 ≤ 64 ∧ inRun.hears 1 ∧ inRun.mode ≠ .config ∧
      63 = (63 : Fin 64).val ∧ tget inRun.tables.routes 63 = none) ∧
    tget inRun.tables.routes 12 = some route12 ∧
    (let s := holding (.setting false marks12);
      s.hears 1 ∧ s.mode ≠ .config ∧ s.quiet ∧ tget s.routes 12 = .setting false marks12) ∧
    (let s := holding (.isSet true false marks12);
      s.quiet ∧ (tget s.signals 4).cleared = false ∧ s.isClear 30 = true) ∧
    (let s := holding (.entered false .stopped marks12);
      s.quiet ∧ (∀ b ∈ route12.path, s.occupiedOrHeld b = false)) ∧
    (withChannel (holding (.entered false .stopped marks12)) 33 { Channel.initial with held := true }).occupiedOrHeld 33 = true ∧
    inRun.work = Work.none ∧ tget inRun.routes 12 = .free .none ∧ tget waiting.routes 12 = .queued .host 1000 ∧
    ((holding (.cancelling 31000000 marks12)).quiet ∧
      tget (holding (.cancelling 31000000 marks12)).routes 12 = .cancelling 31000000 marks12) := by decide +kernel

theorem witness_StackAndOverlapExpiry :
    tget inRun.routes 12 = .free .none ∧ ({ inRun.params with stackTimeout := 0 } : Params).stackTimeout = 0 ∧
    (waiting.noRun ∧ tget waiting.routes 12 = .queued .host 1000 ∧ waiting.params.stackTimeout ≠ 0) ∧
    (let s := holding (.entered false (.running 16000000) ⟨[true, true, false], false⟩);
      s.quiet ∧ tget s.tables.routes 12 = some route12 ∧
        tget s.routes 12 = .entered false (.running 16000000) ⟨[true, true, false], false⟩) ∧
    (Marks.mk [true, true, false] false).path.all id = false ∧ (Marks.mk [true, true, true] false).path.all id = true := by
  decide +kernel

theorem witness_RoutesAreEnteredAndReleased :
    (let s := withChannel (holding (.isSet true false marks12)) 31 ⟨false, 2, false, false, some 1500000⟩;
      s.quiet ∧ s.mode ≠ .config ∧ tget s.tables.routes 12 = some route12 ∧ route12.path.head? = some 31 ∧
      (tget s.tables.blocks 31).isSome = true ∧ s.becomesOccupied 31 (plain (.blockEnd 30 .e1) (.pointLeg 20 .toe)) 40 ∧
      s.becomesOccupied 31 (plain (.blockEnd 30 .e1) (.pointLeg 20 .toe)) 255 ∧
      (withFeed s 31 { Feed.initial with state := .on }).becomesOccupied 31 (plain (.blockEnd 30 .e1) (.pointLeg 20 .toe)) 255 ∧
      (withChannel s 31 ⟨false, 0, false, true, none⟩).becomesOccupied 31
        { plain (.blockEnd 30 .e1) (.pointLeg 20 .toe) with dwellOn := 1 } 40 ∧
      tget s.routes 12 = .isSet true false marks12) ∧
    tget (holding (.cancelling 31000000 marks12)).routes 12 = .cancelling 31000000 marks12 ∧
    ((tget layout.routes 17).map (fun d => (d.path.length, d.overlap)) = some (1, [36])) ∧
    (let s := withChannel (holding (.entered false .stopped marks12)) 32 occupied;
      tget s.tables.routes 12 = some route12 ∧ tget s.routes 12 = .entered false .stopped marks12 ∧ route12.path[0]? = some 31 ∧
      marks12.path.length = route12.path.length ∧ marks12.path[0]? = some false ∧ s.isClear 31 = true ∧
      route12.path[0 + 1]? = some 32 ∧ s.occupiedOrHeld 32 = true) ∧
    (holding (.entered false .stopped marks12)).occupiedOrHeld 32 = false ∧ route12.path[2 + 1]? = none ∧
    marks12.path[1]? ≠ some true := by decide +kernel

/-- Route 12 ENTERED with these path blocks released, train 4471 on these blocks, and the other blocks OCCUPIED. -/
def under (m : Marks) (l : List (Fin 48)) (b : Fin 48) (c : Channel) : State :=
  { withTrain (holding (.entered false .stopped m)) l with
    channels := tset (tset (tset (tset inRun.channels 31 occupied) 32 occupied) 33 occupied) b c }

/-- Block 31 clears at the tail of the train and in no train's list, block 32 occupied. -/
theorem witness_clearedBlocksAreReleased :
    (let s := under marks12 [32, 31] 31 { occupied with count := 11 };
      s.quiet ∧ s.mode ≠ .config ∧ tget s.tables.routes 12 = some route12 ∧ tget s.routes 12 = .entered false .stopped marks12 ∧
      route12.path[0]? = some 31 ∧ route12.path.Nodup ∧ marks12.path.length = route12.path.length ∧
      marks12.path[0]? = some false ∧ route12.path[1]? = some 32 ∧ s.occupiedOrHeld 32 = true ∧
      s.becomesClear 31 (plain (.blockEnd 30 .e1) (.pointLeg 20 .toe)) 31 ∧
      tget s.trains 0 = .active 4471 ([] ++ [⟨32, .e1⟩, ⟨31, .e1⟩]) none false ∧ s.bridged 32 = false ∧
      (tget s.blockFlags 31).stray = none ∧ (∀ q, q ≠ 0 → 31 ∉ s.listOf q) ∧
      (∀ q, q ≠ 12 → (tget s.routes q).holds = false) ∧ (tget s.channels 32).occupied = true) ∧
    let s : State := { under marks12 [32, 31] 31 { occupied with count := 11 } with trains := inRun.trains };
      (∀ t, 31 ∉ s.listOf t) ∧ s.becomesClear 31 (plain (.blockEnd 30 .e1) (.pointLeg 20 .toe)) 31 := by decide +kernel

/-- Train 4471 on blocks 33 to 31 with block 32 bridged, and block 31 released or not. -/
def removing (first : Bool) : State :=
  { under ⟨[first, false, false], false⟩ [33, 32, 31] 32 { occupied with occupied := false } with
    blockFlags := tset inRun.blockFlags 32 ⟨none, true⟩ }

theorem removing_trainsSound (first : Bool) : (removing first).trainsSound :=
  have h : (removing false).trainsSound := trainsSound_of_check (by decide +kernel)
  h

/-- REMOVE_TRAIN frees block 32, with block 31 released or not. -/
theorem witness_removedTrainsAreReleased :
    ∀ first : Bool, (removing first).trainsSound ∧ (removing first).quiet ∧ (removing first).hears 1 ∧
      Train.number (tget (removing first).trains 0) = some 4471 ∧ 32 ∈ (removing first).listOf 0 ∧
      tget (removing first).routes 12 = .entered false .stopped ⟨[first, false, false], false⟩ ∧
      route12.path[1]? = some 32 ∧ route12.path[2]? = some 33 ∧ (removing first).occupiedOrHeld 33 = true ∧
      (tget (removing first).channels 32).occupied = false ∧ (tget (removing first).channels 33).occupied = true ∧
      (∀ q, q ≠ 12 → (tget (removing first).routes q).holds = false) ∧ (tget (removing first).blockFlags 32).stray = none ∧
      ∀ a ∈ (removing first).listOf 0, a ≠ 32 → (tget (removing first).channels a).occupied = true := by
  intro first
  refine ⟨removing_trainsSound first, ?_⟩
  revert first
  decide +kernel

/-- Route 12 ENTERED with these path blocks released and this overlap timer, and block `b` one sample short of OCCUPIED, the others
of its path CLEAR but for `stands`. -/
def advancing (first : Bool) (timer : OverlapTimer) (stands : List (Fin 48)) (b : Fin 48) : State :=
  { holding (.entered false timer ⟨[first, false, false], false⟩) with
    channels := tset (tgen 48 fun a => if a ∈ stands then occupied else Channel.initial) b ⟨false, 2, false, false, some 1500000⟩ }

/-- Block 32 becomes OCCUPIED with block 31 clear and not; block 33 does with block 31 released and not, and with the timer stopped
and running. -/
theorem witness_occupiedBlocksReleaseTheOneBefore :
    (∀ stands ∈ ([[], [31]] : List (List (Fin 48))), let s := advancing false .stopped stands 32;
      s.quiet ∧ s.mode ≠ .config ∧ tget s.tables.routes 12 = some route12 ∧
      tget s.routes 12 = .entered false .stopped marks12 ∧ route12.path[0]? = some 31 ∧ route12.path[0 + 1]? = some 32 ∧
      route12.path.Nodup ∧ marks12.path.length = route12.path.length ∧ marks12.path[0 + 1]? = some false ∧
      (∀ q, q ≠ 12 → (tget s.routes q).holds = false) ∧ (tget s.tables.blocks 32).isSome = true ∧
      s.becomesOccupied 32 (plain (.pointLeg 20 .reverse) (.blockEnd 33 .e0)) 40 ∧ s.isClear 31 = stands.isEmpty) ∧
    (∀ first : Bool, ∀ timer ∈ ([.stopped, .running 16000000, .expired] : List OverlapTimer),
      let s := advancing first timer [] 33;
      s.quiet ∧ tget s.routes 12 = .entered false timer ⟨[first, false, false], false⟩ ∧ route12.path[1]? = some 32 ∧
      route12.path[1 + 1]? = some 33 ∧ 1 + 2 = route12.path.length ∧ route12.overlap ≠ [] ∧ s.isClear 32 = true ∧
      s.becomesOccupied 33 { plain (.blockEnd 32 .e1) (.blockEnd 34 .e0) with kind := .stop 7, restartGroup := 2 } 40) := by
  decide +kernel

/-- R98, R99: block 33 becomes OCCUPIED behind the train: block 32 is released, with nothing of point 20, whose index is 0, and the
overlap timer starts; block 32 does: block 31 is released, and point 20 with it. -/
theorem test_release_behind :
    (let t := did (sampleOf 0 33 40) (bare (advancing true .stopped [] 33));
      tget t.routes 12 = .entered false (.running 16000000) ⟨[true, true, false], false⟩ ∧ tget t.reservers 32 = none ∧
      (tget t.points 20).locks = 1 ∧ (tget t.points 21).locks = 1) ∧
    (let t := did (sampleOf 0 32 40) (bare (advancing false .stopped [] 32));
      tget t.routes 12 = .entered false .stopped ⟨[true, false, false], false⟩ ∧ tget t.reservers 31 = none ∧
      (tget t.points 20).locks = 0 ∧ (tget t.points 21).locks = 1) := by decide +kernel

theorem witness_AspectFollowsTheRule :
    tget layout.signals 5 = none ∧ tget layout.signals 4 = some ⟨30, .e1, 3, 0, 0⟩ ∧ loaded.mode = .config ∧
    (tget inRun.modules 0).state ≠ .online ∧ inHalt.mode.isHalt = true ∧
    (let s := holding (.isSet true false marks12);
      s.mode = .run ∧ (tget s.modules 0).state = .online ∧ (tget s.signals 4).control = some 12 ∧
      tget s.routes 12 = .isSet true false marks12 ∧ (∀ b ∈ route12.path ++ route12.overlap, s.isClear b = true) ∧
      route12.approach = none ∧ (withChannel s 34 occupied).isClear 34 = false) ∧
    (tget ready.signals 4).control = none := by decide +kernel

/-- Signal 4 awaits its release for route 16, which is SET. -/
def awaiting : State :=
  { holding (.free .none) with
    routes := tset ready.routes 16 (.isSet true false marks12)
    signals := tset ready.signals 4 { SignalRec.initial with control := some 16, release := some false, timer := some 21000000 } }

theorem witness_ApproachControlReleases :
    (tget inRun.signals 4).timer = none ∧ (awaiting.work = Work.none ∧ (tget awaiting.signals 4).timer = some 21000000) ∧
    (tget awaiting.tables.signals 4 = some ⟨30, .e1, 3, 0, 0⟩ ∧ (tget awaiting.signals 4).release = some false ∧
      (tget awaiting.signals 4).control = some 16 ∧
      (tget awaiting.tables.routes 16).bind (·.approach) = some ⟨250, 2, 20⟩) ∧
    awaiting.neighbour 29 .e1 = some (30, Side.e1.other) ∧ 250 ≤ 250 ∧ 250 < 251 ∧ (tget inRun.signals 4).release = none := by
  decide +kernel

/-- Block 30 becomes OCCUPIED, and CLEAR, in front of signal 4. -/
theorem witness_approachTimer :
    awaiting.quiet ∧ awaiting.mode ≠ .config ∧ tget awaiting.routes 16 = .isSet true false marks12 ∧
    (30 : Fin 48) ∉ route12.path ∧ (∀ q, q ≠ 16 → (tget awaiting.routes q).holds = false) ∧
    tget awaiting.tables.blocks 30 = some (plain (.blockEnd 29 .e1) (.blockEnd 31 .e0)) ∧
    (withChannel awaiting 30 ⟨false, 2, false, false, none⟩).becomesOccupied 30 (plain (.blockEnd 29 .e1) (.blockEnd 31 .e0)) 40 ∧
    (withChannel awaiting 30 { occupied with count := 11 }).becomesClear 30 (plain (.blockEnd 29 .e1) (.blockEnd 31 .e0)) 31 := by
  decide +kernel

theorem witness_ScaleSpeedIsRounded :
    10 ≤ 10 ∧ 10 ≤ 2000 ∧ 1 ≤ 1 ∧ 1 ≤ 220 ∧ 0 ≤ 10000000 ∧ 10000000 ≤ 10000000 ∧
    2 * 480000 * 653 ≤ 72000 * 87 * 100 + 480000 ∧ 72000 * 87 * 100 + 480000 < 2 * 480000 * (653 + 1) := by decide

/-- Trap 2 (gates 4 and 5, edge count 1) in a state, with its gates' filters. -/
def timed (x : TrapState) (a b : Filter) : State :=
  { inRun with
    traps := tset inRun.traps 2 { TrapRec.initial with state := x }
    filters := tset (tset inRun.filters 4 a) 5 b }

theorem witness_GateEdgesTimeTrains :
    inRun.work = Work.none ∧ loaded.mode = .config ∧ tget inRun.tables.traps 0 = none ∧ inRun.mode ≠ .config ∧
    tget inRun.tables.traps 1 = some ⟨300, 2, 50, 22, .e1⟩ ∧ (tget inRun.filters 2 = .quiet ∧ 1 < 2) ∧
    (tget (timed .idle (.counting 1 1050000) .quiet).filters 4 = .counting 1 1050000) ∧ 2 ≤ 1 + 1 ∧
    tget inRun.tables.traps 2 = some ⟨100, 1, 50, 30, .e1⟩ ∧ (tget (timed .idle .quiet .quiet).filters 4 = .quiet ∧ 1 ≤ 1) ∧
    (tget (timed .idle .quiet .quiet).traps 2).state = .idle ∧
    tget (timed .idle (.spent 1050000) .quiet).filters 4 = .spent 1050000 ∧
    (tget (timed (.timing .ab 1000000 false 11000000) .quiet .quiet).traps 2).state = .timing .ab 1000000 false 11000000 ∧
    (tget (timed .holdoff .quiet .quiet).traps 2).state = .holdoff ∧ inRun.noRun ∧
    ((timed (.timing .ab 1000000 false 11000000) .quiet .quiet).noRun ∧
      tget (timed (.timing .ab 1000000 false 11000000) .quiet (.counting 1 1050000)).filters 5 = .counting 1 1050000 ∧ 1 ≤ 1 + 1) ∧ (5 : Fin 8).val / 2 = (2 : Fin 4).val ∧
    (5 : Fin 8).val % 2 = 1 := by decide +kernel

theorem witness_GateTimersRunOut :
    tget inRun.filters 4 = .quiet ∧ tget (timed .idle (.counting 1 1050000) .quiet).filters 4 = .counting 1 1050000 ∧
    (tget (timed .holdoff (.spent 1050000) .quiet).filters 4 = .spent 1050000 ∧
      (tget (timed .holdoff (.spent 1050000) .quiet).traps 2).state = .holdoff ∧
      tget (timed .holdoff (.spent 1050000) .quiet).filters 5 = .quiet) ∧
    (tget inRun.traps 2).state = .idle ∧
    (tget (timed (.timing .ba 1000000 true 11000000) .quiet .quiet).traps 2).state = .timing .ba 1000000 true 11000000 := by
  decide +kernel

theorem witness_DeckDistances :
    2 ≤ turntable.r ∧ turntable.r % 2 = 0 ∧ 1200 < turntable.r ∧ 6399 < turntable.r ∧ turntable.barrier = false ∧
    ({ turntable with barrier := true } : TurntableDef).barrier = true ∧ turntable.r - 1 < 6000 + 1600 ∧ 0 ≤ 6399 := by decide

theorem witness_MoveIsChosenAndRamped :
    2 ≤ turntable.r ∧ turntable.r % 2 = 0 ∧ 1200 < turntable.r ∧ 6000 < turntable.r ∧ turntable.barrier = false ∧
    ({ turntable with barrier := true } : TurntableDef).allowed 6000 4800 .reverse = true ∧ turntable.vMin ≤ turntable.vMax ∧
    1 ≤ 1 ∧ turntable.vMin + turntable.increment * min 3 (4 - 1) ≤ turntable.vMax ∧
    turntable.vMax ≤ turntable.vMin + turntable.increment * min 4 (5 - 1) ∧ 16 ≤ 16 ∧ 20000 ≤ 20000 := by decide

/-- The deck at road 7 with nothing else under way. -/
def at7 : State := withDeck inRun deckAt7

/-- A route whose path holds the deck block, holding its elements. -/
def deckHeld : State :=
  { withRoute at7 14 (.setting false ⟨[false], true⟩) with
    tables := { layout with routes := tset layout.routes 14 (some ⟨7, none, [47], [], [], [], none, none, false⟩) } }

theorem witness_TurnAndHomeStart :
    (inHalt.hears 1 ∧ inHalt.mode ≠ .run) ∧ (at7.hears 1 ∧ at7.mode = .run) ∧ 24 ≤ 24 ∧ tget at7.tables.roads 23 = none ∧
    at7.tables.turntable = some turntable ∧ tget at7.tables.roads 3 = some ⟨1200, 40⟩ ∧
    (withDeck inRun { deckAt7 with state := .unlocking move3 2500000 }).deck.state.busy = true ∧ inRun.deck.state = .unhomed ∧
    at7.deck.state = .idle ∧
    ((tget deckHeld.routes 14).holds = true ∧
      (tget deckHeld.tables.routes 14).map (fun d => decide (turntable.deckBlock ∈ d.path)) = some true) ∧
    (let s := withChannel (withChannel at7 47 occupied) 41 occupied;
      (tget s.channels turntable.deckBlock).occupied = true ∧ s.deck.joined = some ⟨7, .a⟩ ∧
      s.tables.fromDeck ⟨7, .a⟩ .e0 = some (41, .e0) ∧ (tget s.channels 41).occupied = true) ∧
    (∀ r, (tget at7.routes r).holds = false) ∧ (tget at7.channels turntable.deckBlock).occupied = false ∧ at7.still ∧
    (at7.deck.joined = some ⟨7, .a⟩ ∧ at7.deck.joined ≠ some ⟨3, .a⟩ ∧ at7.deck.joined ≠ some ⟨3, .b⟩) ∧
    at7.deck.boltOut = false ∧ at7.deck.pos = some 6000 ∧
    bestOf (turntable.candidates 6000 1200 .any) = some ⟨.a, 1200, .forward, 1600⟩ ∧ at7.deck.state.busy = false ∧
    (¬ (DeckAsk.b = .any ∨ (DeckAsk.b = .a ∧ DeckEnd.a = .a) ∨ (DeckAsk.b = .b ∧ DeckEnd.a = .b)) ∧
      bestOf (turntable.candidates 6000 6000 .b) = some ⟨.b, 2800, .forward, 3200⟩) := by
  decide +kernel

/-- TURN and HOME with the bolt-out contact closed: to road 3 from road 7 after a move either way, to road 3 from its own position,
and a homing from UNHOMED and from IDLE. -/
theorem witness_boltIsOutAlready :
    (∀ last ∈ ([none, some .forward, some .reverse] : List (Option StepDir)),
      let s := withDeck inRun { deckAt7 with boltOut := true, lastDir := last };
      s.hears 1 ∧ s.still ∧ s.mode = .run ∧ s.tables.turntable = some turntable ∧ s.deck.boltOut = true ∧
      (tget s.channels turntable.deckBlock).occupied = false ∧ s.deck.state = .idle ∧ s.deck.state.busy = false ∧
      s.deck.joined = some ⟨7, .a⟩ ∧ s.deck.pos = some 6000) ∧
    bestOf (turntable.candidates 6000 1200 .any) = some ⟨.a, 1200, .forward, 1600⟩ ∧
    (let s := withDeck inRun { deckAt7 with boltOut := true, state := .stopped, align := none, locked := false, pos := some 1200 };
      s.still ∧ s.deck.state = .stopped ∧ s.deck.joined = none ∧ s.deck.pos = some 1200 ∧
      (bestOf (turntable.candidates 1200 1200 .any)).map (·.distance) = some 0) ∧
    (let s := withDeck inRun { Deck.initial with boltOut := true };
      s.still ∧ s.deck.state = .unhomed ∧ s.deck.lastDir ≠ some .reverse) := by decide +kernel

theorem witness_BoltAndSettling :
    at7.still ∧ at7.tables.turntable = some turntable ∧ at7.deck.boltOut = false ∧ at7.deck.boltIn = true ∧
    ((decked (.unlocking { move3 with distance := 0 } 2500000)).still ∧ ({ move3 with distance := 0 } : MoveRec).distance = 0) ∧
    (0 < move3.distance ∧ (decked (.unlocking move3 2500000)).deck.pos = some 6000 ∧
      (decked (.unlocking move3 2500000)).deck.lastDir = some move3.dir.other) ∧
    (withDeck inRun { deckAt7 with lastDir := some .forward }).deck.lastDir = some move3.dir ∧
    ((decked (.homing true 0 (.bolt 2500000))).still ∧ (decked (.homing true 0 (.bolt 2500000))).deck.lastDir = some .reverse) ∧
    inRun.deck.lastDir ≠ some .reverse ∧ (withDeck inRun { deckAt7 with boltOut := true }).deck.boltOut = true ∧
    ((decked (.locking move3 2500000)).still ∧ (decked (.locking move3 2500000)).deck.boltIn = false) ∧
    (at7.deck.align.isSome = true ∧ at7.deck.locked = !false) ∧ (decked .stopped).deck.state ≠ .idle ∧
    (decked (.settling move3 (.settle 1300000))).deck.state = .settling move3 (.settle 1300000) ∧
    ((decked (.settling move3 (.relay 1100000))).still ∧ (decked (.settling move3 (.relay 1100000))).deck.boltIn = false) ∧
    (withDeck inRun { deckAt7 with state := .settling move3 (.relay 1100000), boltIn := true }).deck.boltIn = true := by
  decide +kernel

/-- The bolt going home at the end of a move for route 19, in SETTING, and for show 1, in its PAUSE. -/
def locking (o : TurnOrigin) : State :=
  { withDeck (if o = .showing 1 then
      withShow overDeck 1 ⟨.running ⟨.host, 0, .pause, some 6000000, [], true⟩, none, 4⟩
      else withRoute overDeck 19 (.setting true ⟨[false, false], true⟩))
    { deckAt7 with state := .locking { move3 with origin := o } 2500000, align := none, locked := false, boltIn := false } with
    mode := .run }

theorem witness_outcomeReachesItsOrigin :
    (let s := locking (.route 19);
      s.tables.turntable = some turntable ∧ s.queue = [] ∧ s.work = Work.none ∧
      s.deck.state = .locking { move3 with origin := .route 19 } 2500000 ∧ s.runningShow = none ∧
      tget s.routes 19 = .setting true ⟨[false, false], true⟩ ∧ s.deck.boltIn = false ∧
      (tget s.tables.routes 19).map (·.turntable) = some (some ⟨3, .a⟩) ∧ s.hears 1 ∧ s.mode ≠ .config ∧
      ∀ q, q ≠ 19 → (tget s.routes q).holds = false) ∧
    (let s := locking (.showing 1);
      s.queue = [] ∧ s.work = Work.none ∧ s.deck.state = .locking { move3 with origin := .showing 1 } 2500000 ∧
      (s.runningShow.map (·.1)) = some 1 ∧ (∀ r, (tget s.routes r).holds = false) ∧
      (tget s.shows 1).state = .running ⟨.host, 0, .pause, some 6000000, [], true⟩ ∧
      (tget s.tables.shows 1)[0]? = some (.pause 5000) ∧ s.deck.boltIn = false ∧ s.hears 1 ∧ s.showQueue = []) := by
  decide +kernel

theorem witness_DeckStepsAndIndex :
    (decked (.moving move3 (.deadtime 1100000))).still ∧ (decked (.moving move3 (.deadtime 1100000))).deck.pos = some 6000 ∧
    (decked (.homing false 0 (.deadtime 1100000))).still ∧ (decked (.moving move3 (.ramp 100 10000 1010000))).still ∧
    turntable.dist ((1199 + 1) % turntable.r) 1200 .forward = 0 ∧ turntable.dist ((6399 + 1) % turntable.r) 1200 .forward ≠ 0 ∧
    (decked (.moving move11 (.reversal 2 1100000))).still ∧ (decked (.moving move11 (.creep 1 1010000))).still ∧ 1 ≤ 1 ∧ 1 < 2 ∧
    (decked (.homing true 0 (.search 1010000))).still ∧ 4 * (7998 + 1) < 5 * turntable.r ∧
    5 * turntable.r ≤ 4 * (7999 + 1) ∧ 4 * (2001 + 1) < 5 * 1602 ∧ 5 * 1602 ≤ 4 * (2002 + 1) ∧ at7.still ∧
    ((decked (.moving move3 (.ramp 100 10000 1010000))).deck.state = .moving move3 (.ramp 100 10000 1010000)) ∧
    turntable.barrier = false ∧
    (let s : State := { at7 with tables := { layout with turntable := some { turntable with barrier := true } } };
      s.still ∧ s.tables.turntable.map (·.barrier) = some true) ∧
    (8 : Int).natAbs ≤ turntable.tolerance ∧ turntable.tolerance < (-9 : Int).natAbs ∧
    turntable.dist 0 0 .forward = 0 ∧ turntable.dist 0 3200 .forward ≤ turntable.r / 2 ∧
    turntable.r / 2 < turntable.dist 0 3201 .forward := by decide +kernel

theorem witness_KillAndBoltTimeout :
    (loaded.hears 1 ∧ loaded.mode = .config) ∧
    (let s : State := { inRun with tables := { layout with turntable := none } };
      s.hears 1 ∧ s.mode ≠ .config ∧ s.tables.turntable = none) ∧
    (at7.hears 1 ∧ at7.mode ≠ .config ∧ at7.tables.turntable = some turntable ∧ at7.still ∧ at7.deck.state.busy = false) ∧
    (decked (.homing true 3 (.search 1010000))).still ∧ (decked (.unlocking move3 2500000)).still ∧
    (decked (.settling move3 (.settle 1300000))).still ∧ (decked (.locking move3 2500000)).still ∧
    (decked (.moving move3 (.deadtime 1100000))).still ∧ (decked (.moving move11 (.reversal 2 1100000))).still ∧
    (decked (.moving move11 (.creep 2 1010000))).still ∧ (decked (.moving move3 (.ramp 200 5000 1005000))).still ∧
    200 ≤ 2 * turntable.vMin ∧ ¬ 201 ≤ 2 * turntable.vMin ∧ (decked (.homing true 0 (.bolt 2500000))).still := by
  refine ⟨by decide +kernel, by decide +kernel, by decide +kernel, ?_⟩
  decide +kernel

/-- The modules of the layout ONLINE, a first part of each pending. -/
def served (bus : Bus) : State :=
  { inRun with
    modules := tgen 24 fun m =>
      if (tget layout.modules m).isSome then { online with parts := [⟨[0, 0], true⟩], pollDue := true } else ModuleRec.initial
    bus := bus }

theorem witness_PanelWorkIsServed :
    loaded.mode = .config ∧ (withBus inRun (.recovery false)).bus.state ≠ .free ∧
    ((served { Bus.initial with calls := [(.dangerAll, 2)] }).work = Work.none ∧
      (served { Bus.initial with calls := [(.dangerAll, 2)] }).mode ≠ .config ∧
      (served { Bus.initial with calls := [(.dangerAll, 2)] }).bus.recovered = false) ∧
    (served { Bus.initial with calls := [(.dangerAll, 2)], recovered := true }).bus.recovered = true ∧
    ((served { Bus.initial with safety := [0] }).bus.calls = [] ∧
      (tget (served { Bus.initial with safety := [0] }).modules 0).parts[0]? = some ⟨[0, 0], true⟩) ∧
    ((served { Bus.initial with prove := [2] }).bus.safety = [] ∧
      (tget (served { Bus.initial with prove := [2] }).modules 2).state = .online) ∧
    (served { Bus.initial with keys := [5] }).bus.prove = [] ∧ (served { Bus.initial with mimic := [7] }).bus.keys = [] ∧
    (served { Bus.initial with text := [6] }).bus.mimic = [] ∧ (served Bus.initial).bus.text = [] ∧
    (tget inRun.modules 2).proveTimer = none ∧
    (tget (withModule inRun 2 { online with proveTimer := some 1250000 }).modules 2).proveTimer = some 1250000 ∧
    (tget inRun.modules 5).pollTimer = none ∧
    (tget (withModule inRun 5 { online with pollTimer := some 1040000 }).modules 5).pollTimer = some 1040000 ∧
    (tget inRun.modules 7).probeTimer = none ∧
    (tget (withModule inRun 7 { online with probeTimer := some 2000000 }).modules 7).probeTimer = some 2000000 ∧
    (tget inRun.tables.modules 2).isSome = true ∧ (withBus inRun (.recovery true)).bus.state = .recovery true ∧
    inRun.bus.state = .free := by decide +kernel

/-- The lines held low before a write of module 0 with this many failures in a row, and before a probe of module 7 OFFLINE. -/
theorem witness_stuckBusFailsTheWork :
    (∀ n ∈ [0, 1, 2], ∀ recovered ∈ [false, true],
      let s := withModule (served { Bus.initial with safety := [0], recovered := recovered }) 0
        { online with consecutive := n, parts := [⟨[0, 1], true⟩] };
      s.work = Work.none ∧ s.mode ≠ .config ∧ s.bus.state = .free ∧ s.nextWork = some (.write 0 0 [0, 1]) ∧
      s.bus.recovered = recovered ∧ (tget s.modules 0).state ≠ .offline ∧ (tget s.modules 0).consecutive = n) ∧
    (let s := withModule (served { Bus.initial with prove := [7], recovered := true }) 7
        { ModuleRec.initial with state := .offline, consecutive := 3, probeDue := true, parts := [⟨[1], false⟩, ⟨[2], false⟩] };
      s.nextWork = some (.probe 7 [1]) ∧ (tget s.modules 7).state = .offline ∧ (tget layout.modules 7).map (·.type) = some .mimic) ∧
    (served { Bus.initial with prove := [2] }).nextWork = some (.readBack 2) ∧
    (served { Bus.initial with keys := [5] }).nextWork = some (.poll 5) := by decide +kernel

/-- The panel brought up with signal 4 at DANGER on module 0, whose output image is pending; and a probe of module 2 due. -/
def panel (bus : BusState) : State :=
  (withBus (withModule { inRun with
    bus := { Bus.initial with prove := [2] }
    signals := tset inRun.signals 4 { SignalRec.initial with aspect := .danger } } 0
      { online with parts := [⟨[0, 1], true⟩] }) bus).settlePanel

/-- The start of a write, a write that fails and a probe that succeeds, with the panel as the layout gives it; and each kind of key
action that names something, in RUN and in HALT. -/
theorem witness_partsCarryTheImages :
    ((panel .free).panelShows ∧ (panel .free).work = Work.none ∧ (panel .free).signalsShow ∧ (panel .free).mode ≠ .config ∧
      (panel .free).bus.state = .free ∧ (panel .free).nextWork = some (.write 0 0 [0, 1])) ∧
    (let s := panel (.busy (.write 0 0 [0, 1]));
      s.panelShows ∧ s.work = Work.none ∧ s.bus.state = .busy (.write 0 0 [0, 1]) ∧ (tget s.modules 0).state = .online ∧
      (tget s.modules 0).consecutive < 2 ∧ (tget s.modules 0).parts[0]? = some ⟨[0, 1], true⟩) ∧
    (let s := panel (.busy (.probe 2 []));
      s.panelShows ∧ s.bus.state = .busy (.probe 2 []) ∧ (tget s.modules 2).state ≠ .online ∧ (tget s.modules 2).parts.length = 1) ∧
    ((tget layout.keys 12).map (·.action) = some (.startShow 3) ∧ (tget layout.keys 13).map (·.action) = some .emergency ∧
      (tget layout.keys 14).map (·.action) = some .none ∧ (tget (tset layout.keys 12 (some ⟨5, 3, .visitorRoute 13⟩)) 12).map
        (·.action) = some (KeyAction.visitorRoute 13)) := by decide +kernel

/-- Module 2 ONLINE with this many failures in a row, a transaction under way. -/
def served2 (n : Nat) (w : Transaction) : State := withBus (withModule inRun 2 { online with consecutive := n, lastSent := some 0x0060 }) (.busy w)

theorem witness_TransactionOutcomes :
    inRun.work = Work.none ∧
    ((served { Bus.initial with state := .busy (.call .dangerAll), calls := [(.dangerAll, 1)] }).bus.state =
      .busy (.call .dangerAll) ∧ (tget layout.modules 2).map (·.type) = some .lamp ∧
      (tget (served Bus.initial).modules 2).state = .online ∧ (tget (served Bus.initial).modules 2).parts.length = 1) ∧
    ((served2 0 (.write 2 0 [0, 0x60])).bus.state = .busy (.write 2 0 [0, 0x60]) ∧ (served2 0 (.write 2 0 [0, 0x60])).work = Work.none) ∧
    (tget layout.modules 7).map (·.type) = some .mimic ∧
    (let s := withBus (withModule inRun 2 { ModuleRec.initial with state := .offline, consecutive := 3 }) (.busy (.probe 2 [0]));
      s.bus.state = .busy (.probe 2 [0]) ∧ (tget s.modules 2).state ≠ .online ∧ (tget s.modules 2).state = .offline) ∧
    ((tget (served2 1 (.readBack 2)).modules 2).lastSent = some 0x0060 ∧
      (tget (served2 1 (.readBack 2)).modules 2).lastSent ≠ some 0 ∧ (tget (served2 1 (.readBack 2)).modules 2).consecutive < 2) ∧
    ((served2 2 (.readBack 2)).bus.state = .busy (.readBack 2) ∧ (tget (served2 2 (.readBack 2)).modules 2).state = .online ∧
      (tget (served2 2 (.readBack 2)).modules 2).consecutive = 2) ∧
    (tget (served2 2 (.poll 2)).modules 2).consecutive = 2 ∧ (tget (served2 2 (.poll 2)).modules 2).state ≠ .offline ∧
    (BusCause.stuck ≠ .noAck ∧ 1 + 1 < 3 ∧ ¬ 2 + 1 < 3) ∧ inRun.bus.state = .free := by decide +kernel

/-- A free bus, both general calls, and every kind of transaction with a module of each type (LAMP 2, KEYS 5, TEXT 6, MIMIC 7). -/
theorem witness_busCarriesTheBytes :
    inRun.bus.state = .free ∧ (withBus inRun (.busy (.call .resetOutputs))).bus.state = .busy (.call .resetOutputs) ∧
    (([2, 5, 6, 7] : List (Fin 24)).map fun m => (tget inRun.tables.modules m).map (·.type)) =
      [some .lamp, some .keys, some .text, some .mimic] ∧
    (withBus inRun (.busy (.write 7 11 [0, 1]))).bus.state = .busy (.write 7 11 [0, 1]) ∧
    (withBus inRun (.busy (.probe 6 [0x20]))).bus.state = .busy (.probe 6 [0x20]) := by decide +kernel

/-- A read-back that differs, one and two failures in. -/
theorem witness_mismatch : ∀ n ∈ [0, 1],
    let s := withBus (withModule (served Bus.initial) 2
      { online with parts := [⟨[0, 0], false⟩], consecutive := n, lastSent := some 0x0060 }) (.busy (.readBack 2));
    s.work = Work.none ∧ (tget s.modules 2).lastSent ≠ some 0 ∧ (tget s.modules 2).state = .online ∧
      (tget s.modules 2).consecutive < 2 ∧ (tget s.modules 2).parts ≠ [] ∧ (tget s.tables.modules 2).map (·.type) = some .lamp := by
  decide +kernel

/-- A read-back and a poll at the head of their lists. -/
theorem witness_workStaysDue :
    let s : State := withModule (served { Bus.initial with prove := [2, 0], keys := [5], state := .busy (.readBack 2) }) 2
      { online with readBackDue := true };
    s.bus.prove.head? = some 2 ∧ (tget s.modules 2).readBackDue = true ∧ (tget s.modules 2).state ≠ .offline ∧
      (tget s.modules 2).consecutive < 2 ∧ (tget s.tables.modules 2).isSome = true ∧
      s.bus.keys.head? = some 5 ∧ (tget s.modules 5).pollDue = true := by decide +kernel

/-- Module 5 polled, each key having been read like this once before where its count is 1. -/
def polled (k : Fin 16) (x : KeyState) : State :=
  withBus (withModule inRun 5 { online with keys := tset online.keys k x, pollDue := true }) (.busy (.poll 5))

/-- Key 4 (EMERGENCY), key 5 (NONE) and key 6 (not bound), each read down once before or not. -/
theorem witness_KeyPollsDebounce :
    (polled 4 ⟨false, 1⟩).bus.state = .busy (.poll 5) ∧ (polled 4 ⟨false, 0⟩).work = Work.none ∧
    (∀ k : Fin 16, ¬ ((0x0010 : BitVec 16).getLsbD k.val ≠ (tget (tget (polled 4 ⟨false, 0⟩).modules 5).keys k).down ∧
      (tget (tget (polled 4 ⟨false, 0⟩).modules 5).keys k).count ≠ 0)) ∧
    ((0x0010 : BitVec 16).getLsbD 4 ≠ (tget (tget (polled 4 ⟨false, 1⟩).modules 5).keys 4).down ∧
      (tget (tget (polled 4 ⟨false, 1⟩).modules 5).keys 4).count ≠ 0 ∧
      ∀ k : Fin 16, k ≠ 4 → (tget (tget (polled 4 ⟨false, 1⟩).modules 5).keys k).count = 0) ∧
    (polled 4 ⟨false, 1⟩).noRun ∧ (polled 4 ⟨false, 1⟩).mode = .run ∧ tget layout.keys 13 = some ⟨5, 4, .emergency⟩ ∧
    tget layout.keys 14 = some ⟨5, 5, .none⟩ ∧ (0x0020 : BitVec 16).getLsbD 5 = true ∧
    (∀ b, (tget layout.keys b).map (fun d => (d.panel, d.key)) ≠ some (5, 6)) ∧
    (tget (tget (polled 5 ⟨true, 1⟩).modules 5).keys 5).down = true ∧ (0 : BitVec 16).getLsbD 5 = false := by decide +kernel

/-- Key 3 of module 5 read down once before, bound as binding 15. -/
def bound (x : KeyAction) (held : Timer) : State :=
  let s := polled 3 ⟨false, 1⟩
  { s with
    tables := { layout with keys := tset (tset layout.keys 12 none) 15 (some ⟨5, 3, x⟩) }
    keys := tset s.keys 15 { KeyRec.initial with holdOff := held } }

/-- Each action of a key, with the conditions of each of its results. -/
theorem witness_keyActionsAct :
    (let s := bound (.startShow 1) none;
      s.bus.state = .busy (.poll 5) ∧ s.noRun ∧ s.keyFires 5 0x0008 3 ∧ (∀ j, j ≠ 3 → ¬ s.keyFires 5 0x0008 j) ∧
      (0x0008 : BitVec 16).getLsbD 3 = true ∧ tget s.tables.keys 15 = some ⟨5, 3, .startShow 1⟩ ∧
      (∀ a, a ≠ 15 → (tget s.tables.keys a).map (fun x => (x.panel, x.key)) ≠ some (5, 3)) ∧ s.mode = .run ∧
      (tget s.keys 15).holdOff = none ∧ tget s.tables.shows 1 = [.pause 5000, .finish] ∧ (tget s.shows 1).state = .idle) ∧
    ({ bound (.startShow 1) none with mode := .halt .host } : State).mode.isHalt = true ∧
    (tget (bound (.startShow 1) (some 9000000)).keys 15).holdOff ≠ none ∧
    tget (bound (.startShow 0) none).tables.shows 0 = [] ∧
    (tget (withShow (bound (.startShow 1) none) 1 ⟨.queued .host, none, 0⟩).shows 1).state = .queued .host ∧
    (let s := bound (.visitorRoute 13) none;
      tget s.tables.routes 13 = routeAt 13 ∧ tget s.routes 13 = .free .none ∧ s.queue = [] ∧
      ({ s with
        routes := tset s.routes 13 (.queued .visitor (s.later 0).ms), queue := [13]
        channels := tset s.channels 31 occupied } : State).takeable 13 = false) ∧
    (tget layout.routes 12).map (·.visitor) = some false ∧ (tget layout.routes 13).map (·.visitor) = some true ∧
    tget layout.routes 63 = none ∧ tget waiting.routes 12 = .queued .host 1000 := by decide +kernel

/-- Keys 3 and 4 both pressed in one poll, both with these actions. -/
def pair (x : KeyAction) : State :=
  let s := withBus (withModule inRun 5 { online with
    keys := tset (tset online.keys 3 ⟨false, 1⟩) 4 ⟨false, 1⟩, pollDue := true }) (.busy (.poll 5))
  { s with tables := { layout with keys := tset (tset layout.keys 12 (some ⟨5, 3, x⟩)) 13 (some ⟨5, 4, x⟩) } }

theorem witness_twoKeysInOnePoll :
    ∀ x ∈ [KeyAction.none, .emergency],
      (pair x).noRun ∧ (pair x).mode = .run ∧ (pair x).bus.state = .busy (.poll 5) ∧
      (∀ j : Fin 16, (pair x).keyFires 5 0x0018 j ↔ j = 3 ∨ j = 4) ∧
      tget (pair x).tables.keys 12 = some ⟨5, 3, x⟩ ∧ tget (pair x).tables.keys 13 = some ⟨5, 4, x⟩ ∧
      ∀ a, a ≠ 12 → a ≠ 13 → (tget (pair x).tables.keys a).map (fun d => (d.panel, d.key)) ∉ [some (5, 3), some (5, 4)] := by
  decide +kernel

/-- Show 1 running its PAUSE. -/
def showing (o : ShowOrigin) : State := withShow inRun 1 ⟨.running ⟨o, 0, .pause, some 6000000, [], false⟩, none, 4⟩

/-- Shows 4 to 7 and 3 waiting, or four of them. -/
def showCrowd (l : List (Fin 8)) : State :=
  { showing .host with
    showQueue := l
    shows := tgen 8 fun i => if i ∈ l then ⟨.queued .host, none, 0⟩ else tget (showing .host).shows i }

theorem showing_runs (o : ShowOrigin) : (showing o).showRuns 1 := ⟨_, rfl⟩

theorem witness_ShowsRun :
    (inHalt.hears 1 ∧ inHalt.mode ≠ .run ∧ inHalt.mode ≠ .config) ∧ (loaded.hears 1 ∧ loaded.mode = .config) ∧ 8 ≤ 8 ∧
    tget inRun.tables.shows 0 = [] ∧ tget inRun.tables.shows 1 ≠ [] ∧ ((showing .host).mode = .run ∧ (showing .host).showRuns 1) ∧
    ((showCrowd [3, 4, 5, 6]).showRuns 1 ∧ ¬ (showCrowd [3, 4, 5, 6]).showRuns 2 ∧ ¬ (showCrowd [3, 4, 5, 6]).showQueued 2 ∧
      4 ≤ (showCrowd [3, 4, 5, 6]).showQueue.length) ∧
    ((showCrowd [3, 4, 5]).showQueue.length < 4 ∧ (showCrowd [3, 4, 5]).work = Work.none) ∧
    (inRun.noRun ∧ ¬ inRun.showQueued 1 ∧ tget inRun.tables.shows 1 = [.pause 5000, .finish]) ∧
    (tget inRun.shows 1).state = .idle ∧
    ((showCrowd [3, 4]).hears 1 ∧ (showCrowd [3, 4]).mode ≠ .config ∧ (showCrowd [3, 4]).work = Work.none ∧
      (showCrowd [3, 4]).showRuns 1 ∧ (tget (showCrowd [3, 4]).shows 4).state = .queued .host ∧
      tget (showCrowd [3, 4]).tables.shows 3 ≠ []) ∧
    ((showing .host).showQueue = [] ∧ (showing .host).work = Work.none ∧ (showing .host).queue = [] ∧
      (∀ j, (showing .host).showRuns j → j = 1) ∧
      (tget (showing .host).shows 1).state = .running ⟨.host, 0, .pause, some 6000000, [], false⟩) ∧
    (¬ inRun.showRuns 1 ∧ (tget (showing (.key 12)).shows 1).state = .running ⟨.key 12, 0, .pause, some 6000000, [], false⟩ ∧
      (tget (showing .host).tables.shows 1)[0 + 1]? = some .finish ∧ WaitKind.cue ≠ .pause ∧ WaitKind.cue ≠ .none) := by
  simp only [showRuns_iff, showQueued_iff]
  decide +kernel

/-- Show 1 RUNNING and show 2, whose first step is a PAUSE too, waiting behind it. -/
def succeeded : State :=
  let s := showCrowd [2]
  { s with tables := { layout with shows := tset layout.shows 2 [.pause 7, .finish] } }

/-- A STOP_SHOW with the next show waiting, and the queue's invariant in that state. -/
theorem witness_the_next_show :
    succeeded.showsSound ∧ succeeded.hears 1 ∧ succeeded.mode = .run ∧ succeeded.work = Work.none ∧
    (∀ j, succeeded.showRuns j → j = 1) ∧
    (tget succeeded.shows 1).state = .running ⟨.host, 0, .pause, some 6000000, [], false⟩ ∧ succeeded.showQueue = [2] ∧
    (tget succeeded.shows 2).state = .queued .host ∧ tget succeeded.tables.shows 2 = [.pause 7, .finish] := by
  refine ⟨showsSound_of_check (by decide +kernel), ?_⟩
  simp only [showRuns_iff]
  decide +kernel

/-- Show 1 with this first step, then a PAUSE. -/
def firstStep (y : Step) : State :=
  { withDeck inRun deckAt7 with tables := { layout with shows := tset layout.shows 1 [y, .pause 7, .finish] } }

/-- Every kind of first step, with the conditions of each of its clauses. -/
theorem witness_stepsAreExecuted :
    (let s := firstStep (.clearCue 2);
      s.hears 1 ∧ s.quiet ∧ s.mode = .run ∧ s.showQueue = [] ∧ (tget s.shows 1).state = .idle ∧
      tget s.tables.shows 1 = .clearCue 2 :: [.pause 7, .finish]) ∧
    (RouteTarget.met .isSet (tget inRun.routes 12) = false ∧ RouteTarget.met .isFree (tget inRun.routes 12) = true) ∧
    ((firstStep (.waitTurntable 5)).deck.joined ≠ none ∧ inRun.deck.joined = none) ∧
    (tget inRun.cues 2 = false ∧ tget ({ inRun with cues := tfill 16 true } : State).cues 2 = true) ∧
    (tget layout.routes 12).map (·.visitor) = some false ∧ (tget layout.routes 13).map (·.visitor) = some true ∧
    tget (firstStep (.cancel 12)).routes 12 = .free .none ∧ tget (holding (.isSet true false marks12)).routes 12 = .isSet true false marks12 ∧
    (let s := withChannel (firstStep (.route 13)) 31 occupied;
      ({ s with routes := tset s.routes 13 (.queued .visitor (s.later 0).ms), queue := [13] } : State).takeable 13 = false) ∧
    (let s := firstStep (.turn 3 .any);
      s.tables.turntable = some turntable ∧ tget s.tables.roads 3 = some ⟨1200, 40⟩ ∧ s.still ∧ s.deck.state = .idle ∧
      (tget s.channels turntable.deckBlock).occupied = false ∧ s.deck.joined = some ⟨7, .a⟩ ∧ s.deck.boltOut = false ∧
      s.deck.pos = some 6000 ∧ bestOf (turntable.candidates 6000 1200 .any) = some ⟨.a, 1200, .forward, 1600⟩) ∧
    (decked (.moving move3 (.deadtime 1100000))).deck.state.busy = true := by decide +kernel

/-- Show 2 waiting in this way at its first step, another step after it, with these routes requested. -/
def waits (w : WaitKind) (x y : Step) (l : List (Fin 64)) : State :=
  { withShow inRun 2 ⟨.running ⟨.key 12, 0, w, some 11000000, l, false⟩, none, 0⟩ with
    tables := { layout with shows := tset layout.shows 2 [x, y, .finish] }
    routes := tgen 64 fun r => if r ∈ l then .queued .visitor 1000 else .free .none
    queue := l }

/-- A PAUSE that ends at a PAUSE and at END, a wait that times out without a route and with one that is queued, and a cue that is
set while the run waits on it. -/
theorem witness_waitsAreResolved :
    (let s := waits .pause (.pause 5) (.pause 6) [];
      s.work = Work.none ∧ (∀ j, s.showRuns j → j = 2) ∧ s.showQueue = [] ∧ s.mode = .run ∧
      (tget s.shows 2).state = .running ⟨.key 12, 0, .pause, some 11000000, [], false⟩ ∧
      (tget s.tables.shows 2)[0 + 1]? = some (.pause 6)) ∧
    (tget (waits .pause (.pause 5) .finish []).tables.shows 2)[0 + 1]? = some .finish ∧
    (WaitKind.cue ≠ .pause ∧ WaitKind.cue ≠ .none) ∧
    (let s := waits .cue (.waitCue 1 10) (.pause 6) [12];
      s.work = Work.none ∧ (∀ j, s.showRuns j → j = 2) ∧ tget s.routes 12 = .queued .visitor 1000 ∧ s.showQueue = [] ∧ s.hears 1 ∧
      (tget s.tables.shows 2)[0]? = some (.waitCue 1 10) ∧ (tget s.tables.shows 2)[0 + 1]? = some (.pause 6)) ∧
    ¬ inRun.showRuns 2 := by
  simp only [showRuns_iff]
  decide +kernel

/-- Show 2 in a state, waiting in this way at its first step, a PAUSE after it. -/
def waitingAt (s : State) (w : WaitKind) (x : Step) (turn : Bool) : State :=
  { s with
    tables := { s.tables with shows := tset s.tables.shows 2 [x, .pause 6, .finish] }
    shows := tset s.shows 2 ⟨.running ⟨.key 12, 0, w, some 11000000, [], turn⟩, none, 0⟩ }

/-- A wait on a route that is cancelled, for FREE and for SET; a wait for a route whose last point moves; and a wait for the deck. -/
theorem witness_waitsAreMet :
    (∀ target ∈ [RouteTarget.isFree, .isSet],
      let s := waits .route (.waitRoute 12 target 10) (.pause 6) [12];
      s.work = Work.none ∧ (∀ j, s.showRuns j → j = 2) ∧ s.hears 1 ∧ s.mode ≠ .config ∧ WaitKind.route ≠ .none ∧
      (tget s.tables.routes 12).isSome = true ∧ tget s.routes 12 = .queued .visitor 1000 ∧ s.showQueue = [] ∧
      (tget s.tables.shows 2)[0]? = some (.waitRoute 12 target 10) ∧ (tget s.tables.shows 2)[0 + 1]? = some (.pause 6)) ∧
    (let s := waitingAt (lastMove (some 1120000) none) .route (.waitRoute 12 .isSet 10) false;
      s.work = Work.none ∧ (∀ j, s.showRuns j → j = 2) ∧ s.queue = [] ∧ tget s.routes 12 = .setting false marks12 ∧
      (tget s.groups 1).phaseTimer = some 1120000 ∧ s.feedback 20 = .none ∧
      (∀ y ∈ route12.locks, y = (20, .reverse) ∨ (y.1 ≠ 20 ∧ s.provedIn y.1 y.2 = true)) ∧
      (tget s.tables.shows 2)[0]? = some (.waitRoute 12 .isSet 10)) ∧
    (let s := waitingAt (decked (.locking { move3 with origin := .showing 2 } 2500000)) .turntable (.waitTurntable 10) true;
      s.work = Work.none ∧ (∀ j, s.showRuns j → j = 2) ∧ s.queue = [] ∧ (∀ q, (tget s.routes q).holds = false) ∧
      s.deck.state = .locking { move3 with origin := .showing 2 } 2500000 ∧ s.deck.boltIn = false ∧
      (tget s.tables.shows 2)[0]? = some (.waitTurntable 10)) := by
  simp only [showRuns_iff]
  decide +kernel

theorem witness_CuesAndHolds :
    inRun.hears 1 ∧ 16 ≤ 16 ∧ 15 = (15 : Fin 16).val ∧ inRun.noRun ∧ inRun.text.hold = none ∧
    ({ inRun with text := ⟨blankText, speedLine 412, some 31000000⟩ } : State).text.hold = some 31000000 ∧
    (tget inRun.keys 12).holdOff = none ∧
    (tget ({ inRun with keys := tset inRun.keys 12 ⟨none, 0, none, some 61000000⟩ } : State).keys 12).holdOff = some 61000000 ∧
    9999 ≤ 9999 := by decide +kernel

/-- Show 1 ABORTED at the head of the report list. -/
def abortedShow : State :=
  { withShow inRun 1 ⟨.aborted, some (.aborted 0 .timeout), 1⟩ with link := { inRun.link with reports := [.showing 1, .layout] } }

theorem witness_TransmitterSendsInOrder :
    inRun.link.tx = .free ∧ ((backlog 6).link.tx = .reply ∧ (backlog 6).link.fifo = ⟨7, .accepted⟩ :: List.replicate 5 ⟨7, .accepted⟩) ∧
    ({ inRun.link with tx := .report [0, 0] } : LinkPort).tx = .report [0, 0] ∧ inRun.link.reports = [] ∧
    ((withFeed abortedShow 0 Feed.initial).link.fifo = [] ∧ abortedShow.link.tx = .free ∧
      abortedShow.link.reports = .showing 1 :: [.layout] ∧ (tget abortedShow.shows 1).state = .aborted ∧
      Subject.showing 1 ∉ [Subject.layout]) ∧
    (let s : State := { inRun with link := { inRun.link with reports := [.block 31, .point 20] } };
      s.link.reports = .block 31 :: [.point 20] ∧ (∀ i, Subject.block 31 ≠ .showing i)) ∧
    inRun.hears 1 ∧ subjectOf 11 0 = none ∧ subjectOf 1 48 = none ∧ subjectOf 4 12 = some (.route 12) ∧
    (abortedShow.hears 1 ∧ subjectOf 9 1 = some (.showing 1) ∧ (tget abortedShow.shows 1).state = .aborted) := by decide +kernel

/-- A block under a train and one under none, a point that moves and one that waits, a proved and an unproved one, and a route in each
state. -/
theorem witness_trackReportsCarryTheirFields :
    (∀ t : Fin 24, some 0 = some t ↔ 20 ∈ live.listOf t) ∧ (∀ t : Fin 24, none = some t ↔ 21 ∈ live.listOf t) ∧
    (let s := withGroup inRun 2 ⟨.setup, some ⟨9, .reverse, 1000000, none⟩, none, [(10, .normal)], false, none, none⟩;
      (∀ l, some .reverse = some l ↔ s.movingTo 9 l) ∧ (∀ l, none = some l ↔ s.waitsFor 9 l) ∧
      (∀ l, none = some l ↔ s.movingTo 10 l) ∧ ∀ l, some .normal = some l ↔ s.waitsFor 10 l) ∧
    (live.proof 20 = some .reverse ∧ live.proof 10 = none) ∧
    tget inRun.routes 12 = .free .none ∧ tget waiting.routes 12 = .queued .host 1000 ∧
    ∀ x ∈ ([.setting false marks12, .isSet true false marks12, .entered false .stopped marks12,
        .entered true (.running 16000000) marks12, .cancelling 31000000 marks12] : List RouteRec),
      tget (holding x).routes 12 = x := by
  refine ⟨by decide +kernel, by decide +kernel, ?_, by decide +kernel⟩
  simp only [← movingTarget_eq_some, ← queuedTarget_eq_some]
  and_intros <;> intro l <;> cases l <;> decide +kernel

theorem witness_otherReportsCarryTheirFields :
    tget inRun.trains 0 = .free ∧ tget live.trains 0 = .active 4471 [⟨20, .e1⟩] none false ∧
    tget (nearing (lostAt 4471 20 0) .free).trains 0 = .lost 4471 ⟨20, .e1, 20000⟩ none false ∧
    (tget inRun.traps 1).state = .idle ∧ (tget (timed .holdoff .quiet .quiet).traps 2).state = .holdoff ∧
    (∀ dir ∈ [TrapDir.ab, .ba], (tget (timed (.timing dir 0 true 5000000) .quiet .quiet).traps 2).state =
      .timing dir 0 true 5000000) ∧
    (tget inRun.shows 1).state = .idle ∧ (tget live.shows 2).state = .queued .host ∧
    (tget abortedShow.shows 1).state = .aborted ∧
    ∀ o ∈ [ShowOrigin.host, .key 12], (tget (showing o).shows 1).state = .running ⟨o, 0, .pause, some 6000000, [], false⟩ := by
  decide +kernel

theorem witness_deckReportCarriesItsFields :
    inRun.deck.state = .unhomed ∧ at7.deck.state = .idle ∧
    ∀ x ∈ ([.homing true 12 (.search 1010000), .unlocking move3 2500000, .moving move3 (.deadtime 1100000),
        .moving move3 (.ramp 100 10000 1010000), .moving move11 (.reversal 2 1100000), .moving move11 (.creep 1 1010000),
        .settling move3 (.settle 1300000), .locking move3 2500000, .stopped, .faulted .indexError] : List DeckState),
      (decked x).deck.state = x := by decide +kernel

/-- The part with this reply at the head of the FIFO, being sent. -/
def sending (tag : Byte) (x : Reply) : State := { inRun with link := { inRun.link with fifo := [⟨tag, x⟩], tx := .reply } }

theorem witness_lineCarriesTheFrame :
    inRun.link.tx = .free ∧ ({ inRun.link with tx := .report [0, 0] } : LinkPort).tx = .report [0, 0] ∧
    ∀ x ∈ ([.ack [0, 220], .accepted, .refused .badValue, .invalid .block 23] : List Reply),
      (sending 7 x).link.tx = .reply ∧ (sending 7 x).link.fifo = ⟨7, x⟩ :: [] := by decide +kernel

/-- R33, R35, R64, R83, R107, R208: block 20 under train 4471, block 31 reserved by route 12, the train, and point 20, PROVED_REVERSE
and locked once. -/
theorem test_report_fields :
    live.fieldsOf (.block 20) = [1, 0, 0, 0, 0, 0, 0xFF, 0, 0, 0xFF] ∧
    live.fieldsOf (.block 31) = [0, 0, 0, 0, 0, 0, 0xFF, 0, 0xFF, 12] ∧
    live.fieldsOf (.train 0) =
      [1, 0x11, 0x77, 1, 20, 1, 0xFF, 0xFF, 0xFF, 0xFF, 0xFF, 0xFF, 0xFF, 0xFF, 0xFF, 0xFF, 0] ∧
    live.fieldsOf (.point 20) = [1, 0, 0xFF, 0xFF, 0, 1, 0, 1, 1] := by decide +kernel

/-- R201, R205: ACCEPTED 7, a refusal with BAD_VALUE, the refused start of chapter 1, and a report. -/
theorem test_frames_on_the_line :
    (sending 7 .accepted).onTheLine = [0x7E, 2, 0x81, 7, 0x84] ∧
    (sending 9 (.refused .badValue)).onTheLine = [0x7E, 3, 0x82, 9, 3, 0x8B] ∧
    (sending 1 (.invalid .block 23)).onTheLine = [0x7E, 6, 0x82, 1, 14, 0, 0, 23, 0x9C] ∧
    ({ inRun with link := { inRun.link with tx := .report [4, 12] } } : State).onTheLine =
      [0x7E, 4, 0xC0, 0, 4, 12, 0xCC] := by decide +kernel

theorem witness_ReceivedFramesAreExamined :
    inRun.link.rx = .hunt ∧ (List.replicate 60 (0x7E : Byte)).length ≤ 60 ∧
    (∀ x ∈ List.replicate 64 20000, x ≤ 20000) ∧ (List.replicate 64 20000).length = (List.replicate 60 (0x7E : Byte)).length + 4 ∧
    (Rx.length 1000000).lastAt = some 1000000 ∧ 1000000 + 20000 < 1020001 ∧ 1020000 ≤ 1000000 + 20000 ∧
    (2 ≤ (62 : Byte).toNat ∧ (62 : Byte).toNat ≤ 62) ∧ ¬ (63 : Byte).toNat ≤ 62 ∧ (0x2C : Byte) ≠ 0x2D := by decide +kernel

end Sys2Proof.Tests
end

section
/-! SUPPORT. Power-on, RESET, and the requests that set a caption, a text line, or place a show step. -/

namespace Sys2Proof.Machine

/-- Settles O3: each clause is what its command's meaning says. -/
theorem powerOnAndReset : Obligations.PowerOnAndReset := by
  refine ⟨fun _ _ => rfl, fun s dt tag h => ?_, fun s dt h => ?_, fun s dt h => ?_⟩
  · show s.request dt tag (.fields ()) takeReset = _
    rw [request_heard s dt tag takeReset () h]
    exact congrArg _ (pushReply_eq_replied _ tag _ rfl)
  · show execResetTakesEffect dt s = _
    simp only [execResetTakesEffect, State.advance_link, h, if_true]
    rfl
  · show execResetTakesEffect dt s = _
    simp only [execResetTakesEffect, State.advance_link, h, Bool.false_eq_true, if_false]
    rfl

end Sys2Proof.Machine
end

section
/-! SUPPORT. A drive group that stands IDLE with an entry in its queue: the invariants of O10 allow it, and the taking of a route
then starts that entry, which moves a point of the route away from the lie that the route requires. -/

namespace Sys2Proof.Machine

/-- Two blocks in line, signal 0 from the first to the second, and route 0 over the second with points 0 and 1, both of drive
group 0, as flank points to lie NORMAL. -/
def flankedTables : Tables :=
  { Tables.empty with
    blocks := tset (tset (tfill 48 none) 0 (some ⟨.plain, .noLink, .blockEnd 1 .e0, 40, 8, 3, 12, .auto, 0⟩)) 1
      (some ⟨.plain, .blockEnd 0 .e1, .noLink, 40, 8, 3, 12, .auto, 0⟩)
    points := tset (tset (tfill 64 none) 0 (some ⟨.noLink, .noLink, .noLink, 0, .none, .asFound⟩)) 1
      (some ⟨.noLink, .noLink, .noLink, 0, .none, .asFound⟩)
    signals := tset (tfill 32 none) 0 (some ⟨0, .e1, 2, 0, 0⟩)
    routes := tset (tfill 64 none) 0 (some ⟨0, none, [1], [], [⟨0, .normal⟩, ⟨1, .normal⟩], [], none, none, false⟩)
    modules := tset (tfill 24 none) 0 (some ⟨8, .lamp⟩) }

/-- The part in RUN with these tables, drive group 0 IDLE though point 1 waits in its queue for REVERSE, and a request of the host
for route 0 in hand. -/
def idleWithQueue : State :=
  { State.reset with
    mode := .run
    tables := flankedTables
    groups := tset (tfill 8 GroupRec.initial) 0 { GroupRec.initial with queue := [(1, .reverse)] }
    pending := [.requestRoute 0 1 (.fields 0)] }

/-- What that request comes to. -/
def idleWithQueueNext : State :=
  (takeRequestRoute 0 ({ idleWithQueue with pending := [] }.frameLost 0)).1.pushReply 1
    (takeRequestRoute 0 ({ idleWithQueue with pending := [] }.frameLost 0)).2

theorem idleWithQueue_step : step idleWithQueue = .next idleWithQueueNext :=
  request_heard { idleWithQueue with pending := [] } 0 1 takeRequestRoute 0 (by decide)

/-- No route holds elements yet, so every invariant of O10 holds. -/
theorem idleWithQueue_invariants : idleWithQueue.reservationsSound ∧ idleWithQueue.feedsSound ∧
    idleWithQueue.configAtRest ∧ idleWithQueue.locksSound := by
  refine ⟨reservationsSound_of_check (by decide +kernel), ?_, configAtRest_of_mode (by decide),
    locksSound_of_check (by decide +kernel)⟩
  decide +kernel

/-- Route 0, taken, keeps point 1 to NORMAL, and the group is moving the point to REVERSE. -/
theorem idleWithQueueNext_moves : idleWithQueueNext.keepsPoint 0 1 .normal ∧ idleWithQueueNext.movingTo 1 .reverse := by
  rw [keepsPoint_iff, movingTo_iff]
  decide +kernel

/-- Refutes O10: R69 starts the head of an IDLE group's queue at any move request to the group, so where a group stands IDLE with
point 1 waiting for REVERSE (which no run comes to, but which the invariants allow), the move request for point 0 of a route that
is taken starts that move before the route's own request for point 1 is made. -/
theorem not_stepKeepsReservationsSound : ¬ Obligations.StepKeepsReservationsSound := by
  rintro ⟨-, h⟩
  obtain ⟨hres, hfeeds, hrest, hlocks⟩ := idleWithQueue_invariants
  obtain ⟨-, -, -, hmoves, -⟩ := h _ _ hres hfeeds hrest hlocks idleWithQueue_step
  obtain ⟨hkeeps, hmoving⟩ := idleWithQueueNext_moves
  exact (hmoves 0 1 .normal hkeeps).1 hmoving

end Sys2Proof.Machine
end

section
/-! SUPPORT. What an operation in service does to the feeds. `Disturbs y s t` says once what every operation keeps (the mode, the
tables, and that a feed is ON only while it is demanded ON), but for the feeds of the blocks `y`, whose demand it may have
changed; `Serves s t` leaves none out, and a feed that follows its demand mends its own block (`Disturbs.feedFollow`). -/

namespace Sys2Proof.Machine

/-! ## The demand of a feed -/

/-- What a feed's demand is read from (R36). -/
theorem feedDemand_congr {s t : State} {b : Fin 48} (hm : t.mode = s.mode) (ht : t.tables = s.tables)
    (hi : (tget t.feeds b).isolated = (tget s.feeds b).isolated)
    (ha : ∀ g d, s.blockDef b = some d → d.kind = .stop g → t.stopDemand g = s.stopDemand g)
    (hd : ∀ d, s.blockDef b = some d → d.kind = .deck → t.deckDemand = s.deckDemand) :
    t.feedDemand b = s.feedDemand b := by
  have hb : t.blockDef b = s.blockDef b := by simp only [State.blockDef, ht]
  unfold State.feedDemand
  rw [hm, hi, hb]
  cases hbd : s.blockDef b with
  | none => rfl
  | some d =>
    cases hk : d.kind with
    | plain => simp only [hk]
    | stop g => simp only [hk, ha g d hbd hk]
    | deck => simp only [hk, hd d hbd hk]

/-- A feed is demanded ON only in RUN. -/
theorem feedDemand_run {s : State} {b : Fin 48} (h : s.feedDemand b = true) : s.mode = .run := by
  simp only [State.feedDemand, Bool.and_eq_true, beq_iff_eq] at h
  exact h.1.1

/-! ## Feeds that are ON only while demanded, but for some -/

/-- The invariant of the feeds, the feeds of the blocks `x` left out (R15, R36, R37). -/
structure FeedsBut (x : Fin 48 → Prop) (s : State) : Prop where
  checked : s.mode ≠ .config → s.tables.firstFailure = none
  off : s.mode = .config → ∀ b, (tget s.feeds b).state = .off
  demanded : ∀ b, (tget s.feeds b).state = .on → s.feedDemand b = true ∨ x b

theorem feedsSound_iff {s : State} : s.feedsSound ↔ FeedsBut (fun _ => False) s :=
  ⟨fun ⟨h1, h2, h3⟩ => ⟨h1, h2, fun b hb => .inl (h3 b hb)⟩,
    fun h => ⟨h.checked, h.off, fun b hb => (h.demanded b hb).resolve_right id⟩⟩

theorem FeedsBut.mono {x y : Fin 48 → Prop} {s : State} (h : FeedsBut x s) (hxy : ∀ b, x b → y b) : FeedsBut y s :=
  ⟨h.checked, h.off, fun b hb => (h.demanded b hb).imp_right (hxy b)⟩

/-- Tables that pass the checks of START_RUN have passed those of every block. -/
theorem blockOk_of_checked {t : Tables} (h : t.firstFailure = none) (b : Fin 48) : t.blockOk b = true := by
  simp only [Tables.firstFailure, Option.or_eq_none_iff, firstBad, Option.map_eq_none_iff, List.find?_eq_none] at h
  simpa using h.1 b (mem_indices b)

/-- A STOP block of checked tables is the one that its signal guards. -/
theorem stopBlock_of_kind {s : State} (h : s.tables.firstFailure = none) {b : Fin 48} {d : BlockDef} {g : Fin 32}
    (hb : s.blockDef b = some d) (hk : d.kind = .stop g) : s.stopBlock g = some b := by
  have hok := blockOk_of_checked h b
  have hb' : tget s.tables.blocks b = some d := hb
  simp only [Tables.blockOk, hb', Bool.and_eq_true, Tables.guardOk, hk] at hok
  obtain ⟨⟨-, hg⟩, -⟩ := hok
  cases hs : tget s.tables.signals g with
  | none => simp [hs] at hg
  | some x =>
    have hx : x.block = b := by simpa [hs] using hg
    simp [State.stopBlock, State.signalDef, hs, hx, hb, hk]

/-- A DECK block of checked tables is the turntable's. -/
theorem deckBlock_of_kind {s : State} (h : s.tables.firstFailure = none) {b : Fin 48} {d : BlockDef}
    (hb : s.blockDef b = some d) (hk : d.kind = .deck) : s.deckBlock = some b := by
  have hok := blockOk_of_checked h b
  have hb' : tget s.tables.blocks b = some d := hb
  simp only [Tables.blockOk, hb', Bool.and_eq_true, Tables.deckOk, hk, if_true] at hok
  obtain ⟨-, -, hd⟩ := hok
  cases ht : s.tables.turntable with
  | none => simp [ht] at hd
  | some x =>
    have hx : x.deckBlock = b := by simpa [ht] using hd
    simp [State.deckBlock, ht, hx]

/-! ## The relation -/

/-- `t` is `s` after an operation that may have changed the demand of the blocks `y` alone. -/
structure Disturbs (y : Fin 48 → Prop) (s t : State) : Prop where
  mode : t.mode = s.mode
  tables : t.tables = s.tables
  feeds : ∀ x, FeedsBut x s → FeedsBut (fun b => x b ∨ y b) t
  dormant : s.work.entering = true → t.work.entering = true ∧
    ∀ b, (tget s.feeds b).state = .off → (tget t.feeds b).state = .off

/-- `t` is `s` after an operation that leaves no feed ON against its demand. -/
abbrev Serves (s t : State) : Prop := Disturbs (fun _ => False) s t

theorem Serves.feedsSound {s t : State} (h : Serves s t) (hs : s.feedsSound) : t.feedsSound :=
  feedsSound_iff.2 ((h.feeds _ (feedsSound_iff.1 hs)).mono fun _ hb => hb.elim id id)

theorem Disturbs.of_serves {y : Fin 48 → Prop} {s t : State} (h : Serves s t) : Disturbs y s t :=
  ⟨h.mode, h.tables, fun x hx => (h.feeds x hx).mono fun _ hb => hb.imp_right False.elim, h.dormant⟩

theorem Disturbs.then {y : Fin 48 → Prop} {s t u : State} (h : Disturbs y s t) (k : Serves t u) : Disturbs y s u where
  mode := k.mode.trans h.mode
  tables := k.tables.trans h.tables
  feeds x hx := (k.feeds _ (h.feeds x hx)).mono fun _ hb => hb.resolve_right id
  dormant he := by
    obtain ⟨ht, hto⟩ := h.dormant he
    obtain ⟨hu, huo⟩ := k.dormant ht
    exact ⟨hu, fun b hb => huo b (hto b hb)⟩

theorem Serves.trans {s t u : State} (h : Serves s t) (k : Serves t u) : Serves s u := Disturbs.then h k

theorem Serves.refl (s : State) : Serves s s := ⟨rfl, rfl, fun _ hx => hx.mono fun _ => .inl, fun he => ⟨he, fun _ h => h⟩⟩

/-- An operation that leaves what feeds and demands are read from. -/
theorem Serves.of_frame {s t : State} (hm : t.mode = s.mode) (ht : t.tables = s.tables) (hf : t.feeds = s.feeds)
    (ha : ∀ g, t.stopDemand g = s.stopDemand g) (hd : t.deck.joined = s.deck.joined)
    (hw : t.work.entering = s.work.entering) : Serves s t where
  mode := hm
  tables := ht
  feeds x hx :=
    { checked := by rw [hm, ht]; exact hx.checked
      off := by rw [hm, hf]; exact hx.off
      demanded := fun b hb => by
        rw [hf] at hb
        rw [feedDemand_congr hm ht (by rw [hf]) (fun g _ _ _ => ha g)
          (fun _ _ _ => by simp only [State.deckDemand, hd])]
        exact (hx.demanded b hb).imp_right .inl }
  dormant he := ⟨hw.trans he, fun b hb => by rw [hf]; exact hb⟩

/-- A fold of operations each of which serves. -/
theorem Serves.foldl {α : Type} (f : State → α → State) (h : ∀ s a, Serves s (f s a)) (l : List α) (s : State) :
    Serves s (l.foldl f s) := by
  induction l generalizing s with
  | nil => exact Serves.refl s
  | cons a l ih => exact (h s a).trans (ih _)

/-- A choice between two states. -/
theorem Serves.ite {p : Prop} [Decidable p] {s t u : State} (ht : p → Serves s t) (hu : ¬ p → Serves s u) :
    Serves s (if p then t else u) := by
  split
  · exact ht ‹_›
  · exact hu ‹_›

theorem Disturbs.mono {y z : Fin 48 → Prop} {s t : State} (h : Disturbs y s t) (hyz : ∀ b, y b → z b) : Disturbs z s t :=
  ⟨h.mode, h.tables, fun x hx => (h.feeds x hx).mono fun b hb => hb.imp_right (hyz b), h.dormant⟩

/-- With no block of changed demand an operation serves. -/
theorem Disturbs.serves {y : Fin 48 → Prop} {s t : State} (h : Disturbs y s t) (hy : ∀ b, ¬ y b) : Serves s t := h.mono hy

/-! ## Updates of one record -/

theorem mark_serves (s : State) (x : Subject) : Serves s (s.mark x) := .of_frame rfl rfl rfl (fun _ => rfl) rfl rfl

theorem updLink_serves (s : State) (f : LinkPort → LinkPort) : Serves s (s.updLink f) :=
  .of_frame rfl rfl rfl (fun _ => rfl) rfl rfl

theorem advance_serves (s : State) (dt : Nat) : Serves s (s.advance dt) := .of_frame rfl rfl rfl (fun _ => rfl) rfl rfl

theorem advanceTo_serves (s : State) (e : Nat) : Serves s (s.advanceTo e) := advance_serves s _

theorem advanceToStamp_serves (s : State) (e : Stamp) : Serves s (s.advanceToStamp e) :=
  Serves.ite (fun _ => advance_serves s _) fun _ => Serves.refl s

theorem updWork_serves (s : State) (f : Work → Work) (h : (f s.work).entering = s.work.entering) :
    Serves s (s.updWork f) := .of_frame rfl rfl rfl (fun _ => rfl) rfl h

theorem callExamine_serves (s : State) : Serves s s.callExamine := updWork_serves s _ rfl

theorem updChannel_serves (s : State) (b : Fin 48) (f : Channel → Channel) : Serves s (s.updChannel b f) :=
  .of_frame rfl rfl rfl (fun _ => rfl) rfl rfl

theorem updContact_serves (s : State) (p : Fin 64) (f : Contact → Contact) : Serves s (s.updContact p f) :=
  .of_frame rfl rfl rfl (fun _ => rfl) rfl rfl

theorem putTrain_serves (s : State) (t : Fin 24) (x : Train) : Serves s (s.putTrain t x) :=
  .of_frame rfl rfl rfl (fun _ => rfl) rfl rfl

theorem updFlags_serves (s : State) (b : Fin 48) (f : BlockFlags → BlockFlags) : Serves s (s.updFlags b f) :=
  .of_frame rfl rfl rfl (fun _ => rfl) rfl rfl

theorem updPoint_serves (s : State) (p : Fin 64) (f : PointRec → PointRec) : Serves s (s.updPoint p f) :=
  .of_frame rfl rfl rfl (fun _ => rfl) rfl rfl

theorem updGroup_serves (s : State) (g : Fin 8) (f : GroupRec → GroupRec) : Serves s (s.updGroup g f) :=
  .of_frame rfl rfl rfl (fun _ => rfl) rfl rfl

theorem putRoute_serves (s : State) (r : Fin 64) (x : RouteRec) : Serves s (s.putRoute r x) :=
  .of_frame rfl rfl rfl (fun _ => rfl) rfl rfl

theorem dequeue_serves (s : State) (r : Fin 64) : Serves s (s.dequeue r) := .of_frame rfl rfl rfl (fun _ => rfl) rfl rfl

theorem putReserver_serves (s : State) (b : Fin 48) (x : Option (Fin 64)) : Serves s (s.putReserver b x) :=
  .of_frame rfl rfl rfl (fun _ => rfl) rfl rfl

theorem putFilter_serves (s : State) (g : Fin 8) (x : Filter) : Serves s (s.putFilter g x) :=
  .of_frame rfl rfl rfl (fun _ => rfl) rfl rfl

theorem updTrap_serves (s : State) (t : Fin 4) (f : TrapRec → TrapRec) : Serves s (s.updTrap t f) :=
  .of_frame rfl rfl rfl (fun _ => rfl) rfl rfl

theorem updBus_serves (s : State) (f : Bus → Bus) : Serves s (s.updBus f) := .of_frame rfl rfl rfl (fun _ => rfl) rfl rfl

theorem updModule_serves (s : State) (m : Fin 24) (f : ModuleRec → ModuleRec) : Serves s (s.updModule m f) :=
  .of_frame rfl rfl rfl (fun _ => rfl) rfl rfl

theorem updShow_serves (s : State) (i : Fin 8) (f : ShowRec → ShowRec) : Serves s (s.updShow i f) :=
  .of_frame rfl rfl rfl (fun _ => rfl) rfl rfl

theorem updKey_serves (s : State) (k : Fin 64) (f : KeyRec → KeyRec) : Serves s (s.updKey k f) :=
  .of_frame rfl rfl rfl (fun _ => rfl) rfl rfl

theorem syncLists_serves (s : State) : Serves s s.syncLists := .of_frame rfl rfl rfl (fun _ => rfl) rfl rfl

theorem settlePanel_serves (s : State) : Serves s s.settlePanel := .of_frame rfl rfl rfl (fun _ => rfl) rfl rfl

/-- The deck record changes in what does not join or part it. -/
theorem updDeck_serves (s : State) (f : Deck → Deck) (h : (f s.deck).joined = s.deck.joined) : Serves s (s.updDeck f) :=
  .of_frame rfl rfl rfl (fun _ => rfl) h rfl

/-- A change of the deck record touches the demand of the deck block alone. -/
theorem updDeck_disturbs (s : State) (f : Deck → Deck) : Disturbs (fun b => s.deckBlock = some b) s (s.updDeck f) where
  mode := rfl
  tables := rfl
  feeds x hx :=
    { checked := hx.checked
      off := hx.off
      demanded := fun b hb => by
        by_cases hk : ∃ d, s.blockDef b = some d ∧ d.kind = .deck
        · obtain ⟨d, hd, hk⟩ := hk
          by_cases hc : s.mode = .config
          · have hoff := hx.off hc b
            simp only [State.updDeck_feeds] at hb
            rw [hoff] at hb
            cases hb
          · exact .inr (.inr (deckBlock_of_kind (hx.checked hc) hd hk))
        · rw [feedDemand_congr (s := s) (t := s.updDeck f) rfl rfl rfl (fun _ _ _ _ => rfl) fun d hd hdk =>
            absurd ⟨d, hd, hdk⟩ hk]
          exact (hx.demanded b hb).imp_right .inl }
  dormant he := ⟨he, fun _ h => h⟩

/-- A signal record changes in what is not its aspect. -/
theorem updSignal_serves (s : State) (g : Fin 32) (f : SignalRec → SignalRec)
    (h : (f (tget s.signals g)).aspect = (tget s.signals g).aspect) : Serves s (s.updSignal g f) :=
  .of_frame rfl rfl rfl (fun q => by
    simp only [State.stopDemand, State.updSignal_signals, tget_tupd]
    split
    · rename_i e; subst e; exact congrArg Aspect.proceed h
    · rfl) rfl rfl

theorem putSignal_serves (s : State) (g : Fin 32) (f : SignalRec → SignalRec)
    (h : (f (tget s.signals g)).aspect = (tget s.signals g).aspect) : Serves s (s.putSignal g f) :=
  Serves.ite (fun _ => Serves.refl s) fun _ => (updSignal_serves s g f h).trans (mark_serves _ _)

/-! ## Feeds -/

/-- A feed record changes in what is neither its state nor its isolated flag. -/
theorem updFeed_serves (s : State) (b : Fin 48) (f : Feed → Feed) (hs : ∀ x, (f x).state = x.state)
    (hi : ∀ x, (f x).isolated = x.isolated) : Serves s (s.updFeed b f) := by
  have hstate (c : Fin 48) : (tget (s.updFeed b f).feeds c).state = (tget s.feeds c).state := by
    simp only [State.updFeed_feeds, tget_tupd]; split <;> simp [hs]
  have hiso (c : Fin 48) : (tget (s.updFeed b f).feeds c).isolated = (tget s.feeds c).isolated := by
    simp only [State.updFeed_feeds, tget_tupd]; split <;> simp [hi]
  refine ⟨rfl, rfl, fun x hx => ⟨hx.checked, fun hc c => (hstate c).trans (hx.off hc c), fun c hc => ?_⟩, fun he =>
    ⟨he, fun c hc => (hstate c).trans hc⟩⟩
  rw [feedDemand_congr (s := s) (t := s.updFeed b f) rfl rfl (hiso c) (fun _ _ _ _ => rfl) fun _ _ _ => rfl]
  exact (hx.demanded c ((hstate c).symm.trans hc)).imp_right .inl

/-- A feed record changes in its isolated flag, which its own demand alone is read from. -/
theorem updFeed_disturbs (s : State) (b : Fin 48) (f : Feed → Feed) (hs : ∀ x, (f x).state = x.state) :
    Disturbs (fun c => c = b) s (s.updFeed b f) := by
  have hstate (c : Fin 48) : (tget (s.updFeed b f).feeds c).state = (tget s.feeds c).state := by
    simp only [State.updFeed_feeds, tget_tupd]; split <;> simp [hs]
  refine ⟨rfl, rfl, fun x hx => ⟨hx.checked, fun hc c => (hstate c).trans (hx.off hc c), fun c hc => ?_⟩, fun he =>
    ⟨he, fun c hc => (hstate c).trans hc⟩⟩
  by_cases hbc : c = b
  · exact .inr (.inr hbc)
  · have hiso : (tget (s.updFeed b f).feeds c).isolated = (tget s.feeds c).isolated := by
      rw [State.updFeed_feeds, tget_tupd_ne _ (Ne.symm hbc)]
    rw [feedDemand_congr (s := s) (t := s.updFeed b f) rfl rfl hiso (fun _ _ _ _ => rfl) fun _ _ _ => rfl]
    exact (hx.demanded c ((hstate c).symm.trans hc)).imp_right .inl

/-- The feed records after a change of one feed's state (R35). -/
theorem setFeedState_feeds (s : State) (b : Fin 48) (x : FeedState) (c : Fin 48) :
    tget (s.setFeedState b x).feeds c = if b = c then { tget s.feeds c with state := x } else tget s.feeds c := by
  unfold State.setFeedState
  split
  · rename_i h
    split
    · rename_i e; subst e; simp only [← h]
    · rfl
  · simp only [State.settlePanel_feeds, State.updChannel_feeds, State.mark_feeds, State.updFeed_feeds, tget_tupd]

@[simp] theorem setFeedState_mode (s : State) (b : Fin 48) (x : FeedState) : (s.setFeedState b x).mode = s.mode := by
  unfold State.setFeedState; split <;> rfl

@[simp] theorem setFeedState_tables (s : State) (b : Fin 48) (x : FeedState) : (s.setFeedState b x).tables = s.tables := by
  unfold State.setFeedState; split <;> rfl

@[simp] theorem setFeedState_work (s : State) (b : Fin 48) (x : FeedState) : (s.setFeedState b x).work = s.work := by
  unfold State.setFeedState; split <;> rfl

@[simp] theorem setFeedState_demand (s : State) (b c : Fin 48) (x : FeedState) :
    (s.setFeedState b x).feedDemand c = s.feedDemand c := by
  refine feedDemand_congr (setFeedState_mode ..) (setFeedState_tables ..) ?_ (fun _ _ _ _ => ?_) fun _ _ _ => ?_
  · rw [setFeedState_feeds]; split <;> rfl
  · unfold State.setFeedState; split <;> rfl
  · unfold State.setFeedState; split <;> rfl

/-- A feed takes a state: ON only where it is demanded ON, and out of OFF only in service and with no entry into RUN in hand. -/
theorem setFeedState_serves (s : State) (b : Fin 48) (x : FeedState) (hx : x = .on → s.feedDemand b = true)
    (hoff : x = .off ∨ (tget s.feeds b).state ≠ .off ∨ (s.mode ≠ .config ∧ s.work.entering = false)) :
    Serves s (s.setFeedState b x) where
  mode := setFeedState_mode ..
  tables := setFeedState_tables ..
  feeds y hy :=
    { checked := by rw [setFeedState_mode, setFeedState_tables]; exact hy.checked
      off := fun hc c => by
        rw [setFeedState_mode] at hc
        rw [setFeedState_feeds]
        split
        · rcases hoff with h | h | h
          · exact h
          · exact absurd (hy.off hc b) h
          · exact absurd hc h.1
        · exact hy.off hc c
      demanded := fun c hc => by
        rw [setFeedState_feeds] at hc
        rw [setFeedState_demand]
        split at hc
        · rename_i e; subst e; exact .inl (hx hc)
        · exact (hy.demanded c hc).imp_right .inl }
  dormant he := ⟨by rw [setFeedState_work]; exact he, fun c hc => by
    rw [setFeedState_feeds]
    split
    · rename_i e
      subst e
      rcases hoff with h | h | h
      · exact h
      · exact absurd hc h
      · rw [he] at h; cases h.2
    · exact hc⟩

/-- A feed follows its demand: it is not ON against it, and a change of its own demand is mended (R37). -/
theorem Disturbs.feedFollow {s t : State} {b : Fin 48} (h : Disturbs (fun c => c = b) s t) : Serves s (t.feedFollow b) := by
  have mends (u : State) (hm : u.mode = t.mode) (ht : u.tables = t.tables)
      (hd : ∀ c, u.feedDemand c = t.feedDemand c)
      (hf : ∀ c, c ≠ b → (tget u.feeds c).state = (tget t.feeds c).state)
      (hb : (tget u.feeds b).state = .on → t.feedDemand b = true)
      (hoff : t.mode = .config → (tget t.feeds b).state = .off → (tget u.feeds b).state = .off)
      (hdor : t.work.entering = true → u.work.entering = true ∧
        ((tget t.feeds b).state = .off → (tget u.feeds b).state = .off)) : Serves s u := by
    refine ⟨hm.trans h.mode, ht.trans h.tables, fun x hx => ?_, fun he => ?_⟩
    · have hx' := h.feeds x hx
      refine ⟨by rw [hm, ht]; exact hx'.checked, fun hc c => ?_, fun c hc => ?_⟩
      · rw [hm] at hc
        by_cases e : c = b
        · subst e; exact hoff hc (hx'.off hc c)
        · rw [hf c e]; exact hx'.off hc c
      · rw [hd]
        by_cases e : c = b
        · subst e; exact .inl (hb hc)
        · rw [hf c e] at hc
          rcases hx'.demanded c hc with h1 | h1 | h1
          · exact .inl h1
          · exact .inr (.inl h1)
          · exact absurd h1 e
    · obtain ⟨ht', hto⟩ := h.dormant he
      obtain ⟨hu, hub⟩ := hdor ht'
      refine ⟨hu, fun c hc => ?_⟩
      by_cases e : c = b
      · subst e; exact hub (hto c hc)
      · rw [hf c e]; exact hto c hc
  have stays (hb : (tget t.feeds b).state = .on → t.feedDemand b = true) : Serves s t :=
    mends t rfl rfl (fun _ => rfl) (fun _ _ => rfl) hb (fun _ h => h) fun h => ⟨h, fun h => h⟩
  have takes (x : FeedState) (hx : x = .on → t.feedDemand b = true)
      (hoff : x = .off ∨ (t.mode ≠ .config ∧ t.work.entering = false)) : Serves s (t.setFeedState b x) := by
    have hbx : (tget (t.setFeedState b x).feeds b).state = x := by rw [setFeedState_feeds, if_pos rfl]
    refine mends _ (setFeedState_mode ..) (setFeedState_tables ..) (fun c => setFeedState_demand ..) (fun c hc => ?_)
      (fun hc => hx (hbx.symm.trans hc)) (fun hc _ => ?_) fun he => ⟨by rw [setFeedState_work]; exact he, fun _ => ?_⟩
    · rw [setFeedState_feeds, if_neg (Ne.symm hc)]
    · rw [hbx]; exact hoff.elim id fun h => absurd hc h.1
    · rw [hbx]; exact hoff.elim id fun h => absurd he (by simp [h.2])
  unfold State.feedFollow
  split
  · split
    · rename_i hd; exact stays fun _ => hd
    · exact takes .off (by simp) (.inl rfl)
  · rename_i hs
    split
    · rename_i hd
      simp only [Bool.and_eq_true, Bool.not_eq_true'] at hd
      obtain ⟨⟨hd, -⟩, he⟩ := hd
      exact takes .on (fun _ => hd) (.inr ⟨by rw [feedDemand_run hd]; decide, he⟩)
    · exact stays fun h => absurd (hs.symm.trans h) (by decide)
  · rename_i h1 h2
    exact stays fun h => absurd h h1

theorem feedFollow_serves (s : State) (b : Fin 48) : Serves s (s.feedFollow b) :=
  Disturbs.feedFollow (.of_serves (Serves.refl s))

/-! ## Signals -/

/-- A change of one signal's aspect touches the demand of the block that it guards alone (R121). -/
theorem aspect_disturbs {s t : State} (g : Fin 32) (hm : t.mode = s.mode) (ht : t.tables = s.tables)
    (hf : t.feeds = s.feeds) (hd : t.deck = s.deck) (hw : t.work = s.work)
    (ha : ∀ q, q ≠ g → (tget t.signals q).aspect = (tget s.signals q).aspect) :
    Disturbs (fun b => s.stopBlock g = some b) s t := by
  refine ⟨hm, ht, fun x hx => ⟨by rw [hm, ht]; exact hx.checked, by rw [hm, hf]; exact hx.off, fun b hb => ?_⟩,
    fun he => ⟨by rw [hw]; exact he, fun b hb => by rw [hf]; exact hb⟩⟩
  rw [hf] at hb
  by_cases hk : ∃ d, s.blockDef b = some d ∧ d.kind = .stop g
  · obtain ⟨d, hbd, hk⟩ := hk
    by_cases hc : s.mode = .config
    · rw [hx.off hc b] at hb; cases hb
    · exact .inr (.inr (stopBlock_of_kind (hx.checked hc) hbd hk))
  · rw [feedDemand_congr hm ht (by rw [hf]) (fun q d hbd hdk => ?_) fun _ _ _ => by simp only [State.deckDemand, hd]]
    · exact (hx.demanded b hb).imp_right .inl
    · have : q ≠ g := fun e => hk ⟨d, hbd, e ▸ hdk⟩
      simp only [State.stopDemand, ha q this]

/-- What the record of a signal that shows an aspect leaves, before the panel and the feed follow (R114). -/
structure ShowsOn (s : State) (g : Fin 32) (a : Aspect) (t : State) : Prop where
  mode : t.mode = s.mode
  tables : t.tables = s.tables
  feeds : t.feeds = s.feeds
  deck : t.deck = s.deck
  work : t.work = s.work
  aspect : ∀ q, (tget t.signals q).aspect = if g = q then a else (tget s.signals q).aspect

theorem putSignal_showsOn (s : State) (g : Fin 32) (a : Aspect) :
    ShowsOn s g a (s.putSignal g fun x => { x with aspect := a, cleared := x.cleared || a.proceed }) := by
  unfold State.putSignal
  split
  · rename_i h
    refine ⟨rfl, rfl, rfl, rfl, rfl, fun q => ?_⟩
    split
    · rename_i e; subst e; exact (congrArg SignalRec.aspect h).symm
    · rfl
  · refine ⟨rfl, rfl, rfl, rfl, rfl, fun q => ?_⟩
    simp only [State.mark_signals, State.updSignal_signals, tget_tupd]
    split <;> rfl

/-- A signal shows an aspect: only the block that it guards has its demand changed, and its feed follows (R121). -/
theorem showAspect_serves (s : State) (g : Fin 32) (a : Aspect) : Serves s (s.showAspect g a) := by
  unfold State.showAspect
  extract_lets old s1 s2
  obtain ⟨hm, ht, hf, hd, hw, ha⟩ : ShowsOn s g a s1 := putSignal_showsOn s g a
  have h2 : Serves s1 s2 := Serves.ite (fun _ => Serves.refl _) fun _ => settlePanel_serves _
  split
  · rename_i hp
    refine (Serves.of_frame hm ht hf (fun q => ?_) (by rw [hd]) (by rw [hw])).trans h2
    simp only [State.stopDemand, ha]
    split
    · rename_i e; subst e; exact hp.symm
    · rfl
  · have h1 := aspect_disturbs g hm ht hf hd hw fun q hq => by rw [ha, if_neg (Ne.symm hq)]
    have hsb : s2.stopBlock g = s.stopBlock g := by
      simp only [State.stopBlock, State.signalDef, State.blockDef, h2.tables, ht]
    split
    · rename_i b hb
      rw [hsb] at hb
      exact ((h1.mono fun c hc => Option.some.inj (hc.symm.trans hb)).then h2).feedFollow
    · rename_i hb
      rw [hsb] at hb
      exact (h1.serves fun b h => by rw [hb] at h; cases h).trans h2

theorem showSettled_serves (now s : State) (g : Fin 32) : Serves s (now.showSettled s g) :=
  Serves.ite (fun _ => showAspect_serves _ _ _) fun _ => Serves.refl _

theorem showChain_serves (now : State) (n : Nat) (s : State) (g : Fin 32) : Serves s (now.showChain n s g) := by
  induction n generalizing s g with
  | zero => exact showSettled_serves _ _ _
  | succ n ih =>
    unfold State.showChain
    refine Serves.trans ?_ (showSettled_serves _ _ _)
    split
    · exact ih _ _
    · exact Serves.refl _

theorem settleSignals_serves (s : State) : Serves s s.settleSignals :=
  Serves.foldl _ (fun _ _ => showChain_serves _ _ _ _) _ s

end Sys2Proof.Machine
end

section
/-! SUPPORT. `Serves` of every operation that the end of an event can make, in the order of the blocks: cues and waits, routes,
points, the deck's start of a move, the taking of routes, the running show (`settle_serves`). -/

namespace Sys2Proof.Machine

/-! ## Cues and waits -/

theorem putCue_serves (s : State) (c : Fin 16) (v : Bool) : Serves s (s.putCue c v) :=
  Serves.ite (fun _ => Serves.refl s) fun _ => .of_frame rfl rfl rfl (fun _ => rfl) rfl rfl

theorem updRun_serves (s : State) (i : Fin 8) (f : Run → Run) : Serves s (s.updRun i f) := updShow_serves s i _

theorem meetWait_serves (s : State) (i : Fin 8) : Serves s (s.meetWait i) :=
  ((updRun_serves s i _).trans (mark_serves _ _)).trans (updWork_serves _ _ rfl)

theorem noteAbort_serves (s : State) (i : Fin 8) (c : AbortCause) : Serves s (s.noteAbort i c) :=
  updWork_serves s _ (by split <;> rfl)

theorem setCueFlag_serves (s : State) (c : Fin 16) : Serves s (s.setCueFlag c) := by
  unfold State.setCueFlag
  refine (putCue_serves s c true).trans ?_
  dsimp only
  split
  · exact Serves.ite (fun _ => (putCue_serves _ _ _).trans (meetWait_serves _ _)) fun _ => Serves.refl _
  · exact Serves.refl _

theorem setCuesFor_serves (s : State) (x : Selector) : Serves s (s.setCuesFor x) :=
  Serves.foldl _ (fun _ _ => Serves.ite (fun _ => setCueFlag_serves _ _) fun _ => Serves.refl _) _ s

theorem noteRoute_serves (s : State) (r : Fin 64) (x : RouteRec) : Serves s (s.noteRoute r x) := by
  unfold State.noteRoute
  split
  · refine Serves.ite (fun _ => ?_) fun _ => Serves.refl _
    split
    · exact meetWait_serves _ _
    · exact noteAbort_serves _ _ _
    · exact meetWait_serves _ _
    · exact Serves.refl _
  · exact Serves.refl _

theorem noteDeck_serves (s : State) : Serves s s.noteDeck := by
  unfold State.noteDeck
  split
  · exact Serves.ite (fun _ => meetWait_serves _ _) fun _ => Serves.refl _
  · exact Serves.refl _

theorem noteTurnOutcome_serves (s : State) (i : Fin 8) (o : TurnOutcome) : Serves s (s.noteTurnOutcome i o) := by
  unfold State.noteTurnOutcome
  split
  · refine Serves.ite (fun _ => ?_) fun _ => Serves.refl _
    extract_lets s1
    have h1 : Serves s s1 := (updRun_serves s i _).trans (mark_serves _ _)
    exact Serves.ite (fun _ => h1) fun _ => h1.trans (noteAbort_serves _ _ _)
  · exact Serves.refl _

/-! ## Routes -/

theorem aspectTakesRoute_serves (s : State) (r : Fin 64) (d : RouteDef) (old new : RouteRec) :
    Serves s (s.aspectTakesRoute r d old new) := by
  unfold State.aspectTakesRoute
  extract_lets g s1
  have h1 : Serves s s1 := by
    simp only [s1]
    split
    · exact Serves.refl _
    · exact putSignal_serves _ _ _ rfl
    · exact Serves.refl _
  refine h1.trans ?_
  split
  · exact putSignal_serves _ _ _ rfl
  · split
    · exact Serves.refl _
    · exact putSignal_serves _ _ _ rfl
    · exact Serves.refl _
  · exact putSignal_serves _ _ _ rfl
  · exact Serves.ite (fun _ => putSignal_serves _ _ _ rfl) fun _ => Serves.refl _
  · exact Serves.refl _

theorem setRoute_serves (s : State) (r : Fin 64) (x : RouteRec) : Serves s (s.setRoute r x) := by
  unfold State.setRoute
  extract_lets old s1 s2 s3
  have h1 : Serves s s1 := ((putRoute_serves s r x).trans (mark_serves _ _)).trans (settlePanel_serves _)
  have h2 : Serves s1 s2 := by
    simp only [s2]
    split
    · exact aspectTakesRoute_serves _ _ _ _ _
    · exact Serves.refl _
  have h3 : Serves s2 s3 := by
    simp only [s3]
    split
    · exact setCuesFor_serves _ _
    · exact Serves.ite (fun _ => Serves.refl _) fun _ => setCuesFor_serves _ _
    · exact Serves.refl _
  exact ((h1.trans h2).trans h3).trans (noteRoute_serves _ _ _)

theorem touchRoute_serves (s : State) (r : Fin 64) (x : RouteRec) : Serves s (s.touchRoute r x) :=
  (putRoute_serves s r x).trans (mark_serves _ _)

theorem reserve_serves (s : State) (r : Fin 64) (b : Fin 48) : Serves s (s.reserve r b) :=
  ((putReserver_serves s b _).trans (mark_serves _ _)).trans (settlePanel_serves _)

theorem unreserve_serves (s : State) (r : Fin 64) (b : Fin 48) : Serves s (s.unreserve r b) :=
  Serves.ite (fun _ => (((putReserver_serves s b _).trans (mark_serves _ _)).trans (settlePanel_serves _)).trans
    (callExamine_serves _)) fun _ => Serves.refl _

theorem lock_serves (s : State) (p : Fin 64) : Serves s (s.lock p) := (updPoint_serves s p _).trans (mark_serves _ _)

theorem unlock_serves (s : State) (p : Fin 64) : Serves s (s.unlock p) :=
  ((updPoint_serves s p _).trans (mark_serves _ _)).trans (callExamine_serves _)

theorem freeHolding_serves (s : State) (r : Fin 64) (e : FreeReason) : Serves s (s.freeHolding r e) :=
  (((setRoute_serves s r _).trans (Serves.foldl _ (fun t b => unreserve_serves t r b) _ _)).trans
    (Serves.foldl _ (fun t (x : Fin 64 × Lie) => unlock_serves t x.1) _ _)).trans (callExamine_serves _)

theorem testProof_serves (s : State) (r : Fin 64) : Serves s (s.testProof r) := by
  unfold State.testProof
  split
  · exact Serves.ite (fun _ => setRoute_serves _ _ _) fun _ => Serves.refl _
  · exact Serves.ite (fun _ => Serves.refl _) fun _ => touchRoute_serves _ _ _
  · exact Serves.refl _

theorem routesTakeProof_serves (s : State) (p : Fin 64) : Serves s (s.routesTakeProof p) :=
  Serves.foldl _ (fun _ _ => Serves.ite (fun _ => testProof_serves _ _) fun _ => Serves.refl _) _ s

theorem routesTakeDeck_serves (s : State) : Serves s s.routesTakeDeck :=
  Serves.foldl _ (fun _ _ => Serves.ite (fun _ => testProof_serves _ _) fun _ => Serves.refl _) _ s

theorem routesTakeFailed_serves (s : State) (p : Fin 64) : Serves s (s.routesTakeFailed p) :=
  Serves.foldl _ (fun _ _ => by
    split
    · exact Serves.ite (fun _ => freeHolding_serves _ _ _) fun _ => Serves.refl _
    · exact Serves.refl _) _ s

theorem routeTakesOutcome_serves (s : State) (r : Fin 64) (o : TurnOutcome) : Serves s (s.routeTakesOutcome r o) := by
  unfold State.routeTakesOutcome
  split
  · exact Serves.ite (fun _ => putRoute_serves _ _ _) fun _ => freeHolding_serves _ _ _
  · exact Serves.refl _

theorem testReleased_serves (s : State) (r : Fin 64) : Serves s (s.testReleased r) := by
  unfold State.testReleased
  split
  · exact Serves.ite (fun _ => (setRoute_serves _ _ _).trans (callExamine_serves _)) fun _ => Serves.refl _
  · exact Serves.refl _

theorem releaseBlock_serves (s : State) (r : Fin 64) (d : RouteDef) (danger : Bool) (t : OverlapTimer) (m : Marks)
    (k : Nat) (b : Fin 48) : Serves s (s.releaseBlock r d danger t m k b) := by
  unfold State.releaseBlock
  extract_lets last t' s1 s2 s3
  have h3 : Serves s s3 := ((touchRoute_serves s r _).trans (unreserve_serves _ _ _)).trans
    (Serves.foldl _ (fun u (x : PointReq) => unlock_serves u x.point) _ _)
  exact Serves.ite (fun _ => h3.trans (Serves.foldl _ (fun u (x : FlankReq) => unlock_serves u x.point) _ _)) fun _ => h3

theorem releaseFrom_serves (r : Fin 64) (n k : Nat) (s : State) : Serves s (State.releaseFrom r n k s) := by
  induction n generalizing k s with
  | zero => exact Serves.refl s
  | succ n ih =>
    unfold State.releaseFrom
    split
    · split
      · exact Serves.refl s
      · exact Serves.ite (fun _ => (releaseBlock_serves _ _ _ _ _ _ _ _).trans (ih _ _)) fun _ => Serves.refl s
    · exact Serves.refl s

theorem testRelease_serves (s : State) (r : Fin 64) (k : Nat) : Serves s (s.testRelease r k) :=
  (releaseFrom_serves r 8 k s).trans (testReleased_serves _ r)

theorem enterRoute_serves (s : State) (r : Fin 64) (d : RouteDef) : Serves s (s.enterRoute r d) := by
  unfold State.enterRoute
  extract_lets t
  split
  · exact setRoute_serves _ _ _
  · exact setRoute_serves _ _ _
  · exact Serves.refl _

theorem overlapAtLast_serves (s : State) (r : Fin 64) (d : RouteDef) (b : Fin 48) : Serves s (s.overlapAtLast r d b) := by
  unfold State.overlapAtLast
  split
  · exact Serves.ite (fun _ => touchRoute_serves _ _ _) fun _ => Serves.refl _
  · exact Serves.refl _

theorem routeTakesOccupied_serves (b : Fin 48) (s : State) (r : Fin 64) : Serves s (State.routeTakesOccupied b s r) := by
  unfold State.routeTakesOccupied
  split
  · exact Serves.refl _
  · split
    · exact Serves.ite (fun _ => enterRoute_serves _ _ _) fun _ => Serves.refl _
    · exact Serves.ite (fun _ => enterRoute_serves _ _ _) fun _ => Serves.refl _
    · split
      · extract_lets s1
        have h1 : Serves s s1 := overlapAtLast_serves s r _ b
        exact Serves.ite (fun _ => h1) fun _ => h1.trans (testRelease_serves _ _ _)
      · exact Serves.refl _
    · exact Serves.refl _

theorem routesTakeOccupied_serves (s : State) (b : Fin 48) : Serves s (s.routesTakeOccupied b) :=
  Serves.foldl _ (fun _ _ => routeTakesOccupied_serves _ _ _) _ s

theorem routesTakeClear_serves (s : State) (b : Fin 48) : Serves s (s.routesTakeClear b) :=
  (Serves.foldl _ (fun _ _ => by
    split
    · split
      · exact testRelease_serves _ _ _
      · exact Serves.refl _
    · exact Serves.refl _) _ s).trans (callExamine_serves _)

theorem overlapExpires_serves (s : State) (r : Fin 64) (d : RouteDef) : Serves s (s.overlapExpires r d) := by
  unfold State.overlapExpires
  split
  · exact ((touchRoute_serves s r _).trans (Serves.foldl _ (fun t b => unreserve_serves t r b) _ _)).trans
      (testReleased_serves _ r)
  · exact Serves.refl _

/-! ## Points -/

theorem watchProof_serves (s : State) (p : Fin 64) (f : State → State) (h : Serves s (f s)) :
    Serves s (s.watchProof p f) :=
  Serves.ite (fun _ => h) fun _ => (h.trans (mark_serves _ _)).trans (routesTakeProof_serves _ _)

/-- A group and a point change, the point is marked and the panel follows. -/
theorem pointMoves_serves (s : State) (g : Fin 8) (p : Fin 64) (f : GroupRec → GroupRec) (k : PointRec → PointRec) :
    Serves s ((((s.updGroup g f).updPoint p k).mark (.point p)).settlePanel) :=
  (((updGroup_serves s g f).trans (updPoint_serves _ p k)).trans (mark_serves _ _)).trans (settlePanel_serves _)

theorem enterPulse_serves (s : State) (g : Fin 8) : Serves s (s.enterPulse g) := by
  unfold State.enterPulse
  split
  · exact Serves.refl _
  · exact watchProof_serves _ _ _ (pointMoves_serves s g _ _ _)

theorem startMove_serves (s : State) (g : Fin 8) : Serves s (s.startMove g) := by
  unfold State.startMove
  extract_lets x
  split
  · exact Serves.refl _
  · refine Serves.ite (fun _ => ?_) fun _ => Serves.refl _
    extract_lets s1
    have h1 : Serves s s1 := watchProof_serves _ _ _ (pointMoves_serves s g _ _ _)
    exact Serves.ite (fun _ => h1.trans (enterPulse_serves _ _)) fun _ => h1

theorem moveRequest_serves (s : State) (p : Fin 64) (l : Lie) : Serves s (s.moveRequest p l) := by
  unfold State.moveRequest
  split
  · exact Serves.refl _
  · extract_lets there s1
    have h1 : Serves s s1 := by
      simp only [s1]
      split
      · exact Serves.refl _
      · exact (updGroup_serves _ _ _).trans (mark_serves _ _)
      · exact (updGroup_serves _ _ _).trans (mark_serves _ _)
      · exact Serves.ite (fun _ => Serves.refl _) fun _ => (updGroup_serves _ _ _).trans (mark_serves _ _)
    exact h1.trans (startMove_serves _ _)

theorem dropMet_serves (s : State) (g : Fin 8) (p : Fin 64) (l : Lie) : Serves s (s.dropMet g p l) := updGroup_serves s g _

theorem decideMove_serves (s : State) (g : Fin 8) (o : MoveOutcome) : Serves s (s.decideMove g o) := by
  unfold State.decideMove
  split
  · exact Serves.refl _
  · rename_i m _
    extract_lets s1 s2
    have h1 : Serves s s1 := watchProof_serves _ _ _ (by
      refine (updGroup_serves s g fun x => { x with outcome := some o }).trans ?_
      cases o with
      | isSet =>
        exact (((updPoint_serves _ m.point _).trans (dropMet_serves _ g m.point m.target)).trans (mark_serves _ _)).trans
          (settlePanel_serves _)
      | failed => exact ((updPoint_serves _ m.point _).trans (mark_serves _ _)).trans (settlePanel_serves _))
    have h2 : Serves s1 s2 := Serves.ite (fun _ => routesTakeFailed_serves _ _) fun _ => Serves.refl _
    exact (h1.trans h2).trans (callExamine_serves _)

theorem testRecovery_serves (s : State) (g : Fin 8) : Serves s (s.testRecovery g) :=
  Serves.ite (fun _ => (updGroup_serves s g _).trans (startMove_serves _ _)) fun _ => Serves.refl _

theorem enterRecovery_serves (s : State) (g : Fin 8) (w : Timer) : Serves s (s.enterRecovery g w) :=
  (updGroup_serves s g _).trans (testRecovery_serves _ _)

theorem endPulse_serves (s : State) (g : Fin 8) (o : MoveOutcome) : Serves s (s.endPulse g o) :=
  (decideMove_serves s g o).trans (enterRecovery_serves _ _ _)

theorem pulseTimeOver_serves (s : State) (g : Fin 8) : Serves s (s.pulseTimeOver g) := by
  unfold State.pulseTimeOver
  split
  · exact Serves.refl _
  · refine (updGroup_serves s g fun x => { x with phaseTimer := none }).trans ?_
    dsimp only
    split
    · exact endPulse_serves _ _ _
    · refine Serves.ite (fun _ => endPulse_serves _ _ _) fun _ => ?_
      split
      · exact endPulse_serves _ _ _
      · exact Serves.ite (fun _ => endPulse_serves _ _ _) fun _ => Serves.refl _
    · exact enterRecovery_serves _ _ _

theorem takeAsFound_serves (s : State) (p : Fin 64) (g : Fin 8) (v : Reading) : Serves s (s.takeAsFound p g v) := by
  unfold State.takeAsFound
  split
  · exact Serves.refl _
  · exact watchProof_serves _ _ _
      ((((updPoint_serves s p _).trans (dropMet_serves _ g p _)).trans (mark_serves _ _)).trans (settlePanel_serves _))

theorem failAtRest_serves (s : State) (p : Fin 64) : Serves s (s.failAtRest p) :=
  (watchProof_serves s p _ (((updPoint_serves s p _).trans (mark_serves _ _)).trans (settlePanel_serves _))).trans
    (routesTakeFailed_serves _ p)

theorem watchArrival_serves (s : State) (p : Fin 64) (l : Lie) (v : Reading) : Serves s (s.watchArrival p l v) := by
  unfold State.watchArrival
  exact Serves.ite (fun _ => updPoint_serves _ _ _) fun _ =>
    Serves.ite (fun _ => updPoint_serves _ _ _) fun _ => failAtRest_serves _ _

theorem arrivalAtRest_serves (s : State) (p : Fin 64) (g : Fin 8) (v : Reading) : Serves s (s.arrivalAtRest p g v) := by
  unfold State.arrivalAtRest
  extract_lets x
  refine Serves.ite (fun _ => takeAsFound_serves _ _ _ _) fun _ => ?_
  split
  · exact Serves.ite (fun _ => Serves.refl _) fun _ => watchArrival_serves _ _ _ _
  · exact Serves.refl _

theorem arrivalMoving_serves (s : State) (g : Fin 8) (f : Feedback) (t : Lie) (v : Reading) :
    Serves s (s.arrivalMoving g f t v) := by
  unfold State.arrivalMoving
  extract_lets x
  refine Serves.ite (fun _ => Serves.refl _) fun _ => ?_
  split
  · exact Serves.ite (fun _ => endPulse_serves _ _ _) fun _ => Serves.refl _
  · exact ((updGroup_serves s g _).trans (decideMove_serves _ _ _)).trans (testRecovery_serves _ _)
  · exact Serves.refl _

theorem takeReading_serves (s : State) (p : Fin 64) (v : Reading) : Serves s (s.takeReading p v) := by
  unfold State.takeReading
  extract_lets c
  refine watchProof_serves _ _ _ ?_
  extract_lets s1 s2
  have h1 : Serves s s1 := updContact_serves s p _
  have h2 : Serves s1 s2 := Serves.ite (fun _ => updPoint_serves _ _ _) fun _ => Serves.refl _
  exact Serves.ite (fun _ => (h1.trans h2).trans (mark_serves _ _)) fun _ => h1.trans h2

theorem contactArrives_serves (s : State) (p : Fin 64) (d : PointDef) (v : Reading) : Serves s (s.contactArrives p d v) := by
  unfold State.contactArrives
  extract_lets s1
  have h1 : Serves s s1 := takeReading_serves s p v
  split
  · exact h1
  · split
    · exact h1.trans (arrivalMoving_serves _ _ _ _ _)
    · exact h1.trans (arrivalAtRest_serves _ _ _ _)

theorem contactGoesStale_serves (s : State) (p : Fin 64) : Serves s (s.contactGoesStale p) := by
  unfold State.contactGoesStale
  extract_lets c
  refine watchProof_serves _ _ _ ?_
  extract_lets s1
  have h1 : Serves s s1 := updContact_serves s p _
  exact Serves.ite (fun _ => h1) fun _ => (h1.trans (updPoint_serves _ _ _)).trans (mark_serves _ _)

theorem pointsResume_serves (s : State) : Serves s s.pointsResume :=
  Serves.foldl _ (fun t g => (updGroup_serves t g _).trans (startMove_serves _ _)) _ s

theorem pointsHalt_serves (s : State) : Serves s s.pointsHalt := Serves.foldl _ (fun t g => updGroup_serves t g _) _ s

theorem pointHome_serves (s : State) (p : Fin 64) : Serves s (s.pointHome p) := by
  unfold State.pointHome
  split
  · exact Serves.refl _
  · extract_lets s1
    refine Serves.trans (t := s1) ?_ (mark_serves _ _)
    simp only [s1]
    split
    · exact moveRequest_serves _ _ _
    · exact moveRequest_serves _ _ _
    · exact updPoint_serves _ _ _

theorem pointsRun_serves (s : State) : Serves s s.pointsRun := Serves.foldl _ (fun t p => pointHome_serves t p) _ s

/-! ## The deck -/

/-- A change of the deck is handed on: the deck block's feed follows (R166). -/
theorem Disturbs.deckChanged {s t : State} (h : Disturbs (fun b => s.deckBlock = some b) s t) : Serves s t.deckChanged := by
  unfold State.deckChanged
  extract_lets t1 t2
  have h1 := h.then ((mark_serves t .turntable).trans (settlePanel_serves _))
  have hdb : t1.deckBlock = s.deckBlock := by
    simp only [State.deckBlock, show t1.tables = s.tables from h1.tables]
  have h2 : Serves s t2 := by
    simp only [t2]
    split
    · rename_i b hb
      exact (h1.mono fun c hc => Option.some.inj ((hc.symm.trans hdb.symm).trans hb)).feedFollow
    · rename_i hb
      exact h1.serves fun b hc => by rw [← hdb, hb] at hc; cases hc
  exact (h2.trans (routesTakeDeck_serves _)).trans (noteDeck_serves _)

theorem updDeck_deckChanged_serves (s : State) (f : Deck → Deck) : Serves s (s.updDeck f).deckChanged :=
  (updDeck_disturbs s f).deckChanged

theorem handOutcome_serves (s : State) (m : MoveRec) (o : TurnOutcome) : Serves s (s.handOutcome m o) := by
  unfold State.handOutcome
  extract_lets s1 s2
  have h1 : Serves s s1 := (updDeck_serves s _ rfl).trans (mark_serves _ _)
  have h2 : Serves s1 s2 := by
    simp only [s2]
    split
    · exact Serves.refl _
    · exact routeTakesOutcome_serves _ _ _
    · exact noteTurnOutcome_serves _ _ _
  exact Serves.ite (fun _ => (h1.trans h2).trans (setCuesFor_serves _ _)) fun _ => h1.trans h2

theorem enterSettling_serves (s : State) (t : TurntableDef) (m : MoveRec) : Serves s (s.enterSettling t m) := by
  unfold State.enterSettling
  exact updDeck_deckChanged_serves s _

/-- Whatever the deck record was, what a step issued changes of its demand is mended by the change handed on. -/
theorem issueStep_disturbs (s : State) (t : TurntableDef) (m : MoveRec) (x : Nat) :
    Disturbs (fun b => s.deckBlock = some b) s (s.issueStep t m x) :=
  (updDeck_disturbs s _).then (mark_serves _ _)

theorem enterMoving_serves (s : State) (t : TurntableDef) (m : MoveRec) : Serves s (s.enterMoving t m) := by
  unfold State.enterMoving
  refine Disturbs.deckChanged ?_
  split
  · split
    · exact issueStep_disturbs _ _ _ _
    · exact updDeck_disturbs _ _
  · exact issueStep_disturbs _ _ _ _
  · exact updDeck_disturbs _ _

theorem unlockDone_serves (s : State) (t : TurntableDef) (m : MoveRec) : Serves s (s.unlockDone t m) := by
  unfold State.unlockDone
  exact (updDeck_serves s _ rfl).trans
    (Serves.ite (fun _ => enterSettling_serves _ _ _) fun _ => enterMoving_serves _ _ _)

theorem enterUnlocking_serves (s : State) (t : TurntableDef) (m : MoveRec) : Serves s (s.enterUnlocking t m) := by
  unfold State.enterUnlocking
  extract_lets s1 s2
  have h2 : Serves s s2 := updDeck_deckChanged_serves s _
  exact Serves.ite (fun _ => h2.trans (unlockDone_serves _ _ _)) fun _ => h2

theorem turnTo_serves (s : State) (o : TurnOrigin) (road : Fin 24) (e : DeckAsk) : Serves s (s.turnTo o road e).1 := by
  unfold State.turnTo
  split
  · split
    · exact Serves.refl _
    · split
      · exact Serves.refl _
      · split
        · exact Serves.refl _
        · split
          · exact Serves.refl _
          · dsimp only; exact enterUnlocking_serves _ _ _
  · exact Serves.refl _

theorem turnInternal_serves (s : State) (o : TurnOrigin) (road : Fin 24) (e : DeckAsk) :
    Serves s (s.turnInternal o road e).1 := by
  unfold State.turnInternal
  split
  · exact turnTo_serves _ _ _ _
  · exact Serves.refl _

/-! ## Taking routes -/

theorem askTurn_serves (s : State) (r : Fin 64) (d : RouteDef) : Serves s (s.askTurn r d).1 := by
  unfold State.askTurn
  split
  · exact Serves.refl _
  · rename_i q _
    split
    · exact Serves.refl _
    · have h := turnInternal_serves s (.route r) q.road (DeckEnd.ask q.side)
      split <;> (rename_i e; rw [e] at h; exact h)

theorem takeRoute_serves (s : State) (r : Fin 64) : Serves s (s.takeRoute r) := by
  unfold State.takeRoute
  split
  · exact Serves.refl _
  · rename_i d _
    extract_lets s1 s2 s3 s4
    have h4 : Serves s s4 :=
      (((dequeue_serves s r).trans (Serves.foldl _ (fun t b => reserve_serves t r b) _ _)).trans
        (Serves.foldl _ (fun t (x : Fin 64 × Lie) => lock_serves t x.1) _ _)).trans
        (Serves.foldl _ (fun t (x : Fin 64 × Lie) => moveRequest_serves t x.1 x.2) _ _)
    have h5 := h4.trans (askTurn_serves s4 r d)
    generalize s4.askTurn r d = x at h5
    obtain ⟨s5, asked, away⟩ := x
    exact Serves.ite (fun _ => (h5.trans (setRoute_serves _ _ _)).trans (freeHolding_serves _ _ _)) fun _ =>
      (h5.trans (setRoute_serves _ _ _)).trans (testProof_serves _ _)

theorem examineQueue_serves (s : State) : Serves s s.examineQueue := by
  unfold State.examineQueue
  have h (t : State) (r : Fin 64) : Serves t (t.examineEntry r) :=
    Serves.ite (fun _ => takeRoute_serves _ _) fun _ => Serves.refl _
  exact (updWork_serves s _ rfl).trans (Serves.ite
    (fun _ => (Serves.foldl _ h _ _).trans (Serves.foldl _ h _ _)) fun _ => Serves.refl _)

theorem dropQueued_serves (s : State) (r : Fin 64) (e : FreeReason) : Serves s (s.dropQueued r e) := by
  unfold State.dropQueued
  split
  · exact (dequeue_serves s r).trans (setRoute_serves _ _ _)
  · exact Serves.refl _

theorem queueRoute_serves (s : State) (c : RouteClass) (r : Fin 64) (d : RouteDef) : Serves s (s.queueRoute c r d).1 := by
  unfold State.queueRoute
  split
  · exact Serves.refl _
  · split
    · exact Serves.refl _
    · split
      · exact Serves.refl _
      · split
        · exact Serves.refl _
        · extract_lets s1 s2
          have h2 : Serves s1 s2 := .of_frame rfl rfl rfl (fun _ => rfl) rfl rfl
          exact (((setRoute_serves s r _).trans h2).trans (examineQueue_serves _)).trans (settleSignals_serves _)

theorem requestRoute_serves (s : State) (c : RouteClass) (n : Nat) : Serves s (s.requestRoute c n).1 := by
  unfold State.requestRoute
  split
  · exact Serves.refl _
  · split
    · exact Serves.refl _
    · split
      · exact Serves.refl _
      · exact queueRoute_serves _ _ _ _

theorem cancelNow_serves (s : State) (r : Fin 64) (d : RouteDef) : Serves s (s.cancelNow r d).1 := by
  unfold State.cancelNow
  split
  · exact Serves.refl _
  · dsimp only; exact (dequeue_serves s r).trans (setRoute_serves _ _ _)
  · exact freeHolding_serves _ _ _
  · split
    · dsimp only; exact setRoute_serves _ _ _
    · exact freeHolding_serves _ _ _
  · exact Serves.refl _
  · exact Serves.refl _

theorem cancelRoute_serves (s : State) (n : Nat) : Serves s (s.cancelRoute n).1 := by
  unfold State.cancelRoute
  split
  · exact Serves.refl _
  · split
    · exact Serves.refl _
    · split
      · exact Serves.refl _
      · exact cancelNow_serves _ _ _

/-! ## The running show -/

theorem startHoldOff_serves (s : State) (o : ShowOrigin) : Serves s (s.startHoldOff o) := by
  unfold State.startHoldOff
  split
  · exact Serves.refl _
  · exact Serves.ite (fun _ => Serves.refl _) fun _ =>
      ((updKey_serves s _ _).trans (mark_serves _ _)).trans (settlePanel_serves _)

/-- A show record changes, the show is marked and the panel follows. -/
theorem showMoves_serves (s : State) (i : Fin 8) (f : ShowRec → ShowRec) :
    Serves s (((s.updShow i f).mark (.showing i)).settlePanel) :=
  ((updShow_serves s i f).trans (mark_serves _ _)).trans (settlePanel_serves _)

theorem beginRun_serves (s : State) (i : Fin 8) (o : ShowOrigin) : Serves s (s.beginRun i o) := showMoves_serves s i _

theorem showQueue_serves (s : State) (l : List (Fin 8)) : Serves s { s with showQueue := l } :=
  .of_frame rfl rfl rfl (fun _ => rfl) rfl rfl

theorem beginNext_serves (s : State) : Serves s s.beginNext := by
  unfold State.beginNext
  split
  · exact Serves.refl _
  · refine Serves.ite (fun _ => ?_) fun _ => Serves.refl _
    split
    · exact (showQueue_serves s _).trans (beginRun_serves _ _ _)
    · exact showQueue_serves s _

theorem endRun_serves (s : State) (i : Fin 8) (o : ShowOrigin) (x : ShowState) (e : LastEnd) :
    Serves s (s.endRun i o x e) :=
  (((showMoves_serves s i _).trans (updWork_serves _ _ rfl)).trans (startHoldOff_serves _ _)).trans (beginNext_serves _)

theorem abortShow_serves (s : State) (i : Fin 8) (c : AbortCause) : Serves s (s.abortShow i c) := by
  unfold State.abortShow
  split
  · exact ((updRun_serves s i _).trans (Serves.foldl _ (fun t r => dropQueued_serves t r .cancelled) _ _)).trans
      (endRun_serves _ _ _ _ _)
  · exact Serves.refl _

theorem nextStep_serves (s : State) (i : Fin 8) : Serves s (s.nextStep i) :=
  (updRun_serves s i _).trans (mark_serves _ _)

theorem waitFor_serves (s : State) (i : Fin 8) (k : WaitKind) (n : Nat) : Serves s (s.waitFor i k n) :=
  (updRun_serves s i _).trans (mark_serves _ _)

theorem putLine1_serves (s : State) (t : Text20) : Serves s (s.putLine1 t) := .of_frame rfl rfl rfl (fun _ => rfl) rfl rfl

theorem execStep_serves (s : State) (i : Fin 8) (x : Step) : Serves s (s.execStep i x) := by
  unfold State.execStep
  split
  · rename_i r
    have h := requestRoute_serves s .visitor r.val
    split <;> (rename_i e; rw [e] at h)
    · exact h.trans (abortShow_serves _ _ _)
    · exact (h.trans (updRun_serves _ _ _)).trans (nextStep_serves _ _)
  · rename_i road e
    have h := turnInternal_serves s (.showing i) road e
    split <;> (rename_i e; rw [e] at h)
    · exact h.trans (abortShow_serves _ _ _)
    · exact (h.trans (updRun_serves _ _ _)).trans (nextStep_serves _ _)
    · exact h.trans (nextStep_serves _ _)
  · exact (putCue_serves _ _ _).trans (nextStep_serves _ _)
  · exact (putLine1_serves s _).trans (nextStep_serves _ _)
  · exact (cancelRoute_serves _ _).trans (nextStep_serves _ _)
  · split
    · exact endRun_serves _ _ _ _ _
    · exact Serves.refl _
  · exact Serves.ite (fun _ => nextStep_serves _ _) fun _ => waitFor_serves _ _ _ _
  · exact Serves.ite (fun _ => nextStep_serves _ _) fun _ => waitFor_serves _ _ _ _
  · exact Serves.ite (fun _ => (putCue_serves _ _ _).trans (nextStep_serves _ _)) fun _ => waitFor_serves _ _ _ _
  · exact (updRun_serves s i _).trans (mark_serves _ _)

theorem carryOn_serves (n : Nat) (s : State) : Serves s (State.carryOn n s) := by
  induction n generalizing s with
  | zero => exact Serves.refl s
  | succ n ih =>
    unfold State.carryOn
    split
    · exact Serves.refl _
    · refine Serves.ite (fun _ => Serves.refl _) fun _ => ?_
      split
      · exact Serves.refl _
      · exact (execStep_serves _ _ _).trans (ih _)

theorem runShows_serves (s : State) : Serves s s.runShows := carryOn_serves _ s

theorem resumeShow_serves (s : State) : Serves s s.resumeShow := by
  unfold State.resumeShow
  split
  · exact Serves.refl _
  · extract_lets s1
    have h1 : Serves s s1 := updWork_serves s _ rfl
    split
    · exact (h1.trans (nextStep_serves _ _)).trans (runShows_serves _)
    · exact (h1.trans (abortShow_serves _ _ _)).trans (runShows_serves _)

/-! ## The end of an event -/

theorem comeToRest_serves (n : Nat) (s : State) : Serves s (State.comeToRest n s) := by
  induction n generalizing s with
  | zero => exact settleSignals_serves s
  | succ n ih =>
    unfold State.comeToRest
    refine (settleSignals_serves s).trans (Serves.ite (fun _ => ?_) fun _ => Serves.ite (fun _ => ?_) fun _ => Serves.refl _)
    · exact (examineQueue_serves _).trans (ih _)
    · exact (resumeShow_serves _).trans (ih _)

theorem settle_serves (s : State) : Serves s s.settle := (comeToRest_serves _ s).trans (settlePanel_serves _)

end Sys2Proof.Machine
end

section
/-! SUPPORT. `Serves` of the operations that a command begins with: the Train Register, the Aspect Unit's approach control, the
panel bus, the Gate Timer, the Turntable Drive, the Feed Switch, the Route Interlock, the Show Sequencer and the Detection Unit. -/

namespace Sys2Proof.Machine

/-! ## The Train Register -/

theorem becomeStray_serves (s : State) (b : Fin 48) (r : StrayReason) : Serves s (s.becomeStray b r) :=
  ((updFlags_serves s b _).trans (mark_serves _ _)).trans (settlePanel_serves _)

theorem growTrain_serves (s : State) (b : Fin 48) (c : Candidacy) : Serves s (s.growTrain b c) := by
  unfold State.growTrain
  split
  · exact Serves.ite
      (fun _ => ((becomeStray_serves s b _).trans (putTrain_serves _ _ _)).trans (mark_serves _ _)) fun _ =>
      ((putTrain_serves s _ _).trans (mark_serves _ _)).trans (mark_serves _ _)
  · exact Serves.refl _

theorem adopt_serves (s : State) (b : Fin 48) (t : Fin 24) (e : Side) : Serves s (s.adopt b t e) := by
  unfold State.adopt
  split
  · exact ((putTrain_serves s _ _).trans (mark_serves _ _)).trans (mark_serves _ _)
  · exact Serves.refl _

theorem seekLost_serves (s : State) (b : Fin 48) : Serves s (s.seekLost b) := by
  unfold State.seekLost
  split
  · exact becomeStray_serves _ _ _
  · exact adopt_serves _ _ _ _
  · exact becomeStray_serves _ _ _

theorem seekTrain_serves (s : State) (b : Fin 48) : Serves s (s.seekTrain b) := by
  unfold State.seekTrain
  split
  · exact seekLost_serves _ _
  · exact growTrain_serves _ _ _
  · exact becomeStray_serves _ _ _

theorem registerOccupied_serves (s : State) (b : Fin 48) : Serves s (s.registerOccupied b) :=
  Serves.ite (fun _ => (updFlags_serves s b _).trans (mark_serves _ _)) fun _ =>
    Serves.ite (fun _ => Serves.refl _) fun _ => seekTrain_serves _ _

theorem leaveList_serves (s : State) (b : Fin 48) : Serves s (s.leaveList b) :=
  (updFlags_serves s b _).trans (mark_serves _ _)

theorem blockLeaves_serves (s : State) (t : Fin 24) (n : Nat) (l : List TrainBlock) (speed : Option Nat) (o : Bool)
    (b : Fin 48) : Serves s (s.blockLeaves t n l speed o b) := by
  unfold State.blockLeaves
  have leaves (gone : List (Fin 48)) (x : Train) :
      Serves s (((gone.foldl State.leaveList s).putTrain t x).mark (.train t)) :=
    ((Serves.foldl _ leaveList_serves _ s).trans (putTrain_serves _ _ _)).trans (mark_serves _ _)
  exact Serves.ite (fun _ => leaves _ _) fun _ => Serves.ite (fun _ => leaves _ _) fun _ =>
    (updFlags_serves s b _).trans (mark_serves _ _)

theorem registerCleared_serves (s : State) (b : Fin 48) : Serves s (s.registerCleared b) := by
  unfold State.registerCleared
  split
  · split
    · exact ((putTrain_serves s _ _).trans (mark_serves _ _)).trans (mark_serves _ _)
    · exact blockLeaves_serves _ _ _ _ _ _ _
    · exact Serves.refl _
  · exact Serves.ite
      (fun _ => ((updFlags_serves s b _).trans (mark_serves _ _)).trans (settlePanel_serves _)) fun _ => Serves.refl _

theorem placeTrain_serves (s : State) (d : PlaceReq) : Serves s (s.placeTrain d).1 := by
  unfold State.placeTrain
  split
  · exact Serves.refl _
  · split
    · split
      · exact Serves.refl _
      · split
        · exact Serves.refl _
        · split
          · exact Serves.refl _
          · split
            · exact Serves.refl _
            · exact ((((putTrain_serves s _ _).trans (updFlags_serves _ _ _)).trans (mark_serves _ _)).trans
                (mark_serves _ _)).trans (settlePanel_serves _)
    · exact Serves.refl _

theorem dropEntry_serves (s : State) (b : Fin 48) : Serves s (s.dropEntry b) :=
  ((updFlags_serves s b _).trans (mark_serves _ _)).trans (settlePanel_serves _)

theorem handClear_serves (old : State) (bs : List (Fin 48)) (s : State) : Serves s (State.handClear old bs s) :=
  Serves.foldl _ (fun _ _ => Serves.ite (fun _ => routesTakeClear_serves _ _) fun _ => Serves.refl _) _ s

theorem freeTrain_serves (s : State) (t : Fin 24) : Serves s (s.freeTrain t) :=
  ((((putTrain_serves s t _).trans (mark_serves _ _)).trans (Serves.foldl _ dropEntry_serves _ _)).trans
    (handClear_serves _ _ _)).trans (callExamine_serves _)

theorem removeTrain_serves (s : State) (n : Nat) : Serves s (s.removeTrain n).1 := by
  unfold State.removeTrain
  split
  · exact Serves.refl _
  · split
    · exact Serves.refl _
    · split
      · exact Serves.refl _
      · exact freeTrain_serves _ _

theorem registerSpeed_serves (s : State) (b : Fin 48) (v : Nat) : Serves s (s.registerSpeed b v) := by
  unfold State.registerSpeed
  split
  · split
    · exact (putTrain_serves s _ _).trans (mark_serves _ _)
    · exact Serves.refl _
  · exact Serves.refl _

/-! ## Approach control -/

theorem releaseApproach_serves (s : State) (g : Fin 32) : Serves s (s.releaseApproach g) := putSignal_serves s g _ rfl

theorem approachTakes_serves (s : State) (b : Fin 48) : Serves s (s.approachTakes b) :=
  Serves.foldl _ (fun _ _ => by
    split
    · exact Serves.ite (fun _ => putSignal_serves _ _ _ rfl) fun _ => Serves.refl _
    · exact Serves.refl _) _ s

theorem offerResult_serves (s : State) (t : Fin 4) (b : Fin 48) (e : Side) (v : Nat) (g : Fin 32) :
    Serves s (s.offerResult t b e v g) := by
  unfold State.offerResult
  split
  · exact Serves.ite (fun _ => Serves.ite (fun _ => releaseApproach_serves _ _) fun _ =>
      (updSignal_serves s g _ rfl).trans (mark_serves _ _)) fun _ => Serves.refl _
  · exact Serves.refl _

theorem aspectTakesResult_serves (s : State) (t : Fin 4) (b : Fin 48) (e : Side) (v : Nat) :
    Serves s (s.aspectTakesResult t b e v) := Serves.foldl _ (fun _ _ => offerResult_serves _ _ _ _ _ _) _ s

/-! ## The panel bus -/

theorem markPart_serves (s : State) (m : Fin 24) (k : Nat) (v : Bool) : Serves s (s.markPart m k v) := updModule_serves s m _

theorem countSuccess_serves (s : State) (m : Fin 24) : Serves s (s.countSuccess m) := updModule_serves s m _

theorem countFailure_serves (s : State) (m : Fin 24) (c : FailCause) : Serves s (s.countFailure m c) := by
  unfold State.countFailure
  extract_lets s1 r
  have h1 : Serves s s1 := (updModule_serves s m _).trans (mark_serves _ _)
  exact Serves.ite (fun _ => h1.trans ((updModule_serves _ m _).trans (mark_serves _ _))) fun _ => h1

theorem enterOnline_serves (s : State) (m : Fin 24) : Serves s (s.enterOnline m) :=
  ((updModule_serves s m _).trans (mark_serves _ _)).trans (syncLists_serves _)

theorem workFailed_serves (s : State) (t : Transaction) (c : BusCause) : Serves s (s.workFailed t c) := by
  cases t with
  | call _ => exact updBus_serves _ _
  | write m k _ =>
    exact (Serves.ite (fun _ => markPart_serves s m k true) fun _ => Serves.refl s).trans (countFailure_serves _ _ _)
  | probe m _ => exact (updModule_serves s m _).trans (countFailure_serves _ _ _)
  | readBack m => exact countFailure_serves _ _ _
  | poll m => exact countFailure_serves _ _ _

theorem transactionFails_serves (s : State) (t : Transaction) (c : BusCause) : Serves s (s.transactionFails t c) :=
  (updBus_serves s _).trans (workFailed_serves _ _ _)

theorem freeBus_serves (s : State) : Serves s s.freeBus := updBus_serves s _

theorem callDone_serves (s : State) (c : GeneralCall) : Serves s (s.callDone c) := .of_frame rfl rfl rfl (fun _ => rfl) rfl rfl

theorem callEnds_serves (s : State) (c : GeneralCall) (o : WriteOutcome) : Serves s (s.callEnds c o) := by
  unfold State.callEnds
  split
  · exact transactionFails_serves _ _ _
  · exact transactionFails_serves _ _ _
  · exact (freeBus_serves s).trans (callDone_serves _ _)

theorem writeDone_serves (s : State) (m : Fin 24) (l : List Byte) : Serves s (s.writeDone m l) :=
  (countSuccess_serves s m).trans (Serves.ite (fun _ => updModule_serves _ _ _) fun _ => Serves.refl _)

theorem readBackDone_serves (s : State) (m : Fin 24) (bytes : BitVec 16) : Serves s (s.readBackDone m bytes) :=
  (updModule_serves s m _).trans (Serves.ite (fun _ => countSuccess_serves _ _) fun _ =>
    (markPart_serves _ m 0 true).trans (countFailure_serves _ _ _))

theorem probeDone_serves (s : State) (m : Fin 24) : Serves s (s.probeDone m) :=
  (countSuccess_serves s m).trans (Serves.ite (fun _ => Serves.refl _) fun _ => enterOnline_serves _ _)

theorem begin_serves (s : State) (t : Transaction) : Serves s (s.begin t) := by
  unfold State.begin
  refine (updBus_serves s fun b => { b with state := .busy t, recovered := false }).trans ?_
  dsimp only
  split
  · exact markPart_serves _ _ _ _
  · exact Serves.refl _

theorem startNext_serves (s : State) (high : Bool) : Serves s (s.startNext high) := by
  unfold State.startNext
  refine Serves.ite (fun _ => Serves.refl _) fun _ => ?_
  split
  · exact Serves.ite (fun _ => begin_serves _ _) fun _ => Serves.ite
      (fun _ => (updBus_serves s _).trans (workFailed_serves _ _ _)) fun _ => updBus_serves s _
  · exact Serves.refl _

theorem displayResult_serves (s : State) (v : Nat) : Serves s (s.displayResult v) := .of_frame rfl rfl rfl (fun _ => rfl) rfl rfl

/-! ## The Gate Timer -/

theorem startTiming_serves (s : State) (t : Fin 4) (dir : TrapDir) (t0 : Stamp) (o : Bool) :
    Serves s (s.startTiming t dir t0 o) := (updTrap_serves s t _).trans (mark_serves _ _)

theorem deliver_serves (s : State) (t : Fin 4) (d : TrapDef) (r : TrapResult) : Serves s (s.deliver t d r) := by
  unfold State.deliver
  extract_lets s1 s2 s3
  have h3 : Serves s s3 := ((registerSpeed_serves s d.block r.speed).trans (aspectTakesResult_serves _ t d.block r.toward r.speed)).trans
    (setCuesFor_serves _ _)
  exact Serves.ite (fun _ => h3.trans (displayResult_serves _ _)) fun _ => h3

theorem completeTiming_serves (s : State) (t : Fin 4) (d : TrapDef) (dir : TrapDir) (t0 : Stamp) (o : Bool) (e : Stamp) :
    Serves s (s.completeTiming t d dir t0 o e) := by
  unfold State.completeTiming
  exact ((updTrap_serves s t _).trans (mark_serves _ _)).trans (deliver_serves _ _ _ _)

theorem trapHit_serves (s : State) (g : Fin 8) (d : TrapDef) (e : Stamp) : Serves s (s.trapHit g d e) := by
  unfold State.trapHit
  extract_lets t
  split
  · exact startTiming_serves _ _ _ _ _
  · exact Serves.ite (fun _ => startTiming_serves _ _ _ _ _) fun _ => completeTiming_serves _ _ _ _ _ _ _
  · exact Serves.refl _

theorem takeEdge_serves (s : State) (g : Fin 8) (e : Stamp) : Serves s (s.takeEdge g e) := by
  unfold State.takeEdge
  refine Serves.ite (fun _ => Serves.refl _) fun _ => ?_
  split
  · exact Serves.refl _
  · exact (putFilter_serves s g _).trans (Serves.ite (fun _ => trapHit_serves _ _ _ _) fun _ => Serves.refl _)

theorem testHoldoff_serves (s : State) (t : Fin 4) : Serves s (s.testHoldoff t) :=
  Serves.ite (fun _ => (updTrap_serves s t _).trans (mark_serves _ _)) fun _ => Serves.refl _

theorem goQuiet_serves (s : State) (g : Fin 8) : Serves s (s.goQuiet g) :=
  (putFilter_serves s g _).trans (testHoldoff_serves _ _)

theorem abandonTiming_serves (s : State) (t : Fin 4) : Serves s (s.abandonTiming t) :=
  (updTrap_serves s t _).trans (mark_serves _ _)

/-! ## The Turntable Drive -/

/-- A deck that is not IDLE is not joined (R49). -/
theorem joined_none {d : Deck} (h : d.state ≠ .idle) : d.joined = none := by
  unfold Deck.joined
  split
  · exact absurd ‹_› h
  · rfl

/-- The deck record of a deck that is not joined changes to another such. -/
theorem updDeck_unjoined_serves (s : State) (f : Deck → Deck) (h : s.deck.joined = none)
    (h' : (f s.deck).joined = none) : Serves s (s.updDeck f) := updDeck_serves s f (h'.trans h.symm)

theorem lockDone_serves (s : State) (m : MoveRec) : Serves s (s.lockDone m) := by
  unfold State.lockDone
  exact ((updDeck_disturbs s _).then (handOutcome_serves _ _ _)).deckChanged.trans (callExamine_serves _)

theorem enterLocking_serves (s : State) (t : TurntableDef) (m : MoveRec) : Serves s (s.enterLocking t m) := by
  unfold State.enterLocking
  extract_lets s1 s2
  have h2 : Serves s s2 := updDeck_deckChanged_serves s _
  exact Serves.ite (fun _ => h2.trans (lockDone_serves _ _)) fun _ => h2

theorem issueStep_serves (s : State) (t : TurntableDef) (m : MoveRec) (x : Nat) (h : s.deck.joined = none) :
    Serves s (s.issueStep t m x) := (updDeck_unjoined_serves s _ h rfl).trans (mark_serves _ _)

theorem rampStep_serves (s : State) (t : TurntableDef) (m : MoveRec) (x : Nat) (h : s.deck.joined = none) :
    Serves s (s.rampStep t m x) := by
  unfold State.rampStep
  extract_lets x' m' s1
  have h1 : Serves s s1 := (updDeck_serves s _ rfl).trans (mark_serves _ _)
  exact Serves.ite (fun _ => h1.trans (enterSettling_serves _ _ _)) fun _ => h1.trans (issueStep_serves _ _ _ _ h)

theorem issueCreep_serves (s : State) (t : TurntableDef) (m : MoveRec) (n : Nat) (h : s.deck.joined = none) :
    Serves s (s.issueCreep t m n) := (updDeck_unjoined_serves s _ h rfl).trans (mark_serves _ _)

theorem creepStep_serves (s : State) (t : TurntableDef) (m : MoveRec) (n x : Nat) (h : s.deck.joined = none) :
    Serves s (s.creepStep t m n x) := by
  unfold State.creepStep
  extract_lets s1
  have h1 : Serves s s1 := (updDeck_serves s _ rfl).trans (mark_serves _ _)
  exact Serves.ite (fun _ => h1.trans (enterSettling_serves _ _ _)) fun _ => h1.trans (issueCreep_serves _ _ _ _ h)

theorem enterFault_serves (s : State) (c : FaultCause) : Serves s (s.enterFault c) := by
  unfold State.enterFault
  extract_lets m s1 s2
  have h1 : Disturbs (fun b => s.deckBlock = some b) s s1 := updDeck_disturbs s _
  have h2 : Disturbs (fun b => s.deckBlock = some b) s s2 := by
    simp only [s2]
    cases m with
    | some m => exact h1.then (handOutcome_serves _ _ _)
    | none => exact h1
  exact h2.deckChanged

theorem issueHoming_serves (s : State) (t : TurntableDef) (known : Bool) (n : Nat) (h : s.deck.joined = none) :
    Serves s (s.issueHoming t known n) := updDeck_unjoined_serves s _ h rfl

theorem homingBoltOut_serves (s : State) (t : TurntableDef) (known : Bool) (n : Nat) (h : s.deck.joined = none) :
    Serves s (s.homingBoltOut t known n) :=
  (updDeck_serves s _ rfl).trans (Serves.ite (fun _ => updDeck_unjoined_serves _ _ h rfl) fun _ =>
    issueHoming_serves _ _ _ _ h)

theorem homingStep_serves (s : State) (t : TurntableDef) (known : Bool) (n : Nat) (h : s.deck.joined = none) :
    Serves s (s.homingStep t known n) := by
  unfold State.homingStep
  extract_lets s1
  have h1 : Serves s s1 := (updDeck_unjoined_serves s _ h rfl).trans (mark_serves _ _)
  exact Serves.ite (fun _ => h1.trans (enterFault_serves _ _)) fun _ => h1.trans (issueHoming_serves _ _ _ _ rfl)

theorem homingDone_serves (s : State) : Serves s s.homingDone :=
  (updDeck_deckChanged_serves s _).trans (callExamine_serves _)

theorem indexCapture_serves (s : State) (t : TurntableDef) (m : MoveRec) (p : MovePhase) (x : Nat)
    (h : s.deck.joined = none) : Serves s (s.indexCapture t m p x) := by
  unfold State.indexCapture
  extract_lets e s1 rem
  have h1 : Serves s s1 := (updDeck_serves s _ rfl).trans (mark_serves _ _)
  exact Serves.ite (fun _ => enterFault_serves _ _) fun _ => Serves.ite (fun _ => h1.trans (enterSettling_serves _ _ _))
    fun _ => Serves.ite (fun _ => h1.trans (updDeck_unjoined_serves _ _ h rfl)) fun _ =>
      h1.trans ((updDeck_unjoined_serves s1 _ h rfl).trans (mark_serves _ _))

theorem kill_serves (s : State) : Serves s s.kill := by
  unfold State.kill
  split
  · exact Serves.refl _
  · split
    · exact ((updDeck_disturbs s _).then (handOutcome_serves _ _ _)).deckChanged
    · exact updDeck_deckChanged_serves s _
    · exact ((updDeck_disturbs s _).then (handOutcome_serves _ _ _)).deckChanged
    · exact ((updDeck_disturbs s _).then (handOutcome_serves _ _ _)).deckChanged
    · exact ((updDeck_disturbs s _).then (handOutcome_serves _ _ _)).deckChanged
    · exact Serves.refl _

theorem boltOutLevel_serves (s : State) (t : TurntableDef) (closed : Bool) : Serves s (s.boltOutLevel t closed) := by
  unfold State.boltOutLevel
  extract_lets s1
  have h1 : Serves s s1 := updDeck_serves s _ rfl
  refine Serves.ite (fun _ => ?_) fun _ => h1
  split
  · exact h1.trans (unlockDone_serves _ _ _)
  · rename_i h
    exact h1.trans (homingBoltOut_serves _ _ _ _ (joined_none (by rw [h]; simp)))
  · exact h1

theorem boltInLevel_serves (s : State) (closed : Bool) : Serves s (s.boltInLevel closed) := by
  unfold State.boltInLevel
  extract_lets s1
  have h1 : Serves s s1 := updDeck_serves s _ rfl
  split
  · exact Serves.ite (fun _ => h1.trans (lockDone_serves _ _)) fun _ => h1
  · exact Serves.ite (fun _ => h1.trans (updDeck_deckChanged_serves _ _)) fun _ => h1
  · exact h1

theorem turnRequest_serves (s : State) (d : TurnReq) : Serves s (s.turnRequest d).1 := by
  unfold State.turnRequest
  split
  · exact Serves.refl _
  · split
    · exact turnTo_serves _ _ _ _
    · exact Serves.refl _

/-! ## What leaves the deck record -/

/-- A fold of operations that leave the deck record. -/
theorem foldl_deck {α : Type} (f : State → α → State) (h : ∀ s a, (f s a).deck = s.deck) (l : List α) (s : State) :
    (l.foldl f s).deck = s.deck := by
  induction l generalizing s with
  | nil => rfl
  | cons a l ih => exact (ih _).trans (h s a)

@[simp] theorem putSignal_deck (s : State) (g : Fin 32) (f : SignalRec → SignalRec) : (s.putSignal g f).deck = s.deck := by
  unfold State.putSignal; split <;> rfl

@[simp] theorem setFeedState_deck (s : State) (b : Fin 48) (x : FeedState) : (s.setFeedState b x).deck = s.deck := by
  unfold State.setFeedState; split <;> rfl

@[simp] theorem feedFollow_deck (s : State) (b : Fin 48) : (s.feedFollow b).deck = s.deck := by
  unfold State.feedFollow
  split
  · split <;> simp
  · split <;> simp
  · rfl

@[simp] theorem putCue_deck (s : State) (c : Fin 16) (v : Bool) : (s.putCue c v).deck = s.deck := by
  unfold State.putCue; split <;> rfl

@[simp] theorem meetWait_deck (s : State) (i : Fin 8) : (s.meetWait i).deck = s.deck := rfl

@[simp] theorem noteAbort_deck (s : State) (i : Fin 8) (c : AbortCause) : (s.noteAbort i c).deck = s.deck := rfl

@[simp] theorem setCueFlag_deck (s : State) (c : Fin 16) : (s.setCueFlag c).deck = s.deck := by
  unfold State.setCueFlag
  dsimp only
  split
  · split <;> simp
  · simp

@[simp] theorem setCuesFor_deck (s : State) (x : Selector) : (s.setCuesFor x).deck = s.deck :=
  foldl_deck _ (fun _ _ => by split <;> simp) _ s

@[simp] theorem noteRoute_deck (s : State) (r : Fin 64) (x : RouteRec) : (s.noteRoute r x).deck = s.deck := by
  unfold State.noteRoute
  split
  · split
    · split <;> simp
    · rfl
  · rfl

@[simp] theorem noteDeck_deck (s : State) : s.noteDeck.deck = s.deck := by
  unfold State.noteDeck
  split
  · split <;> simp
  · rfl

@[simp] theorem aspectTakesRoute_deck (s : State) (r : Fin 64) (d : RouteDef) (old new : RouteRec) :
    (s.aspectTakesRoute r d old new).deck = s.deck := by
  unfold State.aspectTakesRoute
  extract_lets g s1
  have h1 : s1.deck = s.deck := by simp only [s1]; split <;> simp
  split
  · simp [h1]
  · split <;> simp [h1]
  · simp [h1]
  · split <;> simp [h1]
  · exact h1

@[simp] theorem setRoute_deck (s : State) (r : Fin 64) (x : RouteRec) : (s.setRoute r x).deck = s.deck := by
  unfold State.setRoute
  extract_lets old s1 s2 s3
  have h2 : s2.deck = s.deck := by
    simp only [s2]
    split
    · exact aspectTakesRoute_deck ..
    · rfl
  have h3 : s3.deck = s.deck := by
    simp only [s3]
    split
    · simp [h2]
    · split <;> simp [h2]
    · exact h2
  simp [h3]

@[simp] theorem touchRoute_deck (s : State) (r : Fin 64) (x : RouteRec) : (s.touchRoute r x).deck = s.deck := rfl

@[simp] theorem testProof_deck (s : State) (r : Fin 64) : (s.testProof r).deck = s.deck := by
  unfold State.testProof
  split
  · split <;> simp
  · dsimp only; split <;> simp
  · rfl

@[simp] theorem routesTakeDeck_deck (s : State) : s.routesTakeDeck.deck = s.deck :=
  foldl_deck _ (fun _ _ => by split <;> simp) _ s

/-- A change of the deck that is handed on leaves the deck record. -/
@[simp] theorem deckChanged_deck (s : State) : s.deckChanged.deck = s.deck := by
  unfold State.deckChanged
  extract_lets s1 s2
  have h2 : s2.deck = s.deck := by
    simp only [s2]
    split
    · simp [s1]
    · rfl
  simp [h2]

theorem startHoming_serves (s : State) (t : TurntableDef) : Serves s (s.startHoming t) := by
  unfold State.startHoming
  extract_lets known s1 s2
  have h2 : Serves s s2 := updDeck_deckChanged_serves s _
  have hd : s2.deck.joined = none := joined_none (by simp [s2, s1])
  exact Serves.ite (fun _ => h2.trans (homingBoltOut_serves _ _ _ _ hd)) fun _ => h2

theorem deckRun_serves (s : State) : Serves s s.deckRun := by
  unfold State.deckRun
  split
  · exact Serves.ite (fun _ => startHoming_serves _ _) fun _ => Serves.refl _
  · exact Serves.refl _

theorem homeRequest_serves (s : State) : Serves s s.homeRequest.1 := by
  unfold State.homeRequest
  split
  · exact Serves.refl _
  · split
    · exact Serves.refl _
    · split
      · exact Serves.refl _
      · split
        · exact Serves.refl _
        · split
          · exact Serves.refl _
          · dsimp only; exact startHoming_serves _ _

/-! ## The Feed Switch -/

theorem latchDecision_serves (s : State) (b : Fin 48) (k : KillMode) (h : (tget s.feeds b).state ≠ .off) :
    Serves s (s.latchDecision b k) :=
  Serves.ite (fun _ => setFeedState_serves s b _ (by simp) (.inr (.inl h))) fun _ =>
    (setFeedState_serves s b _ (by simp) (.inr (.inl h))).trans
      (updFeed_serves _ b _ (by intro _; rfl) (by intro _; rfl))

theorem takeOverload_serves (s : State) (b : Fin 48) (k : KillMode) : Serves s (s.takeOverload b k) := by
  unfold State.takeOverload
  split
  · rename_i h
    extract_lets s1 s2
    have h1 : Serves s s1 := setFeedState_serves s b _ (by simp) (.inr (.inl (by rw [h]; decide)))
    have h2 : Serves s1 s2 := updFeed_serves _ b _ (by intro _; rfl) (by intro _; rfl)
    have hs : (tget s2.feeds b).state = .tripped := by
      simp only [s2, s1, State.updFeed_feeds, tget_tupd_self, setFeedState_feeds, if_true]
    exact (h1.trans h2).trans (latchDecision_serves _ _ _ (by rw [hs]; decide))
  · exact Serves.refl _

theorem isolate_serves (s : State) (b : Fin 48) (on : Bool) : Serves s (s.isolate b on) :=
  Serves.ite (fun _ => Serves.refl _) fun _ =>
    ((updFeed_disturbs s b _ (by intro _; rfl)).then (mark_serves _ _)).feedFollow

/-- A feed that is not OFF goes to the state that its demand calls for. -/
theorem feedSettle_serves (s : State) (b : Fin 48) (h : (tget s.feeds b).state ≠ .off) : Serves s (s.feedSettle b) :=
  setFeedState_serves s b _ (fun hx => by
    by_contra hd
    simp [hd] at hx) (.inr (.inl h))

theorem restore_serves (s : State) (b : Fin 48) : Serves s (s.restore b) := by
  unfold State.restore
  split
  · rename_i h
    refine Serves.ite (fun _ => ?_) fun _ => updFeed_serves _ b _ (by intro _; rfl) (by intro _; rfl)
    have h1 : Serves s (s.updFeed b fun f => { f with log := [] }) :=
      updFeed_serves _ b _ (by intro _; rfl) (by intro _; rfl)
    exact (h1.trans (feedSettle_serves _ b (by simp [h]))).trans (settlePanel_serves _)
  · exact Serves.refl _

theorem deferredRestore_serves (s : State) (b : Fin 48) : Serves s (s.deferredRestore b) :=
  Serves.ite (fun _ => (updFeed_serves s b _ (by intro _; rfl) (by intro _; rfl)).trans
    (setFeedState_serves _ b _ (by simp) (.inl rfl))) fun _ => Serves.refl _

/-! ## Requests of routes, points and shows -/

theorem forceRelease_serves (s : State) (n : Nat) : Serves s (s.forceRelease n).1 := by
  unfold State.forceRelease
  split
  · exact Serves.refl _
  · split
    · exact Serves.refl _
    · split
      · exact Serves.refl _
      · split
        · exact Serves.refl _
        · split
          · exact Serves.refl _
          · exact freeHolding_serves _ _ _
        · exact Serves.refl _

theorem expireStack_serves (s : State) : Serves s s.expireStack :=
  Serves.foldl _ (fun t r => dropQueued_serves t r .expired) _ s

theorem throwPoint_serves (s : State) (d : ThrowReq) : Serves s (s.throwPoint d).1 := by
  unfold State.throwPoint
  split
  · exact Serves.refl _
  · split
    · split
      · exact Serves.refl _
      · split
        · exact Serves.refl _
        · split
          · exact (mark_serves s _).trans (moveRequest_serves _ _ _)
          · exact Serves.refl _
    · exact Serves.refl _

theorem startShow_serves (s : State) (o : ShowOrigin) (n : Nat) : Serves s (s.startShow o n).1 := by
  unfold State.startShow
  split
  · exact Serves.refl _
  · split
    · exact Serves.refl _
    · split
      · exact Serves.refl _
      · split
        · exact Serves.refl _
        · exact Serves.refl _
        · split
          · exact (beginRun_serves _ _ _).trans (runShows_serves _)
          · split
            · exact Serves.refl _
            · exact (showMoves_serves s _ _).trans (showQueue_serves _ _)

theorem stopShow_serves (s : State) (n : Nat) : Serves s (s.stopShow n).1 := by
  have stops (i : Fin 8) : Serves s (s.stopNow i) := by
    unfold State.stopNow
    split
    · exact (abortShow_serves _ _ _).trans (runShows_serves _)
    · exact (showQueue_serves s _).trans (showMoves_serves _ _ _)
    · exact Serves.refl _
  unfold State.stopShow
  split
  · exact Serves.refl _
  · split
    · exact Serves.refl _
    · split
      · exact stops _
      · exact Serves.refl _

theorem abortReported_serves (s : State) (i : Fin 8) : Serves s (s.abortReported i) :=
  Serves.ite (fun _ => (updShow_serves s i _).trans (mark_serves _ _)) fun _ => Serves.refl _

theorem reported_serves (s : State) (x : Subject) : Serves s (s.reported x) := by
  unfold State.reported
  split
  · exact abortReported_serves _ _
  · exact Serves.refl _

/-! ## The Detection Unit -/

theorem occupancyChanged_serves (old : State) (b : Fin 48) (s : State) : Serves s (State.occupancyChanged old b s) := by
  unfold State.occupancyChanged
  exact Serves.ite
    (fun _ => ((((registerOccupied_serves s b).trans (handClear_serves _ _ _)).trans (routesTakeOccupied_serves _ _)).trans
      (approachTakes_serves _ _)).trans (setCuesFor_serves _ _))
    fun _ => (((registerCleared_serves s b).trans (handClear_serves _ _ _)).trans (approachTakes_serves _ _)).trans
      (setCuesFor_serves _ _)

theorem takeSample_serves (s : State) (b : Fin 48) (d : BlockDef) (level : Nat) : Serves s (s.takeSample b d level) := by
  unfold State.takeSample
  extract_lets old c c' s1 s2 s3 s4
  have h1 : Serves s s1 := updChannel_serves s b _
  have h2 : Serves s1 s2 := Serves.ite (fun _ => Serves.refl _) fun _ => settlePanel_serves _
  have h3 : Serves s2 s3 := Serves.ite (fun _ => mark_serves _ _) fun _ => Serves.refl _
  have h4 : Serves s3 s4 := Serves.ite (fun _ => takeOverload_serves _ _ _) fun _ => Serves.refl _
  have h5 : Serves s s4 := ((h1.trans h2).trans h3).trans h4
  exact Serves.ite (fun _ => h5) fun _ => h5.trans (occupancyChanged_serves _ _ _)

theorem channelGoesStale_serves (s : State) (b : Fin 48) : Serves s (s.channelGoesStale b) := by
  unfold State.channelGoesStale
  extract_lets c s1
  exact Serves.ite (fun _ => updChannel_serves s b _) fun _ => (updChannel_serves s b _).trans (mark_serves _ _)

/-! ## Replies -/

theorem settleReply_serves {s : State} {x : State × Reply} (h : Serves s x.1) : Serves s (settleReply x).1 := by
  unfold settleReply
  split
  · exact h
  · exact h.trans (settle_serves _)

end Sys2Proof.Machine
end

section
/-! SUPPORT. The part at rest in CONFIG, record by record, and what the end of an event and the panel make of it: nothing but the
images' contents (`settle_atRest`). -/

namespace Sys2Proof.Machine

/-! ## The part at rest -/

/-- `State.resting` with its parts named. -/
structure AtRest (s : State) : Prop where
  channels : s.channels = tfill 48 Channel.initial
  contacts : s.contacts = tfill 64 Contact.initial
  feeds : s.feeds = tfill 48 Feed.initial
  trains : s.trains = tfill 24 Train.free
  blockFlags : s.blockFlags = tfill 48 BlockFlags.initial
  groups : s.groups = tfill 8 GroupRec.initial
  points : ∀ p, (tget s.points p).failed = false ∧ (tget s.points p).asFound = false ∧ (tget s.points p).disagree = 0 ∧
    (tget s.points p).locks = 0
  routes : s.routes = tfill 64 (.free .none)
  queue : s.queue = []
  reservers : s.reservers = tfill 48 none
  signals : s.signals = tfill 32 SignalRec.initial
  filters : s.filters = tfill 8 Filter.quiet
  traps : s.traps = tfill 4 TrapRec.initial
  deckState : s.deck.state = .unhomed
  deckPos : s.deck.pos = none
  deckAlign : s.deck.align = none
  deckLocked : s.deck.locked = false
  bolt : s.deck.bolt = .off
  relay : s.deck.relay = .bothOpen
  notBusy : ∀ t, s.bus.state ≠ .busy t
  calls : s.bus.calls = []
  safety : s.bus.safety = []
  prove : s.bus.prove = []
  keyList : s.bus.keys = []
  mimic : s.bus.mimic = []
  textList : s.bus.text = []
  modules : ∀ m, (tget s.modules m).resting
  line2 : s.text.line2 = blankText
  hold : s.text.hold = none
  shows' : s.shows = tfill 8 ShowRec.initial
  showQueue : s.showQueue = []
  keys : s.keys = tfill 64 KeyRec.initial
  work : s.work = Work.none

theorem atRest_iff {s : State} : s.resting ↔ AtRest s :=
  ⟨fun ⟨h1, h2, h3, h4, h5, h6, h7, h8, h9, h10, h11, h12, h13, h14, h15, h16, h17, h18, h19, h20, h21, h22, h23, h24, h25,
      h26, h27, h28, h29, h30, h31, h32, h33⟩ =>
    ⟨h1, h2, h3, h4, h5, h6, h7, h8, h9, h10, h11, h12, h13, h14, h15, h16, h17, h18, h19, h20, h21, h22, h23, h24, h25,
      h26, h27, h28, h29, h30, h31, h32, h33⟩,
    fun ⟨h1, h2, h3, h4, h5, h6, h7, h8, h9, h10, h11, h12, h13, h14, h15, h16, h17, h18, h19, h20, h21, h22, h23, h24, h25,
      h26, h27, h28, h29, h30, h31, h32, h33⟩ =>
    ⟨h1, h2, h3, h4, h5, h6, h7, h8, h9, h10, h11, h12, h13, h14, h15, h16, h17, h18, h19, h20, h21, h22, h23, h24, h25,
      h26, h27, h28, h29, h30, h31, h32, h33⟩⟩

section
variable {s : State} (h : AtRest s)
include h

theorem AtRest.channel (b : Fin 48) : tget s.channels b = Channel.initial := by rw [h.channels, tget_tfill]
theorem AtRest.contact (p : Fin 64) : tget s.contacts p = Contact.initial := by rw [h.contacts, tget_tfill]
theorem AtRest.feed (b : Fin 48) : tget s.feeds b = Feed.initial := by rw [h.feeds, tget_tfill]
theorem AtRest.train (t : Fin 24) : tget s.trains t = .free := by rw [h.trains, tget_tfill]
theorem AtRest.group (g : Fin 8) : tget s.groups g = GroupRec.initial := by rw [h.groups, tget_tfill]
theorem AtRest.route (r : Fin 64) : tget s.routes r = .free .none := by rw [h.routes, tget_tfill]
theorem AtRest.signal (g : Fin 32) : tget s.signals g = SignalRec.initial := by rw [h.signals, tget_tfill]
theorem AtRest.filter (g : Fin 8) : tget s.filters g = .quiet := by rw [h.filters, tget_tfill]
theorem AtRest.trap (t : Fin 4) : tget s.traps t = TrapRec.initial := by rw [h.traps, tget_tfill]
theorem AtRest.showing (i : Fin 8) : tget s.shows i = ShowRec.initial := by rw [h.shows', tget_tfill]
theorem AtRest.key (k : Fin 64) : tget s.keys k = KeyRec.initial := by rw [h.keys, tget_tfill]

theorem AtRest.runningShow : s.runningShow = none := by
  simp [State.runningShow, List.findSome?_eq_none_iff, h.showing, ShowRec.initial]

theorem AtRest.noRun : s.noRun := ⟨h.runningShow, h.work⟩

theorem AtRest.quiet : s.quiet := ⟨h.queue, h.noRun⟩

end

/-! ## The panel at rest -/

/-- A module that is not served keeps so when its parts are recomputed (R174). -/
theorem ModuleRec.resting_taken {r : ModuleRec} (h : r.resting) (contents : List (List Byte)) :
    ({ r with parts := r.taken contents } : ModuleRec).resting := by
  obtain ⟨hst, h2, h3, h4, h5, hp, h7, h8, h9, h10, h11, h12, h13⟩ := h
  refine ⟨hst, h2, h3, h4, h5, fun p hmem => ?_, h7, h8, h9, h10, h11, h12, h13⟩
  simp only [ModuleRec.taken, hst, List.mem_map] at hmem
  obtain ⟨x, -, rfl⟩ := hmem
  unfold Part.take
  split
  · rename_i q hq
    simpa using hp q (List.mem_of_getElem? hq)
  · rfl

theorem ModuleRec.resting_noParts {r : ModuleRec} (h : r.resting) : ({ r with parts := [] } : ModuleRec).resting := by
  obtain ⟨hst, h2, h3, h4, h5, -, h7⟩ := h
  exact ⟨hst, h2, h3, h4, h5, by simp, h7⟩

theorem recomputeParts_atRest {s : State} (h : AtRest s) : AtRest s.recomputeParts :=
  { h with
    modules := fun m => by
      simp only [State.recomputeParts, tget_tgen]
      split
      · exact ModuleRec.resting_taken (h.modules m) _
      · exact ModuleRec.resting_noParts (h.modules m) }

/-- Nothing is due on a part at rest (R176). -/
theorem due_atRest {s : State} (h : AtRest s) (c : BusClass) (m : Fin 24) : s.due c m = false := by
  obtain ⟨-, -, -, -, -, hp, hread, hpoll, hprobe, -⟩ := h.modules m
  have hw : s.bus.state.writing m = false := by
    unfold BusState.writing
    split
    · exact absurd ‹_› (h.notBusy _)
    · rfl
  have hpend : (tget s.modules m).anyPending = false := by
    simpa [ModuleRec.anyPending] using hp
  unfold State.due
  split
  · rfl
  · cases c <;> simp [hread, hpoll, hprobe, hw, hpend]

theorem syncLists_atRest {s : State} (h : AtRest s) : AtRest s.syncLists := by
  have hl (c : BusClass) : s.syncList c [] = [] := by
    simp [State.syncList, due_atRest h]
  exact { h with
    safety := by simp only [State.syncLists, State.updBus, h.safety, hl]
    prove := by simp only [State.syncLists, State.updBus, h.prove, hl]
    keyList := by simp only [State.syncLists, State.updBus, h.keyList, hl]
    mimic := by simp only [State.syncLists, State.updBus, h.mimic, hl]
    textList := by simp only [State.syncLists, State.updBus, h.textList, hl] }

theorem settlePanel_atRest {s : State} (h : AtRest s) : AtRest s.settlePanel :=
  syncLists_atRest (recomputeParts_atRest h)

/-! ## The end of an event at rest -/

/-- In CONFIG every signal is dark (R112). -/
theorem settledAspect_dark {s : State} {g : Fin 32} (h : s.aspectCase g = .fixed .dark) : s.settledAspect g = .dark := by
  show (s.aspectCase g).aspect _ = .dark
  rw [h]
  rfl

theorem aspectCase_config {s : State} (hm : s.mode = .config) (g : Fin 32) : s.aspectCase g = .fixed .dark := by
  unfold State.aspectCase
  split
  · rfl
  · simp [hm]

theorem settledAspect_config {s : State} (hm : s.mode = .config) (g : Fin 32) : s.settledAspect g = .dark :=
  settledAspect_dark (aspectCase_config hm g)

/-- A signal that is dark and not cleared shows dark without a change. -/
theorem showAspect_dark {s : State} {g : Fin 32} (h : tget s.signals g = SignalRec.initial) : s.showAspect g .dark = s := by
  unfold State.showAspect State.putSignal
  simp [h, SignalRec.initial, Aspect.proceed]

/-- Signals that are all to be dark, and are, settle without a change. -/
theorem settleSignals_dark {s : State} (hc : ∀ g, s.aspectCase g = .fixed .dark)
    (hs : ∀ g, tget s.signals g = SignalRec.initial) : s.settleSignals = s := by
  have hchain (n : Nat) (g : Fin 32) : s.showChain n s g = s := by
    have hset : s.showSettled s g = s := by
      unfold State.showSettled
      rw [settledAspect_dark (hc g), showAspect_dark (hs g), ite_self]
    cases n with
    | zero => exact hset
    | succ n =>
      have hf : s.frontOf s g = none := by
        unfold State.frontOf
        rw [hc g]
      unfold State.showChain
      rw [hf]
      exact hset
  unfold State.settleSignals
  suffices ∀ l : List (Fin 32), l.foldl (s.showChain 32) s = s from this _
  intro l
  induction l with
  | nil => rfl
  | cons g l ih => rw [List.foldl_cons, hchain, ih]

theorem settleSignals_atRest {s : State} (hm : s.mode = .config) (h : AtRest s) : s.settleSignals = s :=
  settleSignals_dark (aspectCase_config hm) h.signal

/-- At rest in CONFIG the end of an event is the panel's alone. -/
theorem settle_eq_settlePanel {s : State} (hm : s.mode = .config) (h : AtRest s) : s.settle = s.settlePanel := by
  have hr : State.comeToRest Config.rounds s = s := by
    show State.comeToRest (511 + 1) s = s
    unfold State.comeToRest
    simp only [settleSignals_atRest hm h, h.work, Work.none, Bool.false_eq_true, if_false, Option.isSome_none]
  unfold State.settle
  rw [hr]

theorem settle_atRest {s : State} (hm : s.mode = .config) (h : AtRest s) : AtRest s.settle := by
  rw [settle_eq_settlePanel hm h]
  exact settlePanel_atRest h

end Sys2Proof.Machine
end

section
/-! SUPPORT. What every command keeps of the rest in CONFIG, of the feeds and of the LED table (`exec_keeps`): for each request
what its block does (`take…_keeps`), for each change of mode, and for each other command its own meaning. -/

namespace Sys2Proof.Machine

/-! ## What a command keeps -/

/-- `t` is `s` after a command: the part at rest in CONFIG, the feeds and the LED slots are sound in `t` where they are in `s`. -/
structure StepKeeps (s t : State) : Prop where
  rest : s.configAtRest → t.configAtRest
  feeds : s.feedsSound → t.feedsSound
  leds : s.tables.ledsOrdered → t.tables.ledsOrdered

theorem StepKeeps.refl (s : State) : StepKeeps s s := ⟨id, id, id⟩

theorem StepKeeps.trans {s t u : State} (h : StepKeeps s t) (k : StepKeeps t u) : StepKeeps s u :=
  ⟨k.rest ∘ h.rest, k.feeds ∘ h.feeds, k.leds ∘ h.leds⟩

/-- An operation that serves, and in CONFIG leaves the part at rest. -/
theorem StepKeeps.of_serves {s t : State} (h : Serves s t) (hr : s.mode = .config → AtRest s → AtRest t) : StepKeeps s t where
  rest hs hm := by
    rw [h.mode] at hm
    exact atRest_iff.2 (hr hm (atRest_iff.1 (hs hm)))
  feeds := h.feedsSound
  leds hl := by rw [h.tables]; exact hl

/-- An operation that serves and is not made in CONFIG. -/
theorem StepKeeps.of_service {s t : State} (h : Serves s t) (hm : s.mode ≠ .config) : StepKeeps s t :=
  .of_serves h fun hc => absurd hc hm

theorem StepKeeps.ite {p : Prop} [Decidable p] {s t u : State} (ht : p → StepKeeps s t) (hu : ¬ p → StepKeeps s u) :
    StepKeeps s (if p then t else u) := by
  split
  · exact ht ‹_›
  · exact hu ‹_›

theorem updLink_atRest {s : State} (h : AtRest s) (f : LinkPort → LinkPort) : AtRest (s.updLink f) := { h with }

theorem updLink_keeps (s : State) (f : LinkPort → LinkPort) : StepKeeps s (s.updLink f) :=
  .of_serves (updLink_serves s f) fun _ h => updLink_atRest h f

theorem mark_keeps (s : State) (x : Subject) : StepKeeps s (s.mark x) := updLink_keeps s _

theorem advance_keeps (s : State) (dt : Nat) : StepKeeps s (s.advance dt) :=
  .of_serves (advance_serves s dt) fun _ h => { h with }

theorem settle_keeps (s : State) : StepKeeps s s.settle := .of_serves (settle_serves s) settle_atRest

theorem settlePanel_keeps (s : State) : StepKeeps s s.settlePanel :=
  .of_serves (settlePanel_serves s) fun _ => settlePanel_atRest

/-! ## Changes of mode -/

/-- In HALT no feed is demanded ON, so with every feed off ON the feeds are sound. -/
theorem feedsSound_of_notOn {s : State} (hc : s.mode ≠ .config) (ht : s.tables.firstFailure = none)
    (h : ∀ b, (tget s.feeds b).state ≠ .on) : s.feedsSound :=
  ⟨fun _ => ht, fun hm => absurd hm hc, fun b hb => absurd hb (h b)⟩

/-- Entry into RUN from a mode in which no feed is ON, the rest of the way kept to service. -/
theorem StepKeeps.of_running {s t : State} (hm : t.mode = .run) (hf : s.feedsSound → t.feedsSound)
    (ht : t.tables = s.tables) : StepKeeps s t :=
  ⟨fun _ hc => (by rw [hm] at hc; cases hc), hf, by rw [ht]; exact id⟩

theorem giveRestart_serves (s : State) (b : Fin 48) (he : s.work.entering = false) (hm : s.mode ≠ .config) :
    Serves s (s.giveRestart b) ∧ (s.giveRestart b).work.entering = false := by
  unfold State.giveRestart
  split
  · exact ⟨Serves.refl s, he⟩
  · split
    · rename_i h
      dsimp only
      split
      · exact ⟨setFeedState_serves s b _ (fun _ => h.2) (.inr (.inr ⟨hm, he⟩)), by rw [setFeedState_work]; exact he⟩
      · exact ⟨updFeed_serves s b _ (by intro _; rfl) (by intro _; rfl), he⟩
    · exact ⟨Serves.refl s, he⟩

theorem giveRestarts_serves (s : State) (he : s.work.entering = false) (hm : s.mode ≠ .config) :
    Serves s s.giveRestarts := by
  unfold State.giveRestarts
  generalize indices 48 = l
  induction l generalizing s with
  | nil => exact Serves.refl s
  | cons b l ih =>
    obtain ⟨h, he'⟩ := giveRestart_serves s b he hm
    exact h.trans (ih _ he' (by rw [h.mode]; exact hm))

theorem putEntering_feeds {s : State} {b : Bool} (h : s.feedsSound) : (s.putEntering b).feedsSound := h

/-- The end of an entry into RUN keeps the feeds, the mode and the tables. -/
theorem endEntry_keeps (s : State) (hm : s.mode = .run) :
    s.endEntry.mode = .run ∧ s.endEntry.tables = s.tables ∧ (s.feedsSound → s.endEntry.feedsSound) := by
  have h1 : Serves s s.callExamine.settle := (callExamine_serves s).trans (settle_serves _)
  have hm1 : (s.callExamine.settle.putEntering false).mode ≠ .config := by
    show s.callExamine.settle.mode ≠ _
    rw [h1.mode, hm]; decide
  have h2 := giveRestarts_serves (s.callExamine.settle.putEntering false) rfl hm1
  exact ⟨h2.mode.trans (h1.mode.trans hm), h2.tables.trans h1.tables, fun hs =>
    h2.feedsSound (putEntering_feeds (h1.feedsSound hs))⟩

/-- Before an entry into RUN no feed is ON. -/
theorem not_on_of_notRun {s : State} (h : s.feedsSound) (hm : s.mode ≠ .run) (b : Fin 48) : (tget s.feeds b).state ≠ .on :=
  fun hb => hm (feedDemand_run (h.2.2 b hb))

/-- Marks change the report list alone. -/
theorem markAll_eq (s : State) (l : List Subject) :
    s.markAll l = s.updLink fun k => { k with reports := l.foldl joinTail k.reports } := by
  unfold State.markAll
  induction l generalizing s with
  | nil => rfl
  | cons x l ih => exact ih _

/-- Entry into RUN from CONFIG, before the points' home moves and the deck's homing (R20). -/
def State.begun (s : State) : State :=
  ((s.putMode .run).putEntering true).detectionRun.registerRun.signalsRun.gatesInitial.panelRun.showsRun

theorem enterRun_eq (s : State) : s.enterRun = s.begun.pointsRun.deckRun.endEntry := rfl

@[simp] theorem begun_mode (s : State) : s.begun.mode = .run := by
  simp only [State.begun, State.showsRun, State.signalsRun, markAll_eq]; rfl

@[simp] theorem begun_tables (s : State) : s.begun.tables = s.tables := by
  simp only [State.begun, State.showsRun, State.signalsRun, markAll_eq]; rfl

@[simp] theorem begun_feeds (s : State) : s.begun.feeds = s.feeds := by
  simp only [State.begun, State.showsRun, State.signalsRun, markAll_eq]; rfl

theorem enterRun_keeps (s : State) (hc : s.mode = .config) (ht : s.tables.firstFailure = none) : StepKeeps s s.enterRun := by
  have h3 : Serves s.begun s.begun.pointsRun.deckRun := (pointsRun_serves _).trans (deckRun_serves _)
  obtain ⟨hm4, ht4, hf4⟩ := endEntry_keeps s.begun.pointsRun.deckRun (h3.mode.trans (begun_mode s))
  rw [enterRun_eq]
  refine .of_running hm4 (fun hs => hf4 (h3.feedsSound ?_)) (ht4.trans (h3.tables.trans (begun_tables s)))
  refine feedsSound_of_notOn (by simp) (by simpa using ht) fun b => ?_
  rw [begun_feeds]
  exact not_on_of_notRun hs (by rw [hc]; decide) b

theorem resumeRun_keeps (s : State) (hh : s.mode.isHalt = true) : StepKeeps s s.resumeRun := by
  unfold State.resumeRun
  extract_lets s1
  have hnr : s.mode ≠ .run := fun h => by rw [h] at hh; cases hh
  have hnc : s.mode ≠ .config := fun h => by rw [h] at hh; cases hh
  have h2 : Serves s1 (((indices 48).foldl State.deferredRestore s1).pointsResume) :=
    (Serves.foldl _ deferredRestore_serves _ s1).trans (pointsResume_serves _)
  obtain ⟨hm3, ht3, hf3⟩ := endEntry_keeps _ (h2.mode.trans (rfl : s1.mode = .run))
  refine .of_running hm3 (fun hs => hf3 (h2.feedsSound ?_)) (ht3.trans h2.tables)
  exact feedsSound_of_notOn (show Mode.run ≠ .config by decide) (hs.1 hnc) fun b => not_on_of_notRun hs hnr b

/-- A feed that is not in RUN follows its demand: it is not ON, and no other feed has changed. -/
theorem feedFollow_notRun (s : State) (b c : Fin 48) (hm : s.mode ≠ .run) :
    (tget (s.feedFollow b).feeds c).state ≠ .on ∨ (c ≠ b ∧ (tget (s.feedFollow b).feeds c) = tget s.feeds c) := by
  have hd : s.feedDemand b = false := by
    by_contra h
    exact hm (feedDemand_run (by simpa using h))
  by_cases hcb : c = b
  · subst hcb
    left
    unfold State.feedFollow
    simp only [hd, Bool.false_eq_true, if_false, Bool.false_and]
    split
    · rw [setFeedState_feeds, if_pos rfl]; simp
    · rename_i h; rw [h]; decide
    · assumption
  · right
    refine ⟨hcb, ?_⟩
    unfold State.feedFollow
    simp only [hd, Bool.false_eq_true, if_false, Bool.false_and]
    split
    · rw [setFeedState_feeds, if_neg (Ne.symm hcb)]
    · rfl
    · rfl

/-- After an entry into HALT has turned the feeds off none is ON (R44). -/
theorem feedsHalt_notOn (s : State) (hm : s.mode ≠ .run) :
    Serves s s.feedsHalt ∧ ∀ b, (tget s.feedsHalt.feeds b).state ≠ .on := by
  let f : State → Fin 48 → State := fun s b => (s.updFeed b fun x => { x with restart := none }).feedFollow b
  have hf (u : State) (b : Fin 48) : Serves u (f u b) :=
    (updFeed_serves u b _ (by intro _; rfl) (by intro _; rfl)).trans (feedFollow_serves _ _)
  refine ⟨Serves.foldl f hf _ s, ?_⟩
  suffices ∀ (l : List (Fin 48)) (u : State), u.mode ≠ .run →
      ∀ b, b ∈ l ∨ (tget u.feeds b).state ≠ .on → (tget (l.foldl f u).feeds b).state ≠ .on from
    fun b => this (indices 48) s hm b (.inl (mem_indices b))
  intro l
  induction l with
  | nil => intro u _ b hb; exact hb.resolve_left (by simp)
  | cons c l ih =>
    intro u hu b hb
    refine ih (f u c) (by rw [(hf u c).mode]; exact hu) b ?_
    rcases feedFollow_notRun (u.updFeed c fun x => { x with restart := none }) c b hu with h | ⟨hne, h⟩
    · exact .inr h
    · rcases hb with hb | hb
      · exact .inl ((List.mem_cons.1 hb).resolve_left hne)
      · refine .inr ?_
        show (tget (State.feedFollow _ c).feeds b).state ≠ .on
        rw [h, State.updFeed_feeds, tget_tupd_ne _ (Ne.symm hne)]
        exact hb

theorem showsHalt_serves (s : State) : Serves s s.showsHalt := by
  unfold State.showsHalt
  extract_lets s1 waiting
  have h1 : Serves s s1 := by
    simp only [s1]
    split
    · exact abortShow_serves _ _ _
    · exact Serves.refl _
  exact (h1.trans (showQueue_serves _ _)).trans (Serves.foldl _ (fun t i => showMoves_serves t i _) _ _)

theorem routesHalt_serves (s : State) : Serves s s.routesHalt :=
  Serves.foldl _ (fun t r => dropQueued_serves t r .halted) _ s

theorem enterHalt_keeps (s : State) (c : HaltCause) (hm : s.mode = .run) : StepKeeps s (s.enterHalt c) := by
  unfold State.enterHalt
  extract_lets s1 s2
  have h1 : Serves s1 s1.showsHalt.pointsHalt.kill.routesHalt :=
    (((showsHalt_serves s1).trans (pointsHalt_serves _)).trans (kill_serves _)).trans (routesHalt_serves _)
  have hm1 : s1.showsHalt.pointsHalt.kill.routesHalt.mode = .halt c := h1.mode.trans rfl
  obtain ⟨h2, hoff⟩ := feedsHalt_notOn s1.showsHalt.pointsHalt.kill.routesHalt (by rw [hm1]; simp)
  have h3 : Serves s2 ((s2.updBus fun b => b.addCall .dangerAll).settle) := (updBus_serves _ _).trans (settle_serves _)
  have hm3 : ((s2.updBus fun b => b.addCall .dangerAll).settle).mode = .halt c := h3.mode.trans (h2.mode.trans hm1)
  have ht2 : s2.tables = s.tables := h2.tables.trans h1.tables
  refine ⟨fun _ hc => ?_, fun hs => h3.feedsSound (feedsSound_of_notOn ?_ ?_ hoff), by rw [h3.tables, ht2]; exact id⟩
  · rw [hm3] at hc; cases hc
  · rw [h2.mode, hm1]; simp
  · rw [ht2]; exact hs.1 (by rw [hm]; decide)

/-- Every block at its values for CONFIG, from the deck's kill on (R23). -/
def State.cleared (s : State) : State :=
  { s.pointsConfig.deckConfig.routesConfig.showsConfig.panelConfig.gatesInitial.trackConfig with work := Work.none }

theorem enterConfig_eq (s : State) :
    s.enterConfig = (s.putMode .config).kill.cleared.recomputeParts.updLink fun l => { l with reports := [.layout] } := rfl

theorem cleared_atRest (s : State) : AtRest s.cleared := by
  refine ⟨rfl, rfl, rfl, rfl, rfl, rfl, fun p => ?_, rfl, rfl, rfl, rfl, rfl, rfl, rfl, rfl, rfl, rfl, rfl, rfl,
    fun t => ?_, rfl, rfl, rfl, rfl, rfl, rfl, fun m => ?_, rfl, rfl, rfl, rfl, rfl, rfl⟩
  · simp [State.cleared, State.trackConfig, State.gatesInitial, State.panelConfig, State.showsConfig, State.routesConfig,
      State.deckConfig, State.pointsConfig]
  · show s.bus.state.atConfig ≠ _
    unfold BusState.atConfig
    split <;> simp
  · have hm : tget s.cleared.modules m = { ModuleRec.initial with
        parts := (tget s.modules m).parts.map fun p => { p with pending := false } } := tget_tgen _ m
    rw [hm]
    refine ⟨rfl, rfl, rfl, rfl, rfl, fun p hp => ?_, rfl, rfl, rfl, rfl, rfl, rfl, rfl⟩
    obtain ⟨q, -, rfl⟩ := List.mem_map.1 hp
    rfl

@[simp] theorem cleared_mode (s : State) : s.cleared.mode = s.mode := by cases s; rfl

@[simp] theorem cleared_tables (s : State) : s.cleared.tables = s.tables := by cases s; rfl

@[simp] theorem recomputeParts_mode (s : State) : s.recomputeParts.mode = s.mode := rfl

@[simp] theorem recomputeParts_tables (s : State) : s.recomputeParts.tables = s.tables := rfl

theorem enterConfig_atRest (s : State) : AtRest s.enterConfig ∧ s.enterConfig.mode = .config ∧
    s.enterConfig.tables = s.tables := by
  have hk : Serves (s.putMode .config) (s.putMode .config).kill := kill_serves _
  have hm : (s.putMode .config).kill.mode = .config := hk.mode
  have ht : (s.putMode .config).kill.tables = s.tables := hk.tables
  rw [enterConfig_eq]
  refine ⟨updLink_atRest (recomputeParts_atRest (cleared_atRest _)) _, ?_, ?_⟩
  · rw [State.updLink_mode, recomputeParts_mode, cleared_mode, hm]
  · rw [State.updLink_tables, recomputeParts_tables, cleared_tables, ht]

theorem enterConfig_keeps (s : State) : StepKeeps s s.enterConfig := by
  obtain ⟨hr, hm, ht⟩ := enterConfig_atRest s
  exact ⟨fun _ _ => atRest_iff.2 hr, fun _ => ⟨fun h => absurd hm h, fun _ b => by rw [hr.feed]; rfl, fun b hb => by
    rw [hr.feed] at hb; cases hb⟩, by rw [ht]; exact id⟩

/-- The power-on values are those at rest, with every feed OFF and no LED slot. -/
theorem atRest_reset : AtRest State.reset := by
  refine ⟨rfl, rfl, rfl, rfl, rfl, rfl, fun p => ?_, rfl, rfl, rfl, rfl, rfl, rfl, rfl, rfl, rfl, rfl, rfl, rfl,
    fun t => by simp [State.reset, Bus.initial], rfl, rfl, rfl, rfl, rfl, rfl, fun m => ?_, rfl, rfl, rfl, rfl, rfl, rfl⟩
  · simp [State.reset, PointRec.initial]
  · simp [State.reset, ModuleRec.initial, ModuleRec.resting]

theorem powerOn_keeps (s : State) (c : Clock) : StepKeeps s { s.powerOn with clock := c } where
  rest _ _ := atRest_iff.2 { atRest_reset with }
  feeds _ := ⟨fun h => absurd rfl h, fun _ b => by
    show (tget (tfill 48 Feed.initial) b).state = _
    rw [tget_tfill]; rfl, fun b hb => by
    have : tget (tfill 48 Feed.initial) b = Feed.initial := tget_tfill b _
    rw [show ({ s.powerOn with clock := c } : State).feeds = tfill 48 Feed.initial from rfl, this] at hb
    cases hb⟩
  leds _ := List.Pairwise.nil

/-! ## Requests -/

/-- In CONFIG a block may leave the part at rest, and elsewhere it serves. -/
theorem StepKeeps.of_cases {s t : State} (hc : s.mode = .config → t = s) (h : s.mode ≠ .config → StepKeeps s t) :
    StepKeeps s t := by
  by_cases hm : s.mode = .config
  · rw [hc hm]; exact .refl s
  · exact h hm

/-- The tables take a new value in CONFIG. -/
theorem loaded_keeps {s t : State} (hm : s.mode = .config) (hm' : t.mode = .config) (hf : t.feeds = s.feeds)
    (hr : AtRest s → AtRest t) (hl : s.tables.ledsOrdered → t.tables.ledsOrdered) : StepKeeps s t where
  rest hs _ := atRest_iff.2 (hr (atRest_iff.1 (hs hm)))
  feeds hs := by
    refine ⟨fun h => absurd hm' h, fun _ b => by rw [hf]; exact hs.2.1 hm b, fun b hb => ?_⟩
    rw [hf, hs.2.1 hm b] at hb
    cases hb
  leds := hl

theorem putTables_keeps (s : State) (t : Tables) (hm : s.mode = .config) (hl : s.tables.ledsOrdered → t.ledsOrdered) :
    StepKeeps s (s.putTables t) :=
  loaded_keeps hm hm rfl (fun h => recomputeParts_atRest { h with }) hl

theorem defineEntry_keeps {n : Nat} {β : Type} (s : State) (index : Nat) (fields : Option β)
    (put : Tables → Fin n → β → Tables) (hl : ∀ i x, s.tables.ledsOrdered → (put s.tables i x).ledsOrdered) :
    StepKeeps s (s.defineEntry index fields put).1 := by
  unfold State.defineEntry
  split
  · exact .refl s
  · rename_i hm
    split
    · exact putTables_keeps s _ (not_not.1 hm) (hl _ _)
    · exact .refl s

/-- A slot put in its place leaves the LED table in ascending index (R10). -/
theorem putLed_ordered (k : Nat) (d : LedDef) {l : List (Nat × LedDef)} (h : l.Pairwise fun a b => a.1 < b.1) :
    (putLed k d l).Pairwise fun a b => a.1 < b.1 := by
  unfold putLed
  rw [List.pairwise_append, List.pairwise_cons]
  refine ⟨h.filter _, ⟨fun x hx => ?_, h.filter _⟩, fun x hx y hy => ?_⟩
  · exact of_decide_eq_true (List.mem_filter.1 hx).2
  · have hxk : x.1 < k := of_decide_eq_true (List.mem_filter.1 hx).2
    rcases List.mem_cons.1 hy with rfl | hy
    · exact hxk
    · have hky : k < y.1 := of_decide_eq_true (List.mem_filter.1 hy).2
      omega

theorem takeDefinePoint_keeps (d : DefPoint) (s : State) : StepKeeps s (takeDefinePoint d s).1 := by
  unfold takeDefinePoint
  extract_lets r
  have hr : StepKeeps s r.1 := defineEntry_keeps s _ _ _ fun _ _ h => h
  split
  · split
    · exact hr
    · exact hr.trans (mark_keeps _ _)
  · exact hr

theorem takeDefineStep_keeps (d : DefStep) (s : State) : StepKeeps s (takeDefineStep d s).1 := by
  unfold takeDefineStep
  split
  · exact .refl s
  · rename_i hm
    split
    · unfold State.putStep
      dsimp only
      split
      · exact putTables_keeps s _ (not_not.1 hm) id
      · split
        · split
          · exact putTables_keeps s _ (not_not.1 hm) id
          · exact .refl s
        · exact .refl s
    · exact .refl s

theorem erase_ledsOrdered {t u : Tables} {x : EraseTable} {k : Option Nat} (h : t.erase x k = some u)
    (hl : t.ledsOrdered) : u.ledsOrdered := by
  cases x
  case led =>
    obtain ⟨i, -, rfl⟩ := Option.map_eq_some_iff.1 h
    cases i with
    | none => exact List.Pairwise.nil
    | some i => exact hl.filter _
  case everything =>
    cases k with
    | none => cases h; exact List.Pairwise.nil
    | some k => cases h
  all_goals
    obtain ⟨i, -, rfl⟩ := Option.map_eq_some_iff.1 h
    exact hl

theorem markAll_keeps (s : State) (l : List Subject) : StepKeeps s (s.markAll l) := by
  unfold State.markAll
  induction l generalizing s with
  | nil => exact .refl s
  | cons x l ih => exact (mark_keeps s x).trans (ih _)

theorem takeErase_keeps (d : EraseReq) (s : State) : StepKeeps s (takeErase d s).1 := by
  unfold takeErase
  split
  · exact .refl s
  · rename_i hm
    split
    · rename_i t ht
      obtain ⟨x, -, hx⟩ := Option.bind_eq_some_iff.1 ht
      refine StepKeeps.trans ?_ (markAll_keeps _ _)
      refine loaded_keeps (not_not.1 hm) (not_not.1 hm) rfl (fun h => recomputeParts_atRest { h with
        points := fun p => ?_ }) (erase_ledsOrdered hx)
      simp only [State.dropUndefinedPoints, tget_tgen]
      split
      · exact h.points p
      · exact ⟨rfl, rfl, rfl, rfl⟩
    · exact .refl s

end Sys2Proof.Machine
end

section
/-! SUPPORT. What every request and every command keeps of the rest in CONFIG, of the feeds and of the LED table
(`step_keeps`), and the two invariants that follow (O6, O9). -/

namespace Sys2Proof.Machine

/-! ## Requests of chapter 1 -/

theorem takeSetParam_keeps (d : ParamReq) (s : State) : StepKeeps s (takeSetParam d s).1 := by
  unfold takeSetParam
  split
  · exact .refl s
  · extract_lets v s1 s2
    have h1 : Serves s s1 := .of_frame rfl rfl rfl (fun _ => rfl) rfl rfl
    have hr1 : AtRest s → AtRest s1 := fun h => { h with }
    have h2 : Serves s1 s2 := Serves.ite (fun _ => Serves.refl _) fun _ => (expireStack_serves _).trans (settle_serves _)
    refine .of_serves (h1.trans h2) fun _ h => ?_
    have hq : s1.queue = [] := h.queue
    have : s2 = s1 := by simp only [s2, hq, List.filter_nil, List.isEmpty_nil, if_true]
    rw [this]
    exact hr1 h

theorem takeSetCaption_keeps (d : CaptionReq) (s : State) : StepKeeps s (takeSetCaption d s).1 := by
  unfold takeSetCaption
  split
  · split
    · exact .of_serves (.of_frame rfl rfl rfl (fun _ => rfl) rfl rfl) fun _ h => { h with }
    · exact .refl s
  · exact .refl s

theorem putLine1_keeps (s : State) (t : Text20) : StepKeeps s (s.putLine1 t) :=
  .of_serves (putLine1_serves s t) fun _ h => settlePanel_atRest { h with }

theorem takeSetText_keeps (l : List Byte) (s : State) : StepKeeps s (takeSetText l s).1 := by
  unfold takeSetText
  split
  · exact (putLine1_keeps s _).trans (settlePanel_keeps _)
  · exact .refl s

theorem takeStartRun_keeps (a : Unit) (s : State) : StepKeeps s (takeStartRun a s).1 := by
  unfold takeStartRun
  split
  · exact .refl s
  · rename_i hm
    split
    · exact .refl s
    · rename_i ht
      dsimp only
      exact enterRun_keeps s (not_not.1 hm) ht

theorem takeStopRun_keeps (a : Unit) (s : State) : StepKeeps s (takeStopRun a s).1 := by
  unfold takeStopRun
  split
  · exact .refl s
  · dsimp only
    exact enterConfig_keeps s

theorem takeHalt_keeps (a : Unit) (s : State) : StepKeeps s (takeHalt a s).1 := by
  unfold takeHalt
  split
  · exact .refl s
  · rename_i hm
    dsimp only
    exact enterHalt_keeps s _ hm
  · exact .refl s

theorem takeResume_keeps (a : Unit) (s : State) : StepKeeps s (takeResume a s).1 := by
  unfold takeResume
  split
  · rename_i hm
    dsimp only
    exact resumeRun_keeps s hm
  · exact .refl s

theorem takeReset_keeps (a : Unit) (s : State) : StepKeeps s (takeReset a s).1 := by
  unfold takeReset
  dsimp only
  exact updLink_keeps s _

/-! ## Requests that CONFIG turns away -/

theorem takeIsolateFeed_keeps (d : IsolateReq) (s : State) : StepKeeps s (takeIsolateFeed d s).1 := by
  refine .of_cases (fun hm => by simp [takeIsolateFeed, hm, State.refuse]) fun hm => .of_service ?_ hm
  unfold takeIsolateFeed
  split
  · exact Serves.refl s
  · split
    · split
      · exact isolate_serves _ _ _
      · exact Serves.refl s
    · exact Serves.refl s

theorem takeRestoreFeed_keeps (n : Nat) (s : State) : StepKeeps s (takeRestoreFeed n s).1 := by
  refine .of_cases (fun hm => by simp [takeRestoreFeed, hm, State.refuse]) fun hm => .of_service ?_ hm
  unfold takeRestoreFeed
  split
  · exact Serves.refl s
  · split
    · split
      · exact restore_serves _ _
      · exact Serves.refl s
    · exact Serves.refl s

theorem takePlaceTrain_keeps (d : PlaceReq) (s : State) : StepKeeps s (takePlaceTrain d s).1 :=
  .of_cases (fun hm => by simp [takePlaceTrain, State.placeTrain, hm, settleReply, State.refuse])
    (.of_service (settleReply_serves (placeTrain_serves s d)))

theorem takeRemoveTrain_keeps (n : Nat) (s : State) : StepKeeps s (takeRemoveTrain n s).1 :=
  .of_cases (fun hm => by simp [takeRemoveTrain, State.removeTrain, hm, settleReply, State.refuse])
    (.of_service (settleReply_serves (removeTrain_serves s n)))

theorem takeThrowPoint_keeps (d : ThrowReq) (s : State) : StepKeeps s (takeThrowPoint d s).1 :=
  .of_cases (fun hm => by simp [takeThrowPoint, State.throwPoint, hm, settleReply, State.refuse])
    (.of_service (settleReply_serves (throwPoint_serves s d)))

theorem takeRequestRoute_keeps (n : Nat) (s : State) : StepKeeps s (takeRequestRoute n s).1 :=
  .of_cases (fun hm => by simp [takeRequestRoute, State.requestRoute, hm, settleReply, State.refuse])
    (.of_service (settleReply_serves (requestRoute_serves s _ n)))

theorem takeCancelRoute_keeps (n : Nat) (s : State) : StepKeeps s (takeCancelRoute n s).1 :=
  .of_cases (fun hm => by simp [takeCancelRoute, State.cancelRoute, hm, settleReply, State.refuse])
    (.of_service (settleReply_serves (cancelRoute_serves s n)))

theorem takeForceRelease_keeps (n : Nat) (s : State) : StepKeeps s (takeForceRelease n s).1 :=
  .of_cases (fun hm => by simp [takeForceRelease, State.forceRelease, hm, settleReply, State.refuse])
    (.of_service (settleReply_serves (forceRelease_serves s n)))

theorem takeTurn_keeps (d : TurnReq) (s : State) : StepKeeps s (takeTurn d s).1 :=
  .of_cases (fun hm => by simp [takeTurn, State.turnRequest, hm, settleReply, State.refuse])
    (.of_service (settleReply_serves (turnRequest_serves s d)))

theorem takeHome_keeps (a : Unit) (s : State) : StepKeeps s (takeHome a s).1 :=
  .of_cases (fun hm => by simp [takeHome, State.homeRequest, hm, settleReply, State.refuse])
    (.of_service (settleReply_serves (homeRequest_serves s)))

theorem takeStopTurntable_keeps (a : Unit) (s : State) : StepKeeps s (takeStopTurntable a s).1 := by
  refine .of_cases (fun hm => by simp [takeStopTurntable, hm, State.refuse]) fun hm => .of_service ?_ hm
  unfold takeStopTurntable
  split
  · exact Serves.refl s
  · split
    · exact Serves.refl s
    · exact (kill_serves s).trans (settle_serves _)

theorem startShow_config (s : State) (o : ShowOrigin) (n : Nat) (hm : s.mode = .config) :
    s.startShow o n = s.refuse .wrongMode := by simp [State.startShow, hm]

theorem takeStartShow_keeps (n : Nat) (s : State) : StepKeeps s (takeStartShow n s).1 :=
  .of_cases (fun hm => by simp [takeStartShow, startShow_config s _ n hm, settleReply, State.refuse])
    (.of_service (settleReply_serves (startShow_serves s _ n)))

theorem takeStopShow_keeps (n : Nat) (s : State) : StepKeeps s (takeStopShow n s).1 :=
  .of_cases (fun hm => by simp [takeStopShow, State.stopShow, hm, settleReply, State.refuse])
    (.of_service (settleReply_serves (stopShow_serves s n)))

/-! ## Cues and QUERY, which every mode takes -/

theorem putCue_keeps (s : State) (c : Fin 16) (v : Bool) : StepKeeps s (s.putCue c v) :=
  .of_serves (putCue_serves s c v) fun _ h => by
    unfold State.putCue
    split
    · exact h
    · exact updLink_atRest (s := { s with cues := tset s.cues c v }) { h with } _

theorem setCueFlag_keeps (s : State) (c : Fin 16) : StepKeeps s (s.setCueFlag c) := by
  refine ⟨fun hs hm => ?_, (setCueFlag_serves s c).feedsSound, by rw [(setCueFlag_serves s c).tables]; exact id⟩
  rw [(setCueFlag_serves s c).mode] at hm
  rw [setCueFlag_noShow s c (atRest_iff.1 (hs hm)).runningShow]
  exact (putCue_keeps s c true).rest hs ((putCue_serves s c true).mode.trans hm)

theorem takeSetCue_keeps (n : Nat) (s : State) : StepKeeps s (takeSetCue n s).1 := by
  unfold takeSetCue
  split
  · exact (setCueFlag_keeps s _).trans (settle_keeps _)
  · exact .refl s

theorem takeClearCue_keeps (n : Nat) (s : State) : StepKeeps s (takeClearCue n s).1 := by
  unfold takeClearCue
  split
  · exact putCue_keeps _ _ _
  · exact .refl s

theorem reported_keeps (s : State) (x : Subject) : StepKeeps s (s.reported x) :=
  .of_serves (reported_serves s x) fun _ h => by
    unfold State.reported
    split
    · unfold State.abortReported
      simp only [h.showing, ShowRec.initial, reduceCtorEq, if_false]
      exact h
    · exact h

theorem takeQuery_keeps (d : QueryReq) (s : State) : StepKeeps s (takeQuery d s).1 := by
  unfold takeQuery
  split
  · exact (updLink_keeps s _).trans (reported_keeps _ _)
  · exact .refl s

/-! ## Frames -/

theorem examineBody_keeps {α : Type} (s : State) (tag : Byte) (body : Body α) {take : α → State → State × Reply}
    (h : ∀ a s, StepKeeps s (take a s).1) : StepKeeps s (s.examineBody tag body take) := by
  unfold State.examineBody
  refine .ite (fun _ => .refl s) fun _ => ?_
  split
  · exact updLink_keeps s _
  · exact .ite (fun _ => updLink_keeps s _) fun _ => (h _ s).trans (updLink_keeps _ _)

theorem examineUnknown_keeps (s : State) (tag : Byte) : StepKeeps s (s.examineUnknown tag) :=
  .ite (fun _ => .refl s) fun _ => updLink_keeps s _

theorem takeDefine_keeps {n : Nat} {β : Type} (index : Nat) (fields : Option β) (put : Tables → Fin n → β → Tables)
    (hl : ∀ t i x, (put t i x).leds = t.leds) (s : State) : StepKeeps s (s.defineEntry index fields put).1 :=
  defineEntry_keeps s index fields put fun i x h => by rw [Tables.ledsOrdered, hl]; exact h

theorem takeDefineLed_keeps (d : DefLed) (s : State) : StepKeeps s (takeDefineLed d s).1 :=
  defineEntry_keeps s _ _ _ fun i x h => putLed_ordered i.val x h

theorem examineFrame_keeps (s : State) (kind tag : Byte) (p : List Byte) : StepKeeps s (s.examineFrame kind tag p) := by
  unfold State.examineFrame
  split
  · exact examineBody_keeps s tag _ fun _ => takeDefine_keeps _ _ _ fun _ _ _ => rfl
  · exact examineBody_keeps s tag _ takeDefinePoint_keeps
  · exact examineBody_keeps s tag _ fun _ => takeDefine_keeps _ _ _ fun _ _ _ => rfl
  · exact examineBody_keeps s tag _ fun _ => takeDefine_keeps _ _ _ fun _ _ _ => rfl
  · exact examineBody_keeps s tag _ fun _ => takeDefine_keeps _ _ _ fun _ _ _ => rfl
  · exact examineBody_keeps s tag _ fun _ => takeDefine_keeps _ _ _ fun _ _ _ => rfl
  · exact examineBody_keeps s tag _ fun _ => takeDefine_keeps _ _ _ fun _ _ _ => rfl
  · exact examineBody_keeps s tag _ fun _ => takeDefine_keeps _ _ _ fun _ _ _ => rfl
  · exact examineBody_keeps s tag _ fun _ => takeDefine_keeps _ _ _ fun _ _ _ => rfl
  · exact examineBody_keeps s tag _ fun _ => takeDefine_keeps _ _ _ fun _ _ _ => rfl
  · exact examineBody_keeps s tag _ takeDefineLed_keeps
  · exact examineBody_keeps s tag _ fun _ => takeDefine_keeps _ _ _ fun _ _ _ => rfl
  · exact examineBody_keeps s tag _ takeDefineStep_keeps
  · exact examineBody_keeps s tag _ takeErase_keeps
  · exact examineBody_keeps s tag _ takeSetParam_keeps
  · exact examineBody_keeps s tag _ takeSetCaption_keeps
  · exact examineBody_keeps s tag _ takeStartRun_keeps
  · exact examineBody_keeps s tag _ takeStopRun_keeps
  · exact examineBody_keeps s tag _ takeHalt_keeps
  · exact examineBody_keeps s tag _ takeResume_keeps
  · exact examineBody_keeps s tag _ takeReset_keeps
  · exact examineBody_keeps s tag _ takeIsolateFeed_keeps
  · exact examineBody_keeps s tag _ takeRestoreFeed_keeps
  · exact examineBody_keeps s tag _ takePlaceTrain_keeps
  · exact examineBody_keeps s tag _ takeRemoveTrain_keeps
  · exact examineBody_keeps s tag _ takeThrowPoint_keeps
  · exact examineBody_keeps s tag _ takeRequestRoute_keeps
  · exact examineBody_keeps s tag _ takeCancelRoute_keeps
  · exact examineBody_keeps s tag _ takeForceRelease_keeps
  · exact examineBody_keeps s tag _ takeTurn_keeps
  · exact examineBody_keeps s tag _ takeHome_keeps
  · exact examineBody_keeps s tag _ takeStopTurntable_keeps
  · exact examineBody_keeps s tag _ takeStartShow_keeps
  · exact examineBody_keeps s tag _ takeStopShow_keeps
  · exact examineBody_keeps s tag _ takeSetCue_keeps
  · exact examineBody_keeps s tag _ takeClearCue_keeps
  · exact examineBody_keeps s tag _ takeSetText_keeps
  · exact examineBody_keeps s tag _ takeQuery_keeps
  · exact examineUnknown_keeps _ _

/-- A byte that completes a frame has it examined; any other changes the assembler alone (R202). -/
theorem takeByte_keeps (s : State) (b : Byte) : StepKeeps s (s.takeByte b) := by
  have late : StepKeeps s s.abandonLate := by
    unfold State.abandonLate
    split
    · exact .ite (fun _ => updLink_keeps s _) fun _ => .refl s
    · exact .refl s
  unfold State.takeByte
  refine late.trans ((updLink_keeps _ fun l => { l with rx := l.rx.take b s.abandonLate.clock.us }).trans ?_)
  dsimp only
  split
  · exact examineFrame_keeps _ _ _ _
  · exact .refl _

/-! ## Commands -/

/-- A command completes and keeps the invariants. -/
def CommandKeeps (s : State) (x : Host.Outcome State Fault Refusal) : Prop := ∃ t, x = .next t ∧ StepKeeps s t

theorem CommandKeeps.of_advance {s t : State} {dt : Nat} (h : StepKeeps (s.advance dt) t) : CommandKeeps s (.next t) :=
  ⟨t, rfl, (advance_keeps s dt).trans h⟩

theorem request_keeps {α : Type} (s : State) (dt : Nat) (tag : Byte) (body : Body α)
    {take : α → State → State × Reply} (h : ∀ a s, StepKeeps s (take a s).1) :
    CommandKeeps s (s.request dt tag body take) :=
  .of_advance ((updLink_keeps (s.advance dt) fun l => { l with rx := .hunt }).trans (examineBody_keeps _ tag body h))

/-- The end of an event after an operation that serves, with nothing to serve for at rest. -/
theorem StepKeeps.of_serves_unchanged {s t : State} (h : Serves s t) (hr : s.mode = .config → AtRest s → t = s) :
    StepKeeps s t := .of_serves h fun hm ha => by rw [hr hm ha]; exact ha

/-- An operation at an instant reached, and the end of the event. -/
theorem Serves.at_expiry {s u : State} {e : Nat} (h : Serves (s.advanceTo e) u) : Serves s u.settle :=
  ((advanceTo_serves s e).trans h).trans (settle_serves u)

theorem execResetTakesEffect_keeps (dt : Nat) (s : State) : CommandKeeps s (execResetTakesEffect dt s) :=
  .of_advance (.ite (fun _ => powerOn_keeps _ _) fun _ => .refl _)

theorem execFrameGapTimeout_keeps (dt : Nat) (s : State) : CommandKeeps s (execFrameGapTimeout dt s) := by
  refine .of_advance (dt := dt) ?_
  split
  · exact (advance_keeps _ _).trans (updLink_keeps _ _)
  · exact .refl _

theorem execSendReport_keeps (dt : Nat) (s : State) : CommandKeeps s (execSendReport dt s) := by
  refine .of_advance (dt := dt) ?_
  unfold State.sendReport
  split
  · exact (updLink_keeps _ _).trans (reported_keeps _ _)
  · exact .refl _

/-! ### The sense port and the feeds -/

theorem execLevelSample_keeps (dt : Nat) (i : BitVec 7) (v : Byte) (k : BitVec 4) (s : State) :
    CommandKeeps s (execLevelSample dt i v k s) := by
  refine .of_advance (dt := dt) ?_
  generalize s.advance dt = u
  refine .of_serves_unchanged ?_ fun hm _ => ?_
  · split
    · exact (takeSample_serves _ _ _ _).trans (settle_serves _)
    · exact Serves.refl _
  · simp [State.goodSample, hm]

theorem execContactReading_keeps (dt : Nat) (i : BitVec 7) (v : Byte) (k : BitVec 4) (s : State) :
    CommandKeeps s (execContactReading dt i v k s) := by
  refine .of_advance (dt := dt) ?_
  generalize s.advance dt = u
  refine .of_serves_unchanged ?_ fun hm _ => ?_
  · split
    · exact (contactArrives_serves _ _ _ _).trans (settle_serves _)
    · exact Serves.refl _
  · simp [State.goodReading, hm]

theorem execChannelStale_keeps (dt : Nat) (b : Fin 48) (s : State) : CommandKeeps s (execChannelStale dt b s) := by
  refine .of_advance (dt := dt) ?_
  generalize s.advance dt = u
  refine .of_serves_unchanged ?_ fun _ h => ?_
  · split
    · exact (advanceTo_serves _ _).trans (channelGoesStale_serves _ _)
    · exact Serves.refl _
  · simp [h.channel, Channel.initial]

theorem execContactStale_keeps (dt : Nat) (p : Fin 64) (s : State) : CommandKeeps s (execContactStale dt p s) := by
  refine .of_advance (dt := dt) ?_
  generalize s.advance dt = u
  refine .of_serves_unchanged ?_ fun _ h => ?_
  · split
    · exact Serves.at_expiry (contactGoesStale_serves _ p)
    · exact Serves.refl _
  · simp [h.contact, Contact.initial]

theorem execFeedCoolExpiry_keeps (dt : Nat) (b : Fin 48) (s : State) : CommandKeeps s (execFeedCoolExpiry dt b s) := by
  refine .of_advance (dt := dt) ?_
  generalize s.advance dt = u
  refine .of_serves_unchanged ?_ fun _ h => ?_
  · split
    · rename_i e hs _
      refine ((advanceTo_serves _ e).trans ((updFeed_serves _ b _ (by intro _; rfl) (by intro _; rfl)).trans
        (feedSettle_serves _ b ?_))).trans (settlePanel_serves _)
      rw [State.updFeed_feeds, tget_tupd_self]
      show (tget u.feeds b).state ≠ .off
      rw [hs]
      decide
    · exact Serves.refl _
  · simp [h.feed, Feed.initial]

theorem execRestartDue_keeps (dt : Nat) (b : Fin 48) (s : State) : CommandKeeps s (execRestartDue dt b s) := by
  refine .of_advance (dt := dt) ?_
  generalize s.advance dt = u
  refine .of_serves_unchanged ?_ fun _ h => ?_
  · split
    · exact (advanceTo_serves _ _).trans ((updFeed_serves _ b _ (by intro _; rfl) (by intro _; rfl)).trans
        (feedFollow_serves _ _))
    · exact Serves.refl _
  · simp [h.feed, Feed.initial]

/-! ### The drive groups -/

theorem execSetupEnd_keeps (dt : Nat) (g : Fin 8) (s : State) : CommandKeeps s (execSetupEnd dt g s) := by
  refine .of_advance (dt := dt) ?_
  generalize s.advance dt = u
  refine .of_serves_unchanged ?_ fun _ h => ?_
  · split
    · exact Serves.at_expiry (enterPulse_serves _ g)
    · exact Serves.refl _
  · simp [h.group, GroupRec.initial]

theorem execPulseTimeEnd_keeps (dt : Nat) (g : Fin 8) (s : State) : CommandKeeps s (execPulseTimeEnd dt g s) := by
  refine .of_advance (dt := dt) ?_
  generalize s.advance dt = u
  refine .of_serves_unchanged ?_ fun _ h => ?_
  · split
    · exact Serves.at_expiry (pulseTimeOver_serves _ g)
    · exact Serves.refl _
  · simp [h.group, GroupRec.initial]

theorem windowOver_serves (s : State) (g : Fin 8) : Serves s (s.windowOver g) := by
  unfold State.windowOver
  exact (updGroup_serves s g _).trans (Serves.ite (fun _ => endPulse_serves _ _ _) fun _ => Serves.refl _)

theorem execFeedbackWindowEnd_keeps (dt : Nat) (g : Fin 8) (s : State) :
    CommandKeeps s (execFeedbackWindowEnd dt g s) := by
  refine .of_advance (dt := dt) ?_
  generalize s.advance dt = u
  refine .of_serves_unchanged ?_ fun _ h => ?_
  · split
    · exact Serves.at_expiry (windowOver_serves _ g)
    · exact Serves.refl _
  · simp [h.group, GroupRec.initial]

theorem confirmOver_serves (s : State) (g : Fin 8) : Serves s (s.confirmOver g) :=
  ((updGroup_serves s g _).trans (decideMove_serves _ _ _)).trans (testRecovery_serves _ _)

theorem execConfirmWaitEnd_keeps (dt : Nat) (g : Fin 8) (s : State) : CommandKeeps s (execConfirmWaitEnd dt g s) := by
  refine .of_advance (dt := dt) ?_
  generalize s.advance dt = u
  refine .of_serves_unchanged ?_ fun _ h => ?_
  · split
    · exact Serves.at_expiry (confirmOver_serves _ g)
    · exact Serves.refl _
  · simp [h.group, GroupRec.initial]

theorem execRecoveryEnd_keeps (dt : Nat) (g : Fin 8) (s : State) : CommandKeeps s (execRecoveryEnd dt g s) := by
  refine .of_advance (dt := dt) ?_
  generalize s.advance dt = u
  refine .of_serves_unchanged ?_ fun _ h => ?_
  · split
    · exact Serves.at_expiry ((updGroup_serves _ g fun x => { x with phaseTimer := none }).trans
        (testRecovery_serves _ g))
    · exact Serves.refl _
  · simp [h.group, GroupRec.initial]

/-! ### Routes and signals -/

theorem execStackTimeoutExpiry_keeps (dt : Nat) (r : Fin 64) (s : State) :
    CommandKeeps s (execStackTimeoutExpiry dt r s) := by
  refine .of_advance (dt := dt) ?_
  generalize s.advance dt = u
  refine .of_serves_unchanged ?_ fun _ h => ?_
  · split
    · exact Serves.at_expiry (dropQueued_serves _ r .expired)
    · exact Serves.refl _
  · simp [State.stackExpiry, h.route]

theorem execOverlapTimerExpiry_keeps (dt : Nat) (r : Fin 64) (s : State) :
    CommandKeeps s (execOverlapTimerExpiry dt r s) := by
  refine .of_advance (dt := dt) ?_
  generalize s.advance dt = u
  refine .of_serves_unchanged ?_ fun _ h => ?_
  · split
    · rename_i d _ _
      exact Serves.at_expiry (overlapExpires_serves _ r d)
    · exact Serves.refl _
  · simp [h.route]

theorem execApproachLockExpiry_keeps (dt : Nat) (r : Fin 64) (s : State) :
    CommandKeeps s (execApproachLockExpiry dt r s) := by
  refine .of_advance (dt := dt) ?_
  generalize s.advance dt = u
  refine .of_serves_unchanged ?_ fun _ h => ?_
  · split
    · exact Serves.at_expiry (freeHolding_serves _ r .cancelled)
    · exact Serves.refl _
  · simp [h.route]

theorem execApproachTimerExpiry_keeps (dt : Nat) (g : Fin 32) (s : State) :
    CommandKeeps s (execApproachTimerExpiry dt g s) := by
  refine .of_advance (dt := dt) ?_
  generalize s.advance dt = u
  refine .of_serves_unchanged ?_ fun _ h => ?_
  · split
    · exact Serves.at_expiry (releaseApproach_serves _ g)
    · exact Serves.refl _
  · simp [h.signal, SignalRec.initial]

/-! ### Gates -/

theorem execGateEdge_keeps (dt : Nat) (g : Fin 8) (l : Bool) (s : State) : CommandKeeps s (execGateEdge dt g l s) :=
  .of_advance (dt := dt) ((StepKeeps.of_serves_unchanged (takeEdge_serves _ g _) fun hm _ => by
    unfold State.takeEdge; rw [if_pos hm]).trans (settle_keeps _))

theorem execQuietTimerExpiry_keeps (dt : Nat) (g : Fin 8) (s : State) : CommandKeeps s (execQuietTimerExpiry dt g s) := by
  refine .of_advance (dt := dt) ?_
  generalize s.advance dt = u
  refine .of_serves_unchanged ?_ fun _ h => ?_
  · split
    · exact (advanceToStamp_serves _ _).trans (goQuiet_serves _ _)
    · exact Serves.refl _
  · simp [h.filter, Filter.expiry]

theorem execTrapTimeout_keeps (dt : Nat) (t : Fin 4) (s : State) : CommandKeeps s (execTrapTimeout dt t s) := by
  refine .of_advance (dt := dt) ?_
  generalize s.advance dt = u
  refine .of_serves_unchanged ?_ fun _ h => ?_
  · split
    · exact (advanceToStamp_serves _ _).trans (abandonTiming_serves _ _)
    · exact Serves.refl _
  · simp [h.trap, TrapRec.initial]

/-! ### The deck -/

/-- The contacts' levels and the direction output are not part of the rest (log entry 5). -/
theorem boltOutLevel_atRest {s : State} (h : AtRest s) (t : TurntableDef) (closed : Bool) :
    AtRest (s.boltOutLevel t closed) := by
  unfold State.boltOutLevel
  extract_lets s1
  have h1 : AtRest s1 := { h with bolt := by simp [s1, State.updDeck, h.bolt] }
  have hd : s1.deck.state = .unhomed := h1.deckState
  simp only [hd, ite_self]
  exact h1

theorem boltInLevel_atRest {s : State} (h : AtRest s) (closed : Bool) : AtRest (s.boltInLevel closed) := by
  unfold State.boltInLevel
  extract_lets s1
  have h1 : AtRest s1 := { h with bolt := by simp [s1, State.updDeck, h.bolt] }
  have hd : s1.deck.state = .unhomed := h1.deckState
  simp only [hd]
  exact h1

theorem execBoltOutContact_keeps (dt : Nat) (closed : Bool) (s : State) :
    CommandKeeps s (execBoltOutContact dt closed s) := by
  refine .of_advance (dt := dt) (.ite (fun _ => .refl _) fun _ => ?_)
  split
  · exact (StepKeeps.of_serves (boltOutLevel_serves _ _ _) fun _ h => boltOutLevel_atRest h _ _).trans (settle_keeps _)
  · exact .of_serves (updDeck_serves _ _ rfl) fun _ h => { h with }

theorem execBoltInContact_keeps (dt : Nat) (closed : Bool) (s : State) : CommandKeeps s (execBoltInContact dt closed s) :=
  .of_advance (dt := dt) (.ite (fun _ => .refl _) fun _ =>
    (StepKeeps.of_serves (boltInLevel_serves _ _) fun _ h => boltInLevel_atRest h _).trans (settle_keeps _))

theorem execBoltTimerExpiry_keeps (dt : Nat) (s : State) : CommandKeeps s (execBoltTimerExpiry dt s) := by
  refine .of_advance (dt := dt) ?_
  generalize s.advance dt = u
  refine .of_serves_unchanged ?_ fun _ h => ?_
  · split
    · exact Serves.at_expiry (enterFault_serves _ _)
    · exact Serves.at_expiry (enterFault_serves _ _)
    · exact Serves.at_expiry (enterFault_serves _ _)
    · exact Serves.refl _
  · simp [h.deckState]

theorem execDeadtimeExpiry_keeps (dt : Nat) (s : State) : CommandKeeps s (execDeadtimeExpiry dt s) := by
  refine .of_advance (dt := dt) ?_
  generalize s.advance dt = u
  refine .of_serves_unchanged ?_ fun _ h => ?_
  · split
    · rename_i t m e x _ hs _
      exact Serves.at_expiry (issueStep_serves _ t m x (joined_none (by show u.deck.state ≠ .idle; rw [hs]; simp)))
    · rename_i t known n e _ hs
      exact Serves.at_expiry (issueHoming_serves _ t known n (joined_none (by show u.deck.state ≠ .idle; rw [hs]; simp)))
    · exact Serves.refl _
  · simp [h.deckState]

theorem execStepComplete_keeps (dt : Nat) (s : State) : CommandKeeps s (execStepComplete dt s) := by
  refine .of_advance (dt := dt) ?_
  generalize s.advance dt = u
  refine .of_serves_unchanged ?_ fun _ h => ?_
  · split
    · rename_i t m _ _ e x _ hs _
      exact Serves.at_expiry (rampStep_serves _ t m x (joined_none (by show u.deck.state ≠ .idle; rw [hs]; simp)))
    · exact Serves.refl _
  · simp [h.deckState]

theorem execReversalEnd_keeps (dt : Nat) (s : State) : CommandKeeps s (execReversalEnd dt s) := by
  refine .of_advance (dt := dt) ?_
  generalize s.advance dt = u
  refine .of_serves_unchanged ?_ fun _ h => ?_
  · split
    · rename_i t m n e _ hs
      exact Serves.at_expiry (issueCreep_serves _ t m n (joined_none (by show u.deck.state ≠ .idle; rw [hs]; simp)))
    · exact Serves.refl _
  · simp [h.deckState]

theorem execCreepStepComplete_keeps (dt : Nat) (s : State) : CommandKeeps s (execCreepStepComplete dt s) := by
  refine .of_advance (dt := dt) ?_
  generalize s.advance dt = u
  refine .of_serves_unchanged ?_ fun _ h => ?_
  · split
    · rename_i t m n e x _ hs _
      exact Serves.at_expiry (creepStep_serves _ t m n x (joined_none (by show u.deck.state ≠ .idle; rw [hs]; simp)))
    · exact Serves.refl _
  · simp [h.deckState]

theorem execHomingStepComplete_keeps (dt : Nat) (s : State) : CommandKeeps s (execHomingStepComplete dt s) := by
  refine .of_advance (dt := dt) ?_
  generalize s.advance dt = u
  refine .of_serves_unchanged ?_ fun _ h => ?_
  · split
    · rename_i t known n e _ hs
      exact Serves.at_expiry (homingStep_serves _ t known n (joined_none (by show u.deck.state ≠ .idle; rw [hs]; simp)))
    · exact Serves.refl _
  · simp [h.deckState]

theorem execIndexEdge_keeps (dt : Nat) (s : State) : CommandKeeps s (execIndexEdge dt s) := by
  refine .of_advance (dt := dt) ?_
  generalize s.advance dt = u
  refine .of_serves_unchanged ?_ fun _ h => ?_
  · split
    · rename_i hs _
      exact Serves.ite (fun _ => Serves.refl _) fun _ =>
        (indexCapture_serves _ _ _ _ _ (joined_none (by rw [hs]; simp))).trans (settle_serves _)
    · exact (homingDone_serves _).trans (settle_serves _)
    · exact Serves.refl _
  · simp [h.deckState]

theorem execSettleTimeExpiry_keeps (dt : Nat) (s : State) : CommandKeeps s (execSettleTimeExpiry dt s) := by
  refine .of_advance (dt := dt) ?_
  generalize s.advance dt = u
  refine .of_serves_unchanged ?_ fun _ h => ?_
  · split
    · rename_i e _ hs
      exact (advanceTo_serves _ e).trans (updDeck_unjoined_serves _ _ (joined_none (by
        show u.deck.state ≠ .idle
        rw [hs]; simp)) rfl)
    · exact Serves.refl _
  · simp [h.deckState]

theorem execRelayDeadtimeExpiry_keeps (dt : Nat) (s : State) : CommandKeeps s (execRelayDeadtimeExpiry dt s) := by
  refine .of_advance (dt := dt) ?_
  generalize s.advance dt = u
  refine .of_serves_unchanged ?_ fun _ h => ?_
  · split
    · rename_i t m e _ _
      exact Serves.at_expiry (enterLocking_serves _ t m)
    · exact Serves.refl _
  · simp [h.deckState]

/-! ### Keys -/

/-- What a press's action comes to: a show or a route asked for, the layout halted, or nothing (R195). -/
theorem pressAction_keeps (s : State) (b : Fin 64) (a : KeyAction) : StepKeeps s (s.pressAction b a).1 := by
  cases a with
  | startShow i =>
    unfold State.pressAction
    dsimp only
    split
    · exact .refl s
    · split
      · exact .refl s
      · exact .of_cases (fun hm => by simp [startShow_config s _ _ hm, State.refuse]) (.of_service (startShow_serves s _ _))
  | visitorRoute r =>
    exact .of_cases (fun hm => by simp [State.pressAction, State.requestRoute, hm, State.refuse])
      (.of_service (requestRoute_serves s _ _))
  | emergency =>
    unfold State.pressAction
    dsimp only
    split
    · exact enterHalt_keeps s _ ‹_›
    · exact .refl s
  | none => exact .refl s

/-- What every part of a poll's end keeps, in any mode: all but the rest in CONFIG. -/
structure KeepsOn (s t : State) : Prop where
  mode : t.mode = .config ↔ s.mode = .config
  feeds : s.feedsSound → t.feedsSound
  leds : s.tables.ledsOrdered → t.tables.ledsOrdered

theorem KeepsOn.of_serves {s t : State} (h : Serves s t) : KeepsOn s t :=
  ⟨by rw [h.mode], h.feedsSound, by rw [h.tables]; exact id⟩

theorem KeepsOn.trans {s t u : State} (h : KeepsOn s t) (k : KeepsOn t u) : KeepsOn s u :=
  ⟨k.mode.trans h.mode, k.feeds ∘ h.feeds, k.leds ∘ h.leds⟩

theorem KeepsOn.refl (s : State) : KeepsOn s s := .of_serves (Serves.refl s)

theorem enterHalt_mode (s : State) (c : HaltCause) : (s.enterHalt c).mode = .halt c := by
  unfold State.enterHalt
  extract_lets s1 s2
  have h1 : Serves s1 s1.showsHalt.pointsHalt.kill.routesHalt :=
    (((showsHalt_serves s1).trans (pointsHalt_serves _)).trans (kill_serves _)).trans (routesHalt_serves _)
  have hm1 : s1.showsHalt.pointsHalt.kill.routesHalt.mode = .halt c := h1.mode.trans rfl
  obtain ⟨h2, -⟩ := feedsHalt_notOn s1.showsHalt.pointsHalt.kill.routesHalt (by rw [hm1]; simp)
  have h3 : Serves s2 ((s2.updBus fun b => b.addCall .dangerAll).settle) := (updBus_serves _ _).trans (settle_serves _)
  exact h3.mode.trans (h2.mode.trans hm1)

theorem pressAction_keepsOn (s : State) (b : Fin 64) (a : KeyAction) : KeepsOn s (s.pressAction b a).1 := by
  obtain ⟨-, hf, hl⟩ := pressAction_keeps s b a
  refine ⟨?_, hf, hl⟩
  cases a with
  | startShow i =>
    unfold State.pressAction
    dsimp only
    split
    · exact Iff.rfl
    · split
      · exact Iff.rfl
      · show (s.startShow (.key b) i.val).1.mode = _ ↔ _
        rw [(startShow_serves s _ _).mode]
  | visitorRoute r =>
    show (s.requestRoute .visitor r.val).1.mode = _ ↔ _
    rw [(requestRoute_serves s _ _).mode]
  | emergency =>
    unfold State.pressAction
    dsimp only
    split
    · rename_i hm
      rw [enterHalt_mode, hm]
      simp
    · exact Iff.rfl
  | none => exact Iff.rfl

theorem keyEvent_keepsOn (s : State) (m : Fin 24) (k : Fin 16) (down : Bool) : KeepsOn s (s.keyEvent m k down) := by
  unfold State.keyEvent
  split
  · exact .refl s
  · split
    · rename_i b d _ _
      have h1 : Serves s (((((s.updKey b fun x => { x with last := some .pressed, presses := x.presses + 1 }).mark
          (.key b)).setCuesFor (.key m k)).settle)) :=
        (((updKey_serves s b _).trans (mark_serves _ _)).trans (setCuesFor_serves _ _)).trans (settle_serves _)
      exact ((KeepsOn.of_serves h1).trans (pressAction_keepsOn _ b d.action)).trans
        (.of_serves (((updKey_serves _ b _).trans (mark_serves _ _)).trans (settle_serves _)))
    · exact .of_serves ((updKey_serves s _ _).trans (mark_serves _ _))

theorem pollDone_keepsOn (s : State) (m : Fin 24) (bytes : BitVec 16) : KeepsOn s (s.pollDone m bytes) := by
  have reading (u : State) (k : Fin 16) : KeepsOn u (State.keyReading m bytes u k) := by
    unfold State.keyReading
    extract_lets down x s1
    have h1 : KeepsOn u s1 := .of_serves (updModule_serves u m _)
    split
    · exact h1.trans (keyEvent_keepsOn _ _ _ _)
    · exact h1
  unfold State.pollDone
  refine (KeepsOn.of_serves ((countSuccess_serves s m).trans
    (updModule_serves _ m fun r => { r with pollDue := false }))).trans ?_
  dsimp only
  generalize (s.countSuccess m).updModule m (fun r => { r with pollDue := false }) = t
  generalize indices 16 = l
  induction l generalizing t with
  | nil => exact .refl t
  | cons k l ih => exact (reading t k).trans (ih _)

theorem settle_keepsOn (s : State) : KeepsOn s s.settle := .of_serves (settle_serves s)

/-! ### The panel bus -/

theorem execStartTransaction_keeps (dt : Nat) (high : Bool) (s : State) :
    CommandKeeps s (execStartTransaction dt high s) :=
  .of_advance (dt := dt) ((StepKeeps.of_serves_unchanged (startNext_serves _ high) fun hm _ => by
    unfold State.startNext; rw [if_pos hm]).trans (settle_keeps _))

theorem execClockStretchTimeout_keeps (dt : Nat) (s : State) : CommandKeeps s (execClockStretchTimeout dt s) := by
  refine .of_advance (dt := dt) (.of_serves ?_ fun _ h => ?_)
  · split
    · exact (transactionFails_serves _ _ _).trans (settle_serves _)
    · exact Serves.refl _
  · split
    · exact absurd ‹_› (h.notBusy _)
    · exact h

theorem execBusRecoveryEnd_keeps (dt : Nat) (s : State) : CommandKeeps s (execBusRecoveryEnd dt s) := by
  refine .of_advance (dt := dt) ?_
  split
  · exact .of_serves (updBus_serves _ _) fun _ h => { h with notBusy := fun _ => by simp [State.updBus] }
  · exact .refl _

theorem execGeneralCallEnd_keeps (dt : Nat) (o : WriteOutcome) (s : State) : CommandKeeps s (execGeneralCallEnd dt o s) := by
  refine .of_advance (dt := dt) (.of_serves ?_ fun _ h => ?_)
  · split
    · exact (callEnds_serves _ _ _).trans (settle_serves _)
    · exact Serves.refl _
  · split
    · exact absurd ‹_› (h.notBusy _)
    · exact h

theorem execPartWriteEnd_keeps (dt : Nat) (o : WriteOutcome) (s : State) : CommandKeeps s (execPartWriteEnd dt o s) := by
  refine .of_advance (dt := dt) (.of_serves ?_ fun _ h => ?_)
  · split
    · exact ((freeBus_serves _).trans (writeDone_serves _ _ _)).trans (settle_serves _)
    · exact (transactionFails_serves _ _ _).trans (settle_serves _)
    · exact Serves.refl _
  · split
    · exact absurd ‹_› (h.notBusy _)
    · exact absurd ‹_› (h.notBusy _)
    · exact h

theorem execProbeEnd_keeps (dt : Nat) (o : WriteOutcome) (s : State) : CommandKeeps s (execProbeEnd dt o s) := by
  refine .of_advance (dt := dt) (.of_serves ?_ fun _ h => ?_)
  · split
    · exact ((freeBus_serves _).trans (probeDone_serves _ _)).trans (settle_serves _)
    · exact (transactionFails_serves _ _ _).trans (settle_serves _)
    · exact Serves.refl _
  · split
    · exact absurd ‹_› (h.notBusy _)
    · exact absurd ‹_› (h.notBusy _)
    · exact h

theorem execReadBackEnd_keeps (dt : Nat) (o : ReadOutcome) (s : State) : CommandKeeps s (execReadBackEnd dt o s) := by
  refine .of_advance (dt := dt) (.of_serves ?_ fun _ h => ?_)
  · split
    · exact ((freeBus_serves _).trans (readBackDone_serves _ _ _)).trans (settle_serves _)
    · exact (transactionFails_serves _ _ _).trans (settle_serves _)
    · exact Serves.refl _
  · split
    · exact absurd ‹_› (h.notBusy _)
    · exact absurd ‹_› (h.notBusy _)
    · exact h

theorem execKeyPollEnd_keeps (dt : Nat) (o : ReadOutcome) (s : State) : CommandKeeps s (execKeyPollEnd dt o s) := by
  refine .of_advance (dt := dt) ?_
  generalize s.advance dt = u
  split
  · rename_i m bytes hb
    obtain ⟨hmode, hf, hl⟩ :=
      ((KeepsOn.of_serves (freeBus_serves u)).trans (pollDone_keepsOn _ m bytes)).trans (settle_keepsOn _)
    exact ⟨fun h hm => absurd hb ((atRest_iff.1 (h (hmode.1 hm))).notBusy _), hf, hl⟩
  · rename_i m _ hb
    exact .of_serves ((transactionFails_serves _ _ _).trans (settle_serves _)) fun _ h => absurd hb (h.notBusy _)
  · exact .refl _

theorem execProveTimerExpiry_keeps (dt : Nat) (m : Fin 24) (s : State) : CommandKeeps s (execProveTimerExpiry dt m s) := by
  refine .of_advance (dt := dt) ?_
  generalize s.advance dt = u
  refine .of_serves_unchanged ?_ fun _ h => ?_
  · split
    · exact ((advanceTo_serves _ _).trans (updModule_serves _ _ _)).trans (syncLists_serves _)
    · exact Serves.refl _
  · obtain ⟨-, -, -, -, -, -, -, -, -, ht, -⟩ := h.modules m
    simp only [ht]

theorem execPollTimerExpiry_keeps (dt : Nat) (m : Fin 24) (s : State) : CommandKeeps s (execPollTimerExpiry dt m s) := by
  refine .of_advance (dt := dt) ?_
  generalize s.advance dt = u
  refine .of_serves_unchanged ?_ fun _ h => ?_
  · split
    · exact ((advanceTo_serves _ _).trans (updModule_serves _ _ _)).trans (syncLists_serves _)
    · exact Serves.refl _
  · obtain ⟨-, -, -, -, -, -, -, -, -, -, ht, -⟩ := h.modules m
    simp only [ht]

theorem execProbeTimerExpiry_keeps (dt : Nat) (m : Fin 24) (s : State) : CommandKeeps s (execProbeTimerExpiry dt m s) := by
  refine .of_advance (dt := dt) ?_
  generalize s.advance dt = u
  refine .of_serves_unchanged ?_ fun _ h => ?_
  · split
    · exact ((advanceTo_serves _ _).trans (updModule_serves _ _ _)).trans (syncLists_serves _)
    · exact Serves.refl _
  · obtain ⟨-, -, -, -, -, -, -, -, -, -, -, ht, -⟩ := h.modules m
    simp only [ht]

/-! ### Text and shows -/

theorem setText_serves (s : State) (t : TextRec) : Serves s { s with text := t } :=
  .of_frame rfl rfl rfl (fun _ => rfl) rfl rfl

theorem execSpeedHoldExpiry_keeps (dt : Nat) (s : State) : CommandKeeps s (execSpeedHoldExpiry dt s) := by
  refine .of_advance (dt := dt) ?_
  generalize s.advance dt = u
  refine .of_serves_unchanged ?_ fun _ h => ?_
  · split
    · rename_i e _
      exact ((advanceTo_serves u e).trans (setText_serves _ _)).trans (settlePanel_serves _)
    · exact Serves.refl _
  · simp only [h.hold]

theorem execWaitTimerExpiry_keeps (dt : Nat) (i : Fin 8) (s : State) : CommandKeeps s (execWaitTimerExpiry dt i s) := by
  refine .of_advance (dt := dt) ?_
  generalize s.advance dt = u
  refine .of_serves_unchanged ?_ fun _ h => ?_
  · split
    · split
      · exact ((advanceTo_serves _ _).trans (Serves.ite (fun _ => meetWait_serves _ _) fun _ =>
          noteAbort_serves _ _ _)).trans (settle_serves _)
      · exact Serves.refl _
    · exact Serves.refl _
  · simp [h.showing, ShowRec.initial]

theorem execHoldOffExpiry_keeps (dt : Nat) (k : Fin 64) (s : State) : CommandKeeps s (execHoldOffExpiry dt k s) := by
  refine .of_advance (dt := dt) ?_
  generalize s.advance dt = u
  refine .of_serves_unchanged ?_ fun _ h => ?_
  · split
    · exact (advanceTo_serves _ _).trans (((updKey_serves _ k _).trans (mark_serves _ _)).trans (settlePanel_serves _))
    · exact Serves.refl _
  · simp [h.key, KeyRec.initial]

/-! ### Every command -/

theorem exec_keeps (c : Instr) (s : State) : CommandKeeps s (exec c s) := by
  cases c with
  | powerOn dt => exact .of_advance (powerOn_keeps _ _)
  | defineBlock dt tag body => exact request_keeps s dt tag body fun _ => takeDefine_keeps _ _ _ fun _ _ _ => rfl
  | definePoint dt tag body => exact request_keeps s dt tag body takeDefinePoint_keeps
  | defineGroup dt tag body => exact request_keeps s dt tag body fun _ => takeDefine_keeps _ _ _ fun _ _ _ => rfl
  | defineSignal dt tag body => exact request_keeps s dt tag body fun _ => takeDefine_keeps _ _ _ fun _ _ _ => rfl
  | defineRoute dt tag body => exact request_keeps s dt tag body fun _ => takeDefine_keeps _ _ _ fun _ _ _ => rfl
  | defineTurntable dt tag body => exact request_keeps s dt tag body fun _ => takeDefine_keeps _ _ _ fun _ _ _ => rfl
  | defineRoad dt tag body => exact request_keeps s dt tag body fun _ => takeDefine_keeps _ _ _ fun _ _ _ => rfl
  | defineTrap dt tag body => exact request_keeps s dt tag body fun _ => takeDefine_keeps _ _ _ fun _ _ _ => rfl
  | defineModule dt tag body => exact request_keeps s dt tag body fun _ => takeDefine_keeps _ _ _ fun _ _ _ => rfl
  | defineKey dt tag body => exact request_keeps s dt tag body fun _ => takeDefine_keeps _ _ _ fun _ _ _ => rfl
  | defineLed dt tag body => exact request_keeps s dt tag body takeDefineLed_keeps
  | defineCue dt tag body => exact request_keeps s dt tag body fun _ => takeDefine_keeps _ _ _ fun _ _ _ => rfl
  | defineStep dt tag body => exact request_keeps s dt tag body takeDefineStep_keeps
  | erase dt tag body => exact request_keeps s dt tag body takeErase_keeps
  | setParam dt tag body => exact request_keeps s dt tag body takeSetParam_keeps
  | setCaption dt tag body => exact request_keeps s dt tag _ takeSetCaption_keeps
  | startRun dt tag body => exact request_keeps s dt tag body takeStartRun_keeps
  | stopRun dt tag body => exact request_keeps s dt tag body takeStopRun_keeps
  | haltLayout dt tag body => exact request_keeps s dt tag body takeHalt_keeps
  | resume dt tag body => exact request_keeps s dt tag body takeResume_keeps
  | reset dt tag body => exact request_keeps s dt tag body takeReset_keeps
  | resetTakesEffect dt => exact execResetTakesEffect_keeps dt s
  | isolateFeed dt tag body => exact request_keeps s dt tag body takeIsolateFeed_keeps
  | restoreFeed dt tag body => exact request_keeps s dt tag body takeRestoreFeed_keeps
  | placeTrain dt tag body => exact request_keeps s dt tag body takePlaceTrain_keeps
  | removeTrain dt tag body => exact request_keeps s dt tag body takeRemoveTrain_keeps
  | throwPoint dt tag body => exact request_keeps s dt tag body takeThrowPoint_keeps
  | requestRoute dt tag body => exact request_keeps s dt tag body takeRequestRoute_keeps
  | cancelRoute dt tag body => exact request_keeps s dt tag body takeCancelRoute_keeps
  | forceRelease dt tag body => exact request_keeps s dt tag body takeForceRelease_keeps
  | turn dt tag body => exact request_keeps s dt tag body takeTurn_keeps
  | home dt tag body => exact request_keeps s dt tag body takeHome_keeps
  | stopTurntable dt tag body => exact request_keeps s dt tag body takeStopTurntable_keeps
  | startShow dt tag body => exact request_keeps s dt tag body takeStartShow_keeps
  | stopShow dt tag body => exact request_keeps s dt tag body takeStopShow_keeps
  | setCue dt tag body => exact request_keeps s dt tag body takeSetCue_keeps
  | clearCue dt tag body => exact request_keeps s dt tag body takeClearCue_keeps
  | setText dt tag body => exact request_keeps s dt tag _ takeSetText_keeps
  | query dt tag body => exact request_keeps s dt tag body takeQuery_keeps
  | unknownKind dt tag kind => exact .of_advance ((updLink_keeps _ _).trans (examineUnknown_keeps _ _))
  | badCheckFrame dt => exact .of_advance (updLink_keeps _ _)
  | framingError dt => exact .of_advance (updLink_keeps _ _)
  | frameGapTimeout dt => exact execFrameGapTimeout_keeps dt s
  | frameSent dt => exact .of_advance (updLink_keeps _ _)
  | sendReport dt => exact execSendReport_keeps dt s
  | levelSample dt i v k => exact execLevelSample_keeps dt i v k s
  | contactReading dt i v k => exact execContactReading_keeps dt i v k s
  | channelStale dt b => exact execChannelStale_keeps dt b s
  | contactStale dt p => exact execContactStale_keeps dt p s
  | feedCoolExpiry dt b => exact execFeedCoolExpiry_keeps dt b s
  | restartDue dt b => exact execRestartDue_keeps dt b s
  | setupEnd dt g => exact execSetupEnd_keeps dt g s
  | pulseTimeEnd dt g => exact execPulseTimeEnd_keeps dt g s
  | feedbackWindowEnd dt g => exact execFeedbackWindowEnd_keeps dt g s
  | confirmWaitEnd dt g => exact execConfirmWaitEnd_keeps dt g s
  | recoveryEnd dt g => exact execRecoveryEnd_keeps dt g s
  | stackTimeoutExpiry dt r => exact execStackTimeoutExpiry_keeps dt r s
  | overlapTimerExpiry dt r => exact execOverlapTimerExpiry_keeps dt r s
  | approachLockExpiry dt r => exact execApproachLockExpiry_keeps dt r s
  | approachTimerExpiry dt g => exact execApproachTimerExpiry_keeps dt g s
  | gateEdge dt g level => exact execGateEdge_keeps dt g level s
  | quietTimerExpiry dt g => exact execQuietTimerExpiry_keeps dt g s
  | trapTimeout dt t => exact execTrapTimeout_keeps dt t s
  | boltOutContact dt closed => exact execBoltOutContact_keeps dt closed s
  | boltInContact dt closed => exact execBoltInContact_keeps dt closed s
  | boltTimerExpiry dt => exact execBoltTimerExpiry_keeps dt s
  | deadtimeExpiry dt => exact execDeadtimeExpiry_keeps dt s
  | stepComplete dt => exact execStepComplete_keeps dt s
  | reversalEnd dt => exact execReversalEnd_keeps dt s
  | creepStepComplete dt => exact execCreepStepComplete_keeps dt s
  | homingStepComplete dt => exact execHomingStepComplete_keeps dt s
  | indexEdge dt => exact execIndexEdge_keeps dt s
  | settleTimeExpiry dt => exact execSettleTimeExpiry_keeps dt s
  | relayDeadtimeExpiry dt => exact execRelayDeadtimeExpiry_keeps dt s
  | startTransaction dt high => exact execStartTransaction_keeps dt high s
  | clockStretchTimeout dt => exact execClockStretchTimeout_keeps dt s
  | busRecoveryEnd dt => exact execBusRecoveryEnd_keeps dt s
  | generalCallEnd dt o => exact execGeneralCallEnd_keeps dt o s
  | partWriteEnd dt o => exact execPartWriteEnd_keeps dt o s
  | probeEnd dt o => exact execProbeEnd_keeps dt o s
  | readBackEnd dt o => exact execReadBackEnd_keeps dt o s
  | keyPollEnd dt o => exact execKeyPollEnd_keeps dt o s
  | proveTimerExpiry dt m => exact execProveTimerExpiry_keeps dt m s
  | pollTimerExpiry dt m => exact execPollTimerExpiry_keeps dt m s
  | probeTimerExpiry dt m => exact execProbeTimerExpiry_keeps dt m s
  | speedHoldExpiry dt => exact execSpeedHoldExpiry_keeps dt s
  | waitTimerExpiry dt k => exact execWaitTimerExpiry_keeps dt k s
  | holdOffExpiry dt k => exact execHoldOffExpiry_keeps dt k s
  | receivedByte dt b => exact .of_advance (takeByte_keeps _ b)

theorem setPending_serves (s : State) (l : List Instr) : Serves s { s with pending := l } :=
  .of_frame rfl rfl rfl (fun _ => rfl) rfl rfl

theorem step_keeps {s t : State} (h : step s = .next t) : StepKeeps s t := by
  unfold step at h
  split at h
  · cases h
    exact .refl s
  · rename_i c rest _
    obtain ⟨u, hu, hk⟩ := exec_keeps c { s with pending := rest }
    rw [hu] at h
    cases h
    exact (StepKeeps.of_serves (setPending_serves s rest) fun _ ha => { ha with }).trans hk

/-- Settles O6: in CONFIG nothing serves the layout, so each command either leaves the part at rest alone, is refused, or
enters CONFIG through `enterConfig`, which brings every block to its values. -/
theorem stepKeepsConfigAtRest : Obligations.StepKeepsConfigAtRest := by
  unfold Obligations.StepKeepsConfigAtRest
  exact fun s t hs h => (step_keeps h).rest hs

/-- Settles O9: every operation either disturbs no feed's demand or brings the feeds in step before it ends
(`Disturbs`, `feedFollow_serves`), and no request puts an LED slot out of order. -/
theorem stepKeepsFeedsSound : Obligations.StepKeepsFeedsSound := by
  unfold Obligations.StepKeepsFeedsSound
  exact fun s t h => ⟨(step_keeps h).feeds, (step_keeps h).leds⟩

end Sys2Proof.Machine
end

section
/-! SUPPORT. The power-on values, and the invariants that they meet (O4); captions and text (O18). -/

namespace Sys2Proof.Machine

/-! ## The tables of the power-on state -/

@[simp] theorem reset_train (t : Fin 24) : tget State.reset.trains t = .free := tget_tfill t _
@[simp] theorem reset_blockFlags (b : Fin 48) : tget State.reset.blockFlags b = BlockFlags.initial := tget_tfill b _
@[simp] theorem reset_route (r : Fin 64) : tget State.reset.routes r = .free .none := tget_tfill r _
@[simp] theorem reset_reserver (b : Fin 48) : tget State.reset.reservers b = none := tget_tfill b _
@[simp] theorem reset_feed (b : Fin 48) : tget State.reset.feeds b = Feed.initial := tget_tfill b _
@[simp] theorem reset_group (g : Fin 8) : tget State.reset.groups g = GroupRec.initial := tget_tfill g _
@[simp] theorem reset_show (i : Fin 8) : tget State.reset.shows i = ShowRec.initial := tget_tfill i _
@[simp] theorem reset_signal (g : Fin 32) : tget State.reset.signals g = SignalRec.initial := tget_tfill g _
@[simp] theorem reset_point (p : Fin 64) : tget State.reset.points p = PointRec.initial := tget_tfill p _
@[simp] theorem reset_module (m : Fin 24) : tget State.reset.modules m = ModuleRec.initial := tget_tfill m _
@[simp] theorem reset_routeTable (r : Fin 64) : tget State.reset.tables.routes r = none := tget_tfill r _
@[simp] theorem reset_moduleTable (m : Fin 24) : tget State.reset.tables.modules m = none := tget_tfill m _

/-! ## The invariants -/

theorem reset_linkSound : State.reset.linkSound := by
  simp [State.linkSound, State.reset, LinkPort.initial]

theorem reset_signalsShow : State.reset.signalsShow := fun g => by
  rw [settledAspect_config rfl, reset_signal]
  rfl

theorem reset_trainsSound : State.reset.trainsSound := by
  refine ⟨?_, ?_, ?_, ?_, ?_, ?_⟩
  · simp
  · simp [Train.number]
  · simp [State.listOf, Train.blocks]
  · simp [Train.number]
  · simp [BlockFlags.initial]
  · simp [State.bridged, BlockFlags.initial]

theorem reset_feedsSound : State.reset.feedsSound :=
  ⟨fun h => absurd rfl h, fun _ b => by rw [reset_feed]; rfl, fun b h => by simp [Feed.initial] at h⟩

theorem reset_reservationsSound : State.reset.reservationsSound := by
  refine ⟨?_, ?_, ?_⟩
  · simp
  · simp [RouteRec.marks]
  · simp [RouteRec.marks]

theorem reset_keepsPoint (r : Fin 64) (p : Fin 64) (l : Lie) : ¬ State.reset.keepsPoint r p l := by
  simp [State.keepsPoint, RouteRec.marks]

theorem reset_locksSound : State.reset.locksSound := by
  refine ⟨?_, fun p => ⟨[], ?_⟩, ?_, ?_, ?_⟩
  · simp [Tables.routesShaped]
  · simp [PointRec.initial, reset_keepsPoint]
  · simp [reset_keepsPoint]
  · simp [reset_keepsPoint]
  · simp [GroupRec.initial]

theorem reset_queueSound : State.reset.queueSound := by
  simp [State.queueSound, State.entriesOf, State.routeQueued, show State.reset.queue = [] from rfl]

theorem reset_showsSound : State.reset.showsSound := by
  simp [State.showsSound, State.showRuns, State.showQueued, ShowRec.initial, show State.reset.showQueue = [] from rfl]

theorem reset_panelShows : State.reset.panelShows := by
  refine ⟨fun m => ?_, ?_⟩
  · simp [ModuleRec.initial]
  · have hd (c : BusClass) (m : Fin 24) : State.reset.due c m = false := by
      simp [State.due, show State.reset.moduleDef m = none from reset_moduleTable m]
    simp [hd, show State.reset.bus = Bus.initial from rfl, Bus.initial]

/-! ## Text -/

/-- The characters of a padded text: those given, and spaces after them. -/
theorem tget_padTo20 (l : List Byte) (i : Fin 20) : tget (padTo20 l) i = l.getD i 0x20 := by
  simp only [tget_eq_getElem, padTo20, Vector.getElem_mk, List.getElem_toArray, List.getElem_take, List.getD]
  rcases Nat.lt_or_ge i.val l.length with hi | hi
  · simp [List.getElem_append_left, hi]
  · rw [List.getElem_append_right hi, List.getElem_replicate, List.getElem?_eq_none hi]
    rfl

/-- Settles O4: at power-on every table is filled with one value, so each invariant is read off it. -/
theorem powerOnMeetsInvariants : Obligations.PowerOnMeetsInvariants := by
  unfold Obligations.PowerOnMeetsInvariants
  refine ⟨⟨rfl, rfl, fun p => tget_tfill p _, fun g => tget_tfill g _, fun c => tget_tfill c _, rfl, fun k i => ?_,
    rfl⟩, reset_linkSound,
    fun _ => atRest_iff.2 atRest_reset, reset_signalsShow, reset_trainsSound, reset_feedsSound, List.Pairwise.nil,
    reset_reservationsSound, reset_locksSound, reset_queueSound, reset_showsSound, reset_panelShows⟩
  show tget (tget (tfill 16 blankText) k) i = _
  rw [tget_tfill, blankText, tget_padTo20]
  rfl

theorem printable_iff (l : List Byte) : printable l = true ↔ ∀ c ∈ l, 0x20 ≤ c.toNat ∧ c.toNat ≤ 0x7E := by
  simp [printable]

theorem setCaption_eq (s : State) (dt : Nat) (tag : Byte) (d : CaptionReq) (h : d.codes.length ≤ 20) :
    exec (.setCaption dt tag (.fields d)) s = s.request dt tag (.fields d) takeSetCaption := by
  show s.request dt tag (limitCodes CaptionReq.codes (.fields d)) takeSetCaption = _
  rw [limitCodes, if_pos h]

theorem setText_eq (s : State) (dt : Nat) (tag : Byte) (l : List Byte) (h : l.length ≤ 20) :
    exec (.setText dt tag (.fields l)) s = s.request dt tag (.fields l) takeSetText := by
  show s.request dt tag (limitCodes id (.fields l)) takeSetText = _
  rw [limitCodes, if_pos (by exact h)]

theorem setCaption_tooLong (s : State) (dt : Nat) (tag : Byte) (d : CaptionReq) (hs : s.hears tag)
    (h : 20 < d.codes.length) : exec (.setCaption dt tag (.fields d)) s = .next (s.answered dt tag (.refused .badLength)) := by
  show s.request dt tag (limitCodes CaptionReq.codes (.fields d)) takeSetCaption = _
  rw [limitCodes, if_neg (by omega), request_wrongLength s dt tag _ hs.1 hs.2.1]

theorem setText_tooLong (s : State) (dt : Nat) (tag : Byte) (l : List Byte) (hs : s.hears tag) (h : 20 < l.length) :
    exec (.setText dt tag (.fields l)) s = .next (s.answered dt tag (.refused .badLength)) := by
  show s.request dt tag (limitCodes id (.fields l)) takeSetText = _
  rw [limitCodes, if_neg (by simpa using h), request_wrongLength s dt tag _ hs.1 hs.2.1]

/-- A reply queued on a state whose calm part is that of `u`. -/
theorem pushReply_calm_of {t u : State} (tag : Byte) (r : Reply) (h : t.calm = u.calm) (hu : u.link.rx = .hunt) :
    (t.pushReply tag r).calm = (u.replied tag r).calm := by
  have ht : t.link.rx = .hunt := (congrArg (fun x : State => x.link.rx) h).trans hu
  rw [pushReply_calm t tag r ht, h]
  rfl

/-- Settles O18: `padTo20` holds the codes with spaces after them, and the panel that follows leaves the calm part. -/
theorem captionsAndTextArePadded : Obligations.CaptionsAndTextArePadded := by
  unfold Obligations.CaptionsAndTextArePadded
  intro s dt tag k codes hs
  refine ⟨fun h => ⟨setCaption_tooLong s dt tag _ hs h, setText_tooLong s dt tag _ hs h⟩, fun hl => ⟨?_, ?_, ?_⟩⟩
  · intro h
    rw [setCaption_eq s dt tag _ hl]
    refine request_refused s dt tag _ _ hs .badValue ?_
    unfold takeSetCaption
    dsimp only
    rcases h with h | h
    · rw [index?_none k h]
    · have hp : printable codes ≠ true := mt (printable_iff codes).1 h
      split
      · exact if_neg hp
      · rfl
  · intro h
    rw [setText_eq s dt tag _ hl]
    exact request_refused s dt tag _ _ hs .badValue (if_neg (mt (printable_iff codes).1 h))
  · intro h
    have hp : printable codes = true := (printable_iff codes).2 h
    refine ⟨padTo20 codes, tget_padTo20 codes, fun hk => ?_, ?_⟩
    · rw [setCaption_eq s dt tag _ hl, request_heard s dt tag _ _ hs]
      simp only [takeSetCaption, index?_lt k hk, hp, if_true]
      exact congrArg _ (pushReply_eq_replied _ tag _ rfl)
    · refine ⟨_, (setText_eq s dt tag _ hl).trans (request_heard s dt tag _ _ hs), ?_, by simp⟩
      simp only [takeSetText, hp, if_true]
      exact pushReply_calm_of tag _ ((settlePanel_calmly _).1.trans (settlePanel_calmly _).1) rfl

end Sys2Proof.Machine
end

section
/-! SUPPORT. What the readers of a request's fields answer (O14): one equivalence for each kind of field, and from these one for
each table entry. -/

namespace Sys2Proof.Machine
open Sys2Proof.Claims

/-! ## Kinds of fields -/

theorem index?_eq_some {n k : Nat} {i : Fin n} : index? n k = some i ↔ k = i.val := by
  constructor
  · exact fun h => (index?_some h).symm
  · rintro rfl
    exact index?_val i

theorem inRange_eq_some {lo hi n m : Nat} : inRange lo hi n = some m ↔ n = m ∧ lo ≤ m ∧ m ≤ hi := by
  unfold inRange
  split <;> simp <;> omega

theorem required_eq_some {α : Type} {f : Sent α} {x : α} : Sent.required f = some x ↔ f = .value x := by
  cases f <;> simp [Sent.required]

theorem orDefault_eq_some {α : Type} {d x : α} {f : Sent α} : Sent.orDefault d f = some x ↔ sentAs d f x := by
  cases f <;> simp [Sent.orDefault, sentAs, eq_comm]

theorem inRangeOr_eq_some {d lo hi x : Nat} {f : Sent Nat} :
    Sent.inRangeOr d lo hi f = some x ↔ sentAs d f x ∧ lo ≤ x ∧ x ≤ hi := by
  simp [Sent.inRangeOr, Option.bind_eq_some_iff, orDefault_eq_some, inRange_eq_some]

theorem readLink_eq_some {f : RawLink} {l : Link} : readLink f = some l ↔ linkSent f l := by
  cases f <;> cases l <;>
    simp [readLink, linkSent, Option.bind_eq_some_iff, index?_eq_some, required_eq_some]

/-- A list is read where every entry is, each entry `b` from `g b` and under the condition `P` that its reader puts on it. -/
theorem readAll_eq_some {α β : Type} {f : α → Option β} {g : β → α} {P : β → Prop}
    (h : ∀ a b, f a = some b ↔ a = g b ∧ P b) {l : List α} {l' : List β} :
    readAll f l = some l' ↔ l = l'.map g ∧ ∀ b ∈ l', P b := by
  induction l generalizing l' with
  | nil => cases l' <;> simp [readAll]
  | cons a l ih => cases l' <;> simp [readAll, Option.bind_eq_some_iff, h, ih, and_assoc, and_left_comm]

theorem readList_eq_some {α β : Type} {f : α → Option β} {g : β → α} {P : β → Prop}
    (h : ∀ a b, f a = some b ↔ a = g b ∧ P b) {lo n : Nat} {l : List α} {l' : List β} :
    readList lo n f l = some l' ↔ l = l'.map g ∧ (lo ≤ l'.length ∧ l'.length ≤ n) ∧ ∀ b ∈ l', P b := by
  unfold readList
  split
  · rename_i hl
    rw [readAll_eq_some h]
    constructor
    · rintro ⟨rfl, hP⟩
      exact ⟨rfl, by simpa using hl, hP⟩
    · exact fun ⟨hl', _, hP⟩ => ⟨hl', hP⟩
  · rename_i hl
    refine ⟨nofun, ?_⟩
    rintro ⟨rfl, hn, -⟩
    exact absurd (by simpa using hn) hl

theorem optional_eq_some {α β : Type} {f : α → Option β} {g : β → α} {P : β → Prop}
    (h : ∀ a b, f a = some b ↔ a = g b ∧ P b) {x : Sent α} {o : Option β} :
    Sent.optional f x = some o ↔
      (x = match o with
        | none => .omitted
        | some b => .value (g b)) ∧ ∀ b, o = some b → P b := by
  cases x <;> cases o <;> simp [Sent.optional, h]

/-! ## Parts of entries -/

theorem readKind_eq_some {k : RawKind} {x : BlockKind} :
    readKind k = some x ↔ k = match x with
      | .plain => .plain
      | .stop g => .stop g.val
      | .deck => .deck := by
  cases k <;> cases x <;> simp [readKind, index?_eq_some]

theorem readAction_eq_some {a : RawAction} {x : KeyAction} :
    readAction a = some x ↔ a = match x with
      | .startShow i => .startShow i.val
      | .visitorRoute r => .visitorRoute r.val
      | .emergency => .emergency
      | .none => .none := by
  cases a <;> cases x <;> simp [readAction, index?_eq_some]

theorem readPointReq_eq_some {n : Nat} {d : RawPointReq} {x : PointReq} :
    readPointReq n d = some x ↔ d = ⟨x.point.val, .value x.lie, x.release⟩ ∧ x.release < n ∧ x.release ≤ 7 := by
  obtain ⟨p, l, k⟩ := d
  obtain ⟨p', l', k'⟩ := x
  simp [readPointReq, Option.bind_eq_some_iff, index?_eq_some, required_eq_some]
  grind

theorem readFlankReq_eq_some {d : RawFlankReq} {x : FlankReq} :
    readFlankReq d = some x ↔ d = ⟨x.point.val, .value x.lie⟩ := by
  obtain ⟨p, l⟩ := d
  obtain ⟨p', l'⟩ := x
  simp [readFlankReq, Option.bind_eq_some_iff, index?_eq_some, required_eq_some]

theorem readDeckReq_eq_some {d : RawDeckReq} {x : DeckReq} :
    readDeckReq d = some x ↔ d = ⟨x.road.val, .value x.side⟩ := by
  obtain ⟨p, l⟩ := d
  obtain ⟨p', l'⟩ := x
  simp [readDeckReq, Option.bind_eq_some_iff, index?_eq_some, required_eq_some]

theorem readApproach_eq_some {d : RawApproach} {x : ApproachDef} :
    readApproach d = some x ↔ d = ⟨x.limit, x.trap.val, x.release⟩ ∧
      1 ≤ x.limit ∧ x.limit ≤ 9999 ∧ 1 ≤ x.release ∧ x.release ≤ 240 := by
  obtain ⟨l, t, r⟩ := d
  obtain ⟨l', t', r'⟩ := x
  simp [readApproach, Option.bind_eq_some_iff, index?_eq_some, inRange_eq_some]
  grind

/-! ## Entries -/

theorem readBlock_eq_some (d : DefBlock) (x : BlockDef) : readBlock d = some x ↔
    (d.kind = match x.kind with
      | .plain => .value .plain
      | .stop g => .value (.stop g.val)
      | .deck => .value .deck) ∧
    linkSent d.link0 x.link0 ∧ linkSent d.link1 x.link1 ∧ sentAs 40 d.threshold x.threshold ∧
    sentAs 8 d.hysteresis x.hysteresis ∧ sentAs 3 d.dwellOn x.dwellOn ∧ sentAs 12 d.dwellOff x.dwellOff ∧
    sentAs .auto d.kill x.kill ∧ sentAs 0 d.restartGroup x.restartGroup ∧
    1 ≤ x.threshold ∧ x.threshold ≤ 254 ∧ x.hysteresis ≤ 63 ∧ 1 ≤ x.dwellOn ∧ x.dwellOn ≤ 15 ∧ 1 ≤ x.dwellOff ∧
    x.dwellOff ≤ 63 ∧ x.restartGroup ≤ 7 := by
  obtain ⟨kind, _, _, _, _, _, _, _, _⟩ := x
  cases kind <;>
    · simp [readBlock, Option.bind_eq_some_iff, required_eq_some, readKind_eq_some, readLink_eq_some, inRangeOr_eq_some,
        orDefault_eq_some]
      tauto

theorem readPoint_eq_some (d : DefPoint) (x : PointDef) : readPoint d = some x ↔
    linkSent d.toe x.toe ∧ linkSent d.normal x.normal ∧ linkSent d.reverse x.reverse ∧ d.group = x.group.val ∧
    sentAs .none d.feedback x.feedback ∧ sentAs .asFound d.home x.home := by
  obtain ⟨_, _, _, _, _, _⟩ := x
  simp [readPoint, Option.bind_eq_some_iff, readLink_eq_some, index?_eq_some, orDefault_eq_some]

theorem readGroup_eq_some (d : DefGroup) (x : GroupDef) : readGroup d = some x ↔
    sentAs 20 d.setup x.setup ∧ sentAs 100 d.pulse x.pulse ∧ sentAs 400 d.recovery x.recovery ∧
    sentAs 1000 d.window x.window ∧ x.setup ≤ 250 ∧ 10 ≤ x.pulse ∧ x.pulse ≤ 1000 ∧ x.recovery ≤ 5000 ∧
    100 ≤ x.window ∧ x.window ≤ 5000 := by
  obtain ⟨_, _, _, _⟩ := x
  simp [readGroup, Option.bind_eq_some_iff, inRangeOr_eq_some]
  tauto

theorem readSignal_eq_some (d : DefSignal) (x : SignalDef) : readSignal d = some x ↔
    d.block = x.block.val ∧ d.stands = .value x.stands ∧ d.aspects = x.aspects ∧ d.lampModule = x.lampModule.val ∧
    d.firstOutput = x.firstOutput ∧ 2 ≤ x.aspects ∧ x.aspects ≤ 4 ∧ x.firstOutput ≤ 12 ∧ x.firstOutput % 4 = 0 := by
  obtain ⟨_, _, _, _, _⟩ := x
  simp [readSignal, Option.bind_eq_some_iff, required_eq_some, index?_eq_some, inRange_eq_some]
  grind

theorem readRoute_eq_some (d : DefRoute) (x : RouteDef) : readRoute d = some x ↔
    d.entrance = x.entrance.val ∧ d.exit = x.exit.map (·.val) ∧ d.path = x.path.map (·.val) ∧
    d.points = (x.points.map fun p => ⟨p.point.val, .value p.lie, p.release⟩) ∧
    d.flank = (x.flank.map fun p => ⟨p.point.val, .value p.lie⟩) ∧ d.overlap = x.overlap.map (·.val) ∧
    (d.turntable = match x.turntable with
      | none => .omitted
      | some q => .value ⟨q.road.val, .value q.side⟩) ∧
    (d.approach = match x.approach with
      | none => .omitted
      | some a => .value ⟨a.limit, a.trap.val, a.release⟩) ∧
    sentAs false d.visitor x.visitor ∧ 1 ≤ x.path.length ∧ x.path.length ≤ 8 ∧ x.points.length ≤ 8 ∧
    x.flank.length ≤ 4 ∧ x.overlap.length ≤ 2 ∧ (∀ p ∈ x.points, p.release < x.path.length) ∧
    ∀ a, x.approach = some a → 1 ≤ a.limit ∧ a.limit ≤ 9999 ∧ 1 ≤ a.release ∧ a.release ≤ 240 := by
  obtain ⟨en, ex, path, points, flank, ov, tt, ap, vi⟩ := x
  have hblocks (lo n : Nat) (l : List Nat) (l' : List (Fin 48)) := readList_eq_some (f := index? 48) (g := Fin.val)
    (P := fun _ => True) (fun _ _ => by simp [index?_eq_some]) (lo := lo) (n := n) (l := l) (l' := l')
  have hpoints (k lo n : Nat) l l' := readList_eq_some (fun a b => readPointReq_eq_some (n := k) (d := a) (x := b))
    (lo := lo) (n := n) (l := l) (l' := l')
  have hflank (lo n : Nat) l l' := readList_eq_some (f := readFlankReq) (P := fun _ => True)
    (fun a b => by rw [readFlankReq_eq_some, and_true]) (lo := lo) (n := n) (l := l) (l' := l')
  have hdeck (a o) := optional_eq_some (f := readDeckReq) (P := fun _ => True)
    (fun a b => by rw [readDeckReq_eq_some, and_true]) (x := a) (o := o)
  have happroach (a o) := optional_eq_some (fun a b => readApproach_eq_some (d := a) (x := b)) (x := a) (o := o)
  obtain ⟨_, _, exit, _, _, _, _, _, _, _⟩ := d
  cases exit <;> cases ex <;>
    simp [-Bool.exists_bool, readRoute, Option.bind_eq_some_iff, index?_eq_some, hblocks, hpoints, hflank, hdeck, happroach,
      orDefault_eq_some]
  case none.none => clear hblocks hpoints hflank hdeck happroach; grind
  case some.some => clear hblocks hpoints hflank hdeck happroach; grind

theorem readTurntable_eq_some (d : DefTurntable) (x : TurntableDef) : readTurntable d = some x ↔
    d.r = x.r ∧ d.vMin = x.vMin ∧ d.vMax = x.vMax ∧ d.increment = x.increment ∧ sentAs false d.barrier x.barrier ∧
    d.tolerance = x.tolerance ∧ sentAs false d.homeAtStart x.homeAtStart ∧ sentAs 300 d.settle x.settle ∧
    sentAs 1500 d.bolt x.bolt ∧ sentAs 100 d.deadtime x.deadtime ∧ d.deckBlock = x.deckBlock.val ∧
    1600 ≤ x.r ∧ x.r ≤ 64000 ∧ x.r % 2 = 0 ∧ 16 ≤ x.vMin ∧ x.vMin ≤ 2000 ∧ x.vMin ≤ x.vMax ∧ x.vMax ≤ 20000 ∧
    1 ≤ x.increment ∧ x.increment ≤ 500 ∧ x.tolerance ≤ 255 ∧ x.settle ≤ 2000 ∧ 100 ≤ x.bolt ∧ x.bolt ≤ 5000 ∧
    10 ≤ x.deadtime ∧ x.deadtime ≤ 500 := by
  obtain ⟨_, _, _, _, _, _, _, _, _, _, _⟩ := x
  simp [-Bool.exists_bool, readTurntable, Option.bind_eq_some_iff, index?_eq_some, inRange_eq_some, inRangeOr_eq_some, orDefault_eq_some]
  grind

theorem readRoad_eq_some (d : DefRoad) (x : RoadDef) :
    readRoad d = some x ↔ d.position = x.position ∧ d.block = x.block.val ∧ x.position ≤ 64000 := by
  obtain ⟨_, _⟩ := x
  simp [readRoad, Option.bind_eq_some_iff, index?_eq_some, inRange_eq_some]
  grind

theorem readTrap_eq_some (d : DefTrap) (x : TrapDef) : readTrap d = some x ↔
    d.distance = x.distance ∧ sentAs 1 d.edges x.edges ∧ sentAs 50 d.quiet x.quiet ∧ d.block = x.block.val ∧
    d.abEnd = .value x.abEnd ∧ 10 ≤ x.distance ∧ x.distance ≤ 2000 ∧ 1 ≤ x.edges ∧ x.edges ≤ 8 ∧ 5 ≤ x.quiet ∧
    x.quiet ≤ 500 := by
  obtain ⟨_, _, _, _, _⟩ := x
  simp [readTrap, Option.bind_eq_some_iff, index?_eq_some, inRange_eq_some, inRangeOr_eq_some, required_eq_some]
  grind

theorem readModule_eq_some (d : DefModule) (x : ModuleDef) :
    readModule d = some x ↔ d.address = x.address ∧ d.type = .value x.type ∧ 8 ≤ x.address ∧ x.address ≤ 119 := by
  obtain ⟨_, _⟩ := x
  simp [readModule, Option.bind_eq_some_iff, required_eq_some, inRange_eq_some]
  grind

theorem readKey_eq_some (d : DefKey) (x : KeyDef) : readKey d = some x ↔
    d.panel = x.panel.val ∧ d.key = x.key.val ∧ d.action = match x.action with
      | .startShow i => .value (.startShow i.val)
      | .visitorRoute r => .value (.visitorRoute r.val)
      | .emergency => .value .emergency
      | .none => .value .none := by
  obtain ⟨_, _, a⟩ := x
  cases a <;> simp [readKey, Option.bind_eq_some_iff, required_eq_some, index?_eq_some, readAction_eq_some]

theorem readLed_eq_some (d : DefLed) (x : LedDef) : readLed d = some x ↔ (d.kind, d.index) = match x with
    | .blockOcc b => (Sent.value .blockOcc, b.val)
    | .blockRes b => (.value .blockRes, b.val)
    | .pointN p => (.value .pointN, p.val)
    | .pointR p => (.value .pointR, p.val)
    | .signalProceed g => (.value .signalProceed, g.val)
    | .road r => (.value .road, r.val)
    | .showing i => (.value .showing, i.val) := by
  obtain ⟨n, k, i⟩ := d
  cases k with
  | omitted => cases x <;> simp [readLed, Sent.required]
  | unlisted => cases x <;> simp [readLed, Sent.required]
  | value k => cases k <;> cases x <;> simp [readLed, Sent.required, index?_eq_some]

theorem readStep_eq_some (d : RawStep) (x : Step) : readStep d = some x ↔
    (d = match x with
      | .route r => .route r.val
      | .turn q e => .turn q.val (.value e)
      | .waitRoute r t n => .waitRoute r.val (.value t) n
      | .waitTurntable n => .waitTurntable n
      | .waitCue c n => .waitCue c.val n
      | .pause ms => .pause ms
      | .clearCue c => .clearCue c.val
      | .caption k => .caption k.val
      | .cancel r => .cancel r.val
      | .finish => .finish) ∧
    match x with
    | .waitRoute _ _ n | .waitTurntable n | .waitCue _ n => n ≤ 600
    | .pause ms => 1 ≤ ms ∧ ms ≤ 60000
    | _ => True := by
  cases d <;> cases x <;>
    simp [readStep, Option.bind_eq_some_iff, index?_eq_some, required_eq_some, inRange_eq_some, and_assoc]
  case waitRoute.waitRoute => grind
  case waitTurntable.waitTurntable => grind
  case waitCue.waitCue => grind
  case pause.pause => grind

theorem readCue_eq_some (d : DefCue) (x : Selector) : readCue d = some x ↔ d.selector = match x with
    | .none => .omitted
    | .blockOccupied b => .value (.blockOccupied b.val)
    | .blockCleared b => .value (.blockCleared b.val)
    | .trapResult t => .value (.trapResult t.val)
    | .turntableAligned => .value .turntableAligned
    | .routeEntered r => .value (.routeEntered r.val)
    | .routeFreed r => .value (.routeFreed r.val)
    | .key m k => .value (.key m.val k.val) := by
  obtain ⟨n, f⟩ := d
  cases f with
  | omitted => cases x <;> simp [readCue]
  | unlisted => cases x <;> simp [readCue]
  | value f => cases f <;> cases x <;> simp [readCue, readSelector, Option.bind_eq_some_iff, index?_eq_some]

/-- Settles O14: one equivalence for each reader, from those for the kinds of fields. -/
theorem fieldRangesAndDefaults : Obligations.FieldRangesAndDefaults := by
  unfold Obligations.FieldRangesAndDefaults
  exact ⟨⟨readBlock_eq_some, readPoint_eq_some, readGroup_eq_some, readSignal_eq_some, readRoute_eq_some⟩,
    readTurntable_eq_some, readRoad_eq_some, readTrap_eq_some, readModule_eq_some, readKey_eq_some, readLed_eq_some,
    readStep_eq_some, readCue_eq_some⟩

end Sys2Proof.Machine
end

section
/-! SUPPORT. The requests that load the tables: DEFINE (O13), DEFINE_STEP (O15) and ERASE (O16). -/

namespace Sys2Proof.Machine

/-! ## What a load of the tables leaves -/

theorem recomputeParts_blankParts (s : State) (m : Fin 24) :
    { tget s.recomputeParts.modules m with parts := [] } = { tget s.modules m with parts := [] } := by
  unfold State.recomputeParts
  dsimp only
  rw [tget_tgen]

/-- The tables take a new value, the images follow, and the request is acknowledged. -/
theorem putTables_loads (s : State) (dt : Nat) (tag : Byte) (u : Tables) :
    s.loads (((s.frameLost dt).putTables u).pushReply tag Reply.done) dt tag u := by
  rw [pushReply_eq_replied _ tag _ rfl]
  exact ⟨rfl, recomputeParts_blankParts { s.frameLost dt with tables := u }⟩

/-! ## DEFINE (R2) -/

section
variable {n : Nat} {β : Type} (s : State) (index : Nat) (fields : Option β) (put : Tables → Fin n → β → Tables)

theorem defineEntry_wrongMode (h : s.mode ≠ .config) : s.defineEntry index fields put = s.refuse .wrongMode := if_pos h

theorem defineEntry_badValue (hm : s.mode = .config) (h : n ≤ index ∨ fields = none) :
    s.defineEntry index fields put = s.refuse .badValue := by
  unfold State.defineEntry
  rw [if_neg (not_not.2 hm)]
  rcases h with h | rfl
  · rw [index?_none index h]
  · split <;> simp_all

theorem defineEntry_put {index : Nat} (hi : index < n) (x : β) (hm : s.mode = .config) :
    s.defineEntry index (some x) put = (s.putTables (put s.tables ⟨index, hi⟩ x), Reply.done) := by
  unfold State.defineEntry
  rw [if_neg (not_not.2 hm), index?_lt index hi]

end

/-- A request whose block takes it as a DEFINE of one entry. -/
theorem defines_of_defineEntry {n : Nat} {α β : Type} {s : State} {dt : Nat} {tag : Byte} (hs : s.hears tag) {c : Instr} {a : α}
    {take : α → State → State × Reply} {index : Nat} {fields : Option β} {put : Fin n → β → Tables}
    (hc : exec c s = s.request dt tag (.fields a) take) 
    (ht : take a (s.frameLost dt) = (s.frameLost dt).defineEntry index fields fun _ => put) :
    s.defines c dt tag index fields put := by
  refine ⟨fun hm => ?_, fun hm h => ?_, fun hi x hm hx => ?_⟩
  · exact hc.trans (request_refused s dt tag _ _ hs _ (ht.trans (defineEntry_wrongMode _ _ _ _ hm)))
  · exact hc.trans (request_refused s dt tag _ _ hs _ (ht.trans (defineEntry_badValue _ _ _ _ hm h)))
  · refine ⟨_, hc.trans (request_heard s dt tag _ _ hs), ?_⟩
    rw [ht, hx, defineEntry_put (s.frameLost dt) (fun _ => put) hi x hm]
    exact putTables_loads s dt tag _

theorem takeDefinePoint_of_refused {d : DefPoint} {s : State} {r : Reason}
    (h : s.defineEntry (n := 64) d.index (readPoint d) (fun t i x => { t with points := tset t.points i (some x) }) =
      s.refuse r) : takeDefinePoint d s = s.refuse r := by
  unfold takeDefinePoint
  rw [h]
  dsimp only
  split
  · rw [State.refuse, if_pos rfl]
  · rfl

/-- The tables with a new point entry, and its mark where the proof status changes (log entry 33). -/
def State.putPoint (s : State) (p : Fin 64) (u : Tables) : State :=
  if (s.putTables u).proof p = s.proof p then s.putTables u else (s.putTables u).mark (.point p)

theorem takeDefinePoint_put {d : DefPoint} {s : State} (hi : d.index < 64) {x : PointDef} (hm : s.mode = .config)
    (hx : readPoint d = some x) : takeDefinePoint d s =
      (s.putPoint ⟨d.index, hi⟩ { s.tables with points := tset s.tables.points ⟨d.index, hi⟩ (some x) }, Reply.done) := by
  unfold takeDefinePoint State.putPoint
  rw [hx, defineEntry_put s _ hi x hm, index?_lt d.index hi]
  dsimp only
  split <;> rfl

theorem putPoint_loadsPoint (s : State) (dt : Nat) (tag : Byte) (p : Fin 64) (u : Tables) :
    s.loadsPoint (((s.frameLost dt).putPoint p u).pushReply tag Reply.done) dt tag p u := by
  have hl := putTables_loads s dt tag u
  have hp : ((s.frameLost dt).putTables u).proof p = ({ s with tables := u } : State).proof p := rfl
  have hq : (s.frameLost dt).proof p = s.proof p := rfl
  unfold State.putPoint
  rw [hp, hq]
  by_cases h : ({ s with tables := u } : State).proof p = s.proof p
  · rw [if_pos h]
    refine ⟨?_, ?_⟩
    · rw [pushReply_eq_replied _ tag _ rfl] at hl ⊢
      exact hl
    · rw [pushReply_reports, if_pos (.inl h)]
      rfl
  · rw [if_neg h]
    refine ⟨?_, ?_⟩
    · rw [pushReply_eq_replied _ tag _ rfl] at hl ⊢
      exact hl
    · rw [pushReply_reports]
      show joinTail s.link.reports (.point p) = _
      unfold joinTail
      simp only [h, false_or]

/-- Settles O13: each DEFINE request is `defineEntry` with its own reader and entry, DEFINE_POINT with a mark besides. -/
theorem defineReplacesTheEntry : Obligations.DefineReplacesTheEntry := by
  unfold Obligations.DefineReplacesTheEntry
  intro s dt tag hs
  refine ⟨fun d => ?_, fun d => ⟨fun hm => ?_, fun hm h => ?_, fun hi x hm hx => ?_⟩, fun d => ?_, fun d => ?_, fun d => ?_,
    fun d => ?_, fun d => ?_, fun d => ?_, fun d => ?_, fun d => ?_, fun d => ?_, fun d => ?_⟩
  · exact defines_of_defineEntry (take := takeDefineBlock) hs rfl rfl
  · exact request_refused s dt tag _ _ hs _ (takeDefinePoint_of_refused (defineEntry_wrongMode _ _ _ _ hm))
  · exact request_refused s dt tag _ _ hs _ (takeDefinePoint_of_refused (defineEntry_badValue _ _ _ _ hm h))
  · exact ⟨_, request_heard s dt tag _ _ hs, by
      rw [takeDefinePoint_put (s := s.frameLost dt) hi hm hx]
      exact putPoint_loadsPoint s dt tag _ _⟩
  · exact defines_of_defineEntry (take := takeDefineGroup) hs rfl rfl
  · exact defines_of_defineEntry (take := takeDefineSignal) hs rfl rfl
  · exact defines_of_defineEntry (take := takeDefineRoute) hs rfl rfl
  · exact defines_of_defineEntry (take := takeDefineTurntable) hs rfl rfl
  · exact defines_of_defineEntry (take := takeDefineRoad) hs rfl rfl
  · exact defines_of_defineEntry (take := takeDefineTrap) hs rfl rfl
  · exact defines_of_defineEntry (take := takeDefineModule) hs rfl rfl
  · exact defines_of_defineEntry (take := takeDefineKey) hs rfl rfl
  · exact defines_of_defineEntry (take := takeDefineLed) hs rfl rfl
  · exact defines_of_defineEntry (take := takeDefineCue) hs rfl rfl

/-! ## DEFINE_STEP (R11) -/

section
variable {s : State} {i : Fin 8} {k : Nat} (x : Step)

theorem putStep_replaces (h : k < (tget s.tables.shows i).length) : s.putStep i k x =
    (s.putTables { s.tables with shows := tset s.tables.shows i ((tget s.tables.shows i).set k x) }, Reply.done) := if_pos h

theorem putStep_atEnd (h : k = (tget s.tables.shows i).length) : s.putStep i k x =
    if s.tables.stepsUsed < 128 then
      (s.putTables { s.tables with shows := tset s.tables.shows i (tget s.tables.shows i ++ [x]) }, Reply.done)
    else s.refuse .tableFull :=
  (if_neg h.not_lt).trans (if_pos h)

theorem putStep_beyond (h : (tget s.tables.shows i).length < k) : s.putStep i k x = s.refuse .badValue :=
  (if_neg h.asymm).trans (if_neg h.ne')

end

/-- Settles O15: `putStep` replaces below the show's length, appends at it and refuses beyond. -/
theorem defineStepPlacesTheStep : Obligations.DefineStepPlacesTheStep := by
  unfold Obligations.DefineStepPlacesTheStep
  intro s dt tag d hs
  have refused {r : Reason} (h : takeDefineStep d (s.frameLost dt) = (s.frameLost dt).refuse r) :
      exec (.defineStep dt tag (.fields d)) s = .next (s.answered dt tag (.refused r)) := request_refused s dt tag _ _ hs r h
  refine ⟨fun hm => refused (if_pos hm), fun hm h => refused ?_, fun hi x hm hx => ?_⟩
  · unfold takeDefineStep
    rw [if_neg (by exact not_not.2 hm)]
    rcases h with h | h
    · rw [index?_none _ h]
    · have hn : Sent.required d.step = none := Option.eq_none_iff_forall_ne_some.2 fun y hy => h y (required_eq_some.1 hy)
      rw [hn]
      split <;> simp_all
  · have ht : takeDefineStep d (s.frameLost dt) = match readStep x with
        | some y => (s.frameLost dt).putStep ⟨d.showNo, hi⟩ d.position y
        | none => (s.frameLost dt).refuse .badValue := by
      unfold takeDefineStep
      rw [if_neg (by exact not_not.2 hm), index?_lt _ hi, hx]
      simp only [Sent.required, Option.bind_some]
      cases readStep x <;> rfl
    refine ⟨fun hn => refused (by rw [ht, hn]), fun y hy => ?_⟩
    rw [hy] at ht
    dsimp only at ht
    have loaded {u : Tables} (h : (s.frameLost dt).putStep ⟨d.showNo, hi⟩ d.position y =
        ((s.frameLost dt).putTables u, Reply.done)) :
        ∃ t, exec (.defineStep dt tag (.fields d)) s = .next t ∧ s.loads t dt tag u := by
      refine ⟨_, request_heard s dt tag _ _ hs, ?_⟩
      rw [ht, h]
      exact putTables_loads s dt tag u
    refine ⟨fun h => loaded (putStep_replaces y h),
      fun h hr => loaded ((putStep_atEnd (s := s.frameLost dt) y h).trans (if_pos hr)),
      fun h hr => refused (ht.trans ((putStep_atEnd (s := s.frameLost dt) y h).trans (if_neg (Nat.not_lt.2 hr)))),
      fun h => refused (ht.trans (putStep_beyond y h))⟩

/-! ## ERASE (R3) -/

theorem mem_foldl_joinTail {α : Type} [DecidableEq α] (l k : List α) (a : α) :
    a ∈ l.foldl joinTail k ↔ a ∈ k ∨ a ∈ l := by
  induction l generalizing k with
  | nil => simp
  | cons b l ih => simp [ih, mem_joinTail, or_assoc]

theorem mem_losingLie (s : State) (p : Fin 64) :
    p ∈ s.losingLie ↔ tget s.tables.points p = none ∧ (tget s.points p).lie ≠ none := by
  simp [State.losingLie, State.pointDef, Option.isSome_iff_ne_none]

/-- The tables that an ERASE leaves, with the points and images that follow, acknowledged. -/
theorem putErased_erases (s : State) (dt : Nat) (tag : Byte) (u : Tables) :
    s.erases (((s.frameLost dt).putErased u).pushReply tag Reply.done) dt tag u := by
  have hr : (((s.frameLost dt).putErased u).pushReply tag Reply.done).link.reports =
      (({ s with tables := u } : State).losingLie.map .point).foldl joinTail s.link.reports := by
    rw [pushReply_reports, State.putErased, markAll_eq]
    rfl
  have hmem (y : Subject) : y ∈ (((s.frameLost dt).putErased u).pushReply tag Reply.done).link.reports ↔
      y ∈ s.link.reports ∨ ∃ p, (tget u.points p = none ∧ (tget s.points p).lie ≠ none) ∧ Subject.point p = y := by
    rw [hr, mem_foldl_joinTail, List.mem_map]
    simp only [mem_losingLie]
  refine ⟨?_, fun m => ?_, fun p => ?_, fun y hy => (hmem y).2 (.inl hy), fun p hp hl => (hmem _).2 (.inr ⟨p, ⟨hp, hl⟩, rfl⟩),
    fun y hy => ((hmem y).1 hy).imp_right fun ⟨p, ⟨hp, hl⟩, he⟩ => ⟨p, he.symm, hp, hl⟩⟩
  · rw [pushReply_eq_replied _ tag _ (by rw [State.putErased, markAll_eq]; rfl), State.putErased, markAll_eq]
    rfl
  · rw [State.putErased, markAll_eq]
    exact recomputeParts_blankParts (State.dropUndefinedPoints { s.frameLost dt with tables := u }) m
  · rw [State.putErased, markAll_eq]
    exact tget_tgen _ p

theorem eraseIndex_none {n k : Nat} (h : n ≤ k) : eraseIndex n (some k) = none := by
  rw [eraseIndex, index?_none k h, Option.map_none]

theorem erase_outOfRange (t : Tables) (x : EraseTable) (k : Nat) (h : eraseSize x ≤ k) : t.erase x (some k) = none := by
  cases x
  case everything => rfl
  all_goals exact Option.map_eq_none_iff.2 (eraseIndex_none h)

/-- Settles O16: `Tables.erase` answers the tables without the entries named, and `putErased` lets the points and the images
follow. -/
theorem eraseReturnsEntries : Obligations.EraseReturnsEntries := by
  unfold Obligations.EraseReturnsEntries
  intro s dt tag hs c erases
  refine ⟨fun hm x k => request_refused s dt tag _ _ hs _ (if_pos hm), fun hm => ⟨fun x k hk => ?_, ?_⟩⟩
  · refine request_refused s dt tag _ _ hs _ ?_
    unfold takeErase
    rw [if_neg (by exact not_not.2 hm)]
    simp only [Sent.required, Option.bind_some, erase_outOfRange _ x k hk]
  have erased {x : EraseTable} {k : Option Nat} {u : Tables} (h : s.tables.erase x k = some u) : erases x k u := by
    have ht : takeErase ⟨.value x, k⟩ (s.frameLost dt) = ((s.frameLost dt).putErased u, Reply.done) := by
      unfold takeErase
      rw [if_neg (by exact not_not.2 hm)]
      simp only [Sent.required, Option.bind_some, show (s.frameLost dt).tables.erase x k = some u from h]
    refine ⟨_, request_heard s dt tag _ _ hs, ?_⟩
    rw [ht]
    exact putErased_erases s dt tag u
  have at' {n : Nat} (i : Fin n) : eraseIndex n (some i.val) = some (some i) := by rw [eraseIndex, index?_val, Option.map_some]
  refine ⟨fun i => erased ?_, erased rfl, fun i => erased ?_, erased rfl, fun i => erased ?_, erased rfl, fun i => erased ?_,
    erased rfl, fun i => erased ?_, erased rfl, erased rfl, erased rfl, fun i => erased ?_, erased rfl, fun i => erased ?_,
    erased rfl, fun i => erased ?_, erased rfl, fun i => erased ?_, erased rfl, fun i => erased ?_, erased rfl,
    fun i => erased ?_, erased rfl, fun i => erased ?_, erased rfl, erased rfl⟩
  all_goals
    unfold Tables.erase
    dsimp only
    rw [at']
    rfl

end Sys2Proof.Machine
end

section
/-! SUPPORT. SET_PARAM (O17): the value used, and the expiry of the routes that wait too long under a lowered stack timeout. -/

namespace Sys2Proof.Machine

/-! ## The parameters -/

theorem put_value (p : Params) (x : ParamName) (n : Nat) :
    (p.put x n).1.value x =
      (if x = .displayTrap then if n < 4 then n else 65535 else max (ParamName.range x).1 (min (ParamName.range x).2 n)) ∧
    (p.put x n).2 = (p.put x n).1.value x := by
  cases x
  case displayTrap =>
    rcases Nat.lt_or_ge n 4 with h | h
    · simp [Params.put, Params.value, h]
    · simp [Params.put, Params.value, index?_none n h, Nat.not_lt.2 h, displayTrapNone]
  all_goals exact ⟨rfl, rfl⟩

theorem put_value_ne (p : Params) {x y : ParamName} (n : Nat) (h : y ≠ x) : (p.put x n).1.value y = p.value y := by
  cases x
  case displayTrap =>
    unfold Params.put
    dsimp only
    split <;> (cases y <;> first | exact absurd rfl h | rfl)
  all_goals (cases y <;> first | exact absurd rfl h | rfl)

theorem u16_eq (n : Nat) : u16 n = [BitVec.ofNat 8 (n / 256), BitVec.ofNat 8 n] := by
  simp [u16, bigEndian, List.range_succ]

/-! ## A route that leaves the queue while no show runs -/

/-- `t` has the routes, the queue, the parameters, the shows and the notes of `s`. -/
structure QueueStands (s t : State) : Prop where
  routes : t.routes = s.routes
  queue : t.queue = s.queue
  params : t.params = s.params
  shows : t.shows = s.shows
  work : t.work = s.work

theorem QueueStands.refl (s : State) : QueueStands s s := ⟨rfl, rfl, rfl, rfl, rfl⟩

theorem QueueStands.trans {s t u : State} (h : QueueStands s t) (k : QueueStands t u) : QueueStands s u :=
  ⟨k.routes.trans h.routes, k.queue.trans h.queue, k.params.trans h.params, k.shows.trans h.shows, k.work.trans h.work⟩

theorem QueueStands.runningShow {s t : State} (h : QueueStands s t) : t.runningShow = s.runningShow := by
  unfold State.runningShow
  rw [h.shows]

theorem settlePanel_queueStands (s : State) : QueueStands s s.settlePanel := ⟨rfl, rfl, rfl, rfl, rfl⟩

theorem putCue_queueStands (s : State) (c : Fin 16) (v : Bool) : QueueStands s (s.putCue c v) := by
  unfold State.putCue
  split
  · exact .refl s
  · exact ⟨rfl, rfl, rfl, rfl, rfl⟩

theorem setCuesFor_queueStands (s : State) (x : Selector) (h : s.runningShow = none) : QueueStands s (s.setCuesFor x) := by
  unfold State.setCuesFor
  generalize indices 16 = l
  induction l generalizing s with
  | nil => exact .refl s
  | cons c l ih =>
    have h1 : QueueStands s (if tget s.tables.cues c = x then s.setCueFlag c else s) := by
      split
      · rw [setCueFlag_noShow s c h]
        exact putCue_queueStands s c true
      · exact .refl s
    exact h1.trans (ih _ (h1.runningShow.trans h))

theorem mem_mark_self (s : State) (x : Subject) : x ∈ (s.mark x).link.reports :=
  (mem_joinTail s.link.reports x x).2 (.inr rfl)

/-- What a QUEUED route's expiry changes while no show runs: its record, the queue, the cues, the marks and the panel. -/
structure LeavesQueue (s t : State) (r : Fin 64) (e : FreeReason) : Prop where
  routes : t.routes = tset s.routes r (.free e)
  queue : t.queue = s.queue.filter fun x => x != r
  params : t.params = s.params
  shows : t.shows = s.shows
  work : t.work = s.work
  marked : .route r ∈ t.link.reports

/-- A QUEUED route has left the queue for FREE and is marked, and the panel has followed. -/
def State.leftQueue (s : State) (r : Fin 64) (e : FreeReason) : State :=
  (((s.dequeue r).putRoute r (.free e)).mark (.route r)).settlePanel

theorem leftQueue_leavesQueue (s : State) (r : Fin 64) (e : FreeReason) : LeavesQueue s (s.leftQueue r e) r e := by
  have h := settlePanel_queueStands (((s.dequeue r).putRoute r (.free e)).mark (.route r))
  exact ⟨h.routes, h.queue, h.params, h.shows, h.work, (settlePanel_follows _).marks _ (mem_mark_self _ _)⟩

theorem dropQueued_eq {s : State} {r : Fin 64} (e : FreeReason) (h : s.runningShow = none) (hq : s.routeQueued r) :
    s.dropQueued r e = (s.leftQueue r e).setCuesFor (.routeFreed r) := by
  obtain ⟨cls, since, hr⟩ := hq
  have ho : tget (s.dequeue r).routes r = .queued cls since := hr
  unfold State.dropQueued
  rw [hr]
  dsimp only
  unfold State.setRoute
  rw [ho]
  extract_lets old s1 s2 s3
  have h2 : s2 = s.leftQueue r e := by
    simp only [s2]
    split <;> rfl
  have h3 : s3 = (s.leftQueue r e).setCuesFor (.routeFreed r) := by
    simp only [s3, h2, old, RouteRec.isFree, Bool.false_eq_true, if_false]
  have hs : (s.leftQueue r e).runningShow = none := h
  rw [h3, noteRoute_noShow _ r _ ((setCuesFor_queueStands _ _ hs).runningShow.trans hs)]

theorem dropQueued_leavesQueue {s : State} {r : Fin 64} (e : FreeReason) (h : s.runningShow = none) (hq : s.routeQueued r) :
    LeavesQueue s (s.dropQueued r e) r e := by
  have h1 := leftQueue_leavesQueue s r e
  have h2 := setCuesFor_queueStands (s.leftQueue r e) (.routeFreed r) h
  rw [dropQueued_eq e h hq]
  exact ⟨h2.routes.trans h1.routes, h2.queue.trans h1.queue, h2.params.trans h1.params, h2.shows.trans h1.shows,
    h2.work.trans h1.work, (setCuesFor_follows _ _).marks _ h1.marked⟩

/-- Every route of a list of QUEUED routes expires. -/
theorem expireAll {l : List (Fin 64)} (s : State) (h : s.runningShow = none) (hl : l.Nodup) (hq : ∀ r ∈ l, s.routeQueued r) :
    let t := l.foldl (fun s r => s.dropQueued r .expired) s
    (∀ r, tget t.routes r = if r ∈ l then .free .expired else tget s.routes r) ∧
      t.queue = s.queue.filter (fun r => decide (r ∉ l)) ∧ t.params = s.params ∧ t.work = s.work ∧
      ∀ r ∈ l, .route r ∈ t.link.reports := by
  induction l generalizing s with
  | nil => simp
  | cons a l ih =>
    obtain ⟨ha, hl⟩ := List.nodup_cons.1 hl
    have h1 := dropQueued_leavesQueue .expired h (hq a (by simp))
    have hs : (s.dropQueued a .expired).runningShow = none := by
      unfold State.runningShow at h ⊢
      rw [h1.shows]
      exact h
    have hother (r : Fin 64) (hr : r ≠ a) : tget (s.dropQueued a .expired).routes r = tget s.routes r := by
      rw [h1.routes, tget_tset_ne _ hr.symm]
    obtain ⟨hr, hqu, hp, hw, hm⟩ := ih (s.dropQueued a .expired) hs hl fun r hr => by
      unfold State.routeQueued
      rw [hother r (by rintro rfl; exact ha hr)]
      exact hq r (by simp [hr])
    have hmono : ∀ y ∈ (s.dropQueued a .expired).link.reports, y ∈
        (l.foldl (fun s r => s.dropQueued r .expired) (s.dropQueued a .expired)).link.reports :=
      (Follows.foldl (fun (t : State) r => t.dropQueued r .expired) (fun t r => dropQueued_follows t r _) l _).marks
    refine ⟨fun r => ?_, ?_, hp.trans h1.params, hw.trans h1.work, fun r hrl => ?_⟩
    · rw [List.foldl_cons, hr r]
      by_cases hra : r = a
      · subst hra
        rw [if_neg ha, if_pos (by simp), h1.routes, tget_tset_self]
      · rw [hother r hra]
        simp [hra]
    · rw [List.foldl_cons, hqu, h1.queue, List.filter_filter]
      congr 1
      funext r
      by_cases hra : r = a <;> simp [hra]
    · rcases List.mem_cons.1 hrl with rfl | hrl
      · exact hmono _ h1.marked
      · exact hm r hrl

/-- The parameters take a new value. -/
def State.putParams (s : State) (p : Params) : State := { s with params := p }

/-- The routes that a lowered stack timeout makes due have expired (R87). -/
def State.lowered (s : State) : State :=
  if (s.queue.filter s.stackDue).isEmpty then s else s.expireStack.settle

theorem takeSetParam_eq (s : State) (x : ParamName) (n : Nat) :
    takeSetParam ⟨.value x, n⟩ s =
      ((s.putParams (s.params.put x n).1).lowered, .ack (u16 (s.params.put x n).2)) := rfl

theorem stackDue_iff (s : State) (r : Fin 64) : s.stackDue r = true ↔
    s.params.stackTimeout ≠ 0 ∧
      ∃ cls since, tget s.routes r = .queued cls since ∧ 1000 * s.params.stackTimeout ≤ s.ageOf since := by
  unfold State.stackDue
  split
  · rename_i cls since h
    simp [h]
  · rename_i h
    simp only [Bool.false_eq_true, false_iff]
    rintro ⟨-, cls, since, hr, -⟩
    exact h cls since hr

theorem stackDue_mem {s : State} {r : Fin 64} (hq : s.queueSound) (h : s.stackDue r = true) : r ∈ s.queue := by
  obtain ⟨-, -, -, hmem⟩ := hq
  obtain ⟨-, cls, since, hr, -⟩ := (stackDue_iff s r).1 h
  exact (hmem r).2 ⟨cls, since, hr⟩

/-- While no show runs and nothing is noted, the routes whose age has reached the stack timeout, and no others, leave the queue
for FREE. -/
theorem expireStack_settle (s : State) (hq : s.queueSound) (hrun : s.noRun) :
    s.expireStack.settle.params = s.params ∧ ∀ r,
      (s.stackDue r = true → tget s.expireStack.settle.routes r = .free .expired ∧
        .route r ∈ s.expireStack.settle.link.reports ∧ r ∉ s.expireStack.settle.queue) ∧
      (s.stackDue r = false → tget s.expireStack.settle.routes r = tget s.routes r ∧
        (r ∈ s.expireStack.settle.queue ↔ r ∈ s.queue)) := by
  have hin (r : Fin 64) (hr : s.stackDue r = true) : r ∈ s.queue := stackDue_mem hq hr
  obtain ⟨-, -, hnd, hmem⟩ := hq
  obtain ⟨hshow, hwork⟩ := hrun
  obtain ⟨hr, hqu, hp, hw, hm⟩ := expireAll (l := s.queue.filter s.stackDue) s hshow (hnd.filter _)
    fun r h => (hmem r).1 (List.mem_of_mem_filter h)
  change ∀ r, tget s.expireStack.routes r = _ at hr
  change s.expireStack.queue = _ at hqu
  change s.expireStack.params = _ at hp
  change s.expireStack.work = _ at hw
  change ∀ r ∈ _, .route r ∈ s.expireStack.link.reports at hm
  have hcalm : s.expireStack.settle.calm = s.expireStack.calm :=
    settle_calm _ (.inl (by rw [hw, hwork]; rfl)) (by rw [hw, hwork]; rfl)
  have hcr : s.expireStack.settle.routes = s.expireStack.routes := (congrArg State.routes hcalm :)
  have hcq : s.expireStack.settle.queue = s.expireStack.queue := (congrArg State.queue hcalm :)
  have hcp : s.expireStack.settle.params = s.expireStack.params := (congrArg State.params hcalm :)
  refine ⟨hcp.trans hp, fun r => ⟨fun hd => ?_, fun hd => ?_⟩⟩
  · have hrl : r ∈ s.queue.filter s.stackDue := List.mem_filter.2 ⟨hin r hd, hd⟩
    refine ⟨?_, (settle_follows _).marks _ (hm r hrl), ?_⟩
    · rw [hcr, hr r, if_pos hrl]
    · rw [hcq, hqu, List.mem_filter]
      simpa using fun _ => hrl
  · have hrl : r ∉ s.queue.filter s.stackDue := fun h => by simp [hd] at h
    refine ⟨?_, ?_⟩
    · rw [hcr, hr r, if_neg hrl]
    · rw [hcq, hqu]
      simp [hd]

theorem lowered_expires (s : State) (hq : s.queueSound) (hrun : s.noRun) :
    s.lowered.params = s.params ∧ ∀ r,
      (s.stackDue r = true → tget s.lowered.routes r = .free .expired ∧ .route r ∈ s.lowered.link.reports ∧
        r ∉ s.lowered.queue) ∧
      (s.stackDue r = false → tget s.lowered.routes r = tget s.routes r ∧ (r ∈ s.lowered.queue ↔ r ∈ s.queue)) := by
  unfold State.lowered
  split
  · rename_i he
    refine ⟨rfl, fun r => ⟨fun hd => ?_, fun _ => ⟨rfl, Iff.rfl⟩⟩⟩
    have hr : r ∈ s.queue.filter s.stackDue := List.mem_filter.2 ⟨stackDue_mem hq hd, hd⟩
    rw [List.isEmpty_iff.1 he] at hr
    cases hr
  · exact expireStack_settle s hq hrun

/-- Settles O17: `Params.put` clamps its value, and `expireStack` takes just the routes that are due off the queue. -/
theorem setParamClampsTheValue : Obligations.SetParamClampsTheValue := by
  unfold Obligations.SetParamClampsTheValue
  refine ⟨fun s dt tag x n hs hq => ?_, fun s dt tag n hs => request_refused s dt tag _ _ hs _ rfl,
    fun s dt tag n hs hq hrun hn hn' => ?_⟩
  · obtain ⟨hv, hu⟩ := put_value s.params x n
    refine ⟨(s.params.put x n).1, ?_, hv, fun y hy => put_value_ne _ n hy⟩
    have he : ((s.frameLost dt).putParams (s.params.put x n).1).queue = [] := hq
    refine (request_heard s dt tag _ _ hs).trans (congrArg _ ?_)
    rw [takeSetParam_eq, show (s.frameLost dt).params = s.params from rfl, hu, hv, u16_eq, State.lowered, he]
    exact pushReply_eq_replied _ tag _ rfl
  · intro due
    have hp : (s.params.put .stackTimeout n).1.stackTimeout = n := by
      show max 0 (min 600 n) = n
      omega
    let u := (s.frameLost dt).putParams (s.params.put .stackTimeout n).1
    have hdue (r : Fin 64) : u.stackDue r = true ↔ due r := by
      rw [stackDue_iff, show u.params.stackTimeout = n from hp]
      exact ⟨fun ⟨_, h⟩ => h, fun h => ⟨hn.ne', h⟩⟩
    have hx := lowered_expires u hq hrun
    refine ⟨_, (request_heard s dt tag _ _ hs).trans rfl, ?_, fun r => ?_⟩
    · exact (congrArg Params.stackTimeout hx.1).trans hp
    · have hl : (u.lowered.pushReply tag (.ack (u16 (s.params.put .stackTimeout n).2))).link.reports = u.lowered.link.reports :=
        pushReply_reports _ _ _
      obtain ⟨h1, h2⟩ := hx.2 r
      refine ⟨fun h => ?_, fun h => ?_⟩
      · obtain ⟨hr, hm, hq⟩ := h1 ((hdue r).2 h)
        exact ⟨hr, by rw [takeSetParam_eq]; exact hl ▸ hm, hq⟩
      · exact h2 (by simpa using mt (hdue r).1 h)

end Sys2Proof.Machine
end

section
/-! SUPPORT. The feeds at an entry into RUN: the deferred restores, the feeds that stand while the entry is in hand, and the
restarts given last (R37, R43, R44). -/

namespace Sys2Proof.Machine

/-! ## Folds that treat each entry of a table once -/

theorem indices_nodup (n : Nat) : (indices n).Nodup := List.nodup_finRange n

/-- A fold over all indices whose step at `i` gives entry `i` a new value and leaves the others, while `P` holds. -/
theorem foldl_entries {n : Nat} {β : Type} {f : State → Fin n → State} {P : State → Prop} {get : State → Fin n → β}
    {new : Fin n → β → β} (hP : ∀ s i, P s → P (f s i)) (hself : ∀ s i, P s → get (f s i) i = new i (get s i))
    (hother : ∀ s i j, P s → j ≠ i → get (f s i) j = get s j) (s : State) (hs : P s) :
    P ((indices n).foldl f s) ∧ ∀ j, get ((indices n).foldl f s) j = new j (get s j) := by
  suffices ∀ (l : List (Fin n)), l.Nodup → ∀ s, P s → P (l.foldl f s) ∧
      ∀ j, get (l.foldl f s) j = if j ∈ l then new j (get s j) else get s j by
    obtain ⟨h1, h2⟩ := this _ (indices_nodup n) s hs
    exact ⟨h1, fun j => by rw [h2 j, if_pos (mem_indices j)]⟩
  intro l hl
  induction l with
  | nil => exact fun s hs => ⟨hs, fun j => by simp⟩
  | cons i l ih =>
    intro s hs
    obtain ⟨hi, hl⟩ := List.nodup_cons.1 hl
    obtain ⟨h1, h2⟩ := ih hl (f s i) (hP s i hs)
    refine ⟨h1, fun j => ?_⟩
    rw [List.foldl_cons, h2 j]
    by_cases hj : j = i
    · subst hj
      rw [if_neg hi, if_pos (by simp), hself s j hs]
    · rw [hother s i j hs hj]
      simp [hj]

/-! ## Deferred restores (R44) -/

/-- A LATCHED feed whose restore was deferred is released with its trip log emptied. -/
def Feed.released (f : Feed) : Feed :=
  if f.state = .latched ∧ f.deferred = true then { f with state := .off, log := [], deferred := false } else f

theorem deferredRestore_feeds (s : State) (b c : Fin 48) :
    tget (s.deferredRestore b).feeds c = if c = b then (tget s.feeds b).released else tget s.feeds c := by
  unfold State.deferredRestore Feed.released
  dsimp only
  by_cases h : (tget s.feeds b).state = .latched ∧ (tget s.feeds b).deferred = true
  · rw [if_pos h, if_pos h, setFeedState_feeds]
    by_cases hc : c = b
    · subst hc
      simp
    · simp [Ne.symm hc, hc, tget_tupd_ne]
  · rw [if_neg h, if_neg h]
    split
    · subst_vars
      rfl
    · rfl

theorem deferredRestores_feeds (s : State) (b : Fin 48) :
    tget ((indices 48).foldl State.deferredRestore s).feeds b = (tget s.feeds b).released :=
  (foldl_entries (P := fun _ => True) (get := fun s b => tget s.feeds b) (new := fun _ => Feed.released)
    (fun _ _ _ => trivial) (fun s b _ => by rw [deferredRestore_feeds, if_pos rfl])
    (fun s b c _ hc => by rw [deferredRestore_feeds, if_neg hc]) s trivial).2 b

theorem released_notOn {f : Feed} (h : f.state ≠ .on) : f.released.state ≠ .on := by
  unfold Feed.released
  split
  · simp
  · exact h

/-! ## Feeds that stand while an entry into RUN is in hand (R37) -/

/-- While an entry into RUN is in hand, it stays in hand, and a feed that is not ON stands. -/
def FeedsStand (s t : State) : Prop :=
  s.work.entering = true → t.work.entering = true ∧ ∀ b, (tget s.feeds b).state ≠ .on → tget t.feeds b = tget s.feeds b

theorem FeedsStand.trans {s t u : State} (h : FeedsStand s t) (k : FeedsStand t u) : FeedsStand s u := fun he => by
  obtain ⟨h1, h2⟩ := h he
  obtain ⟨k1, k2⟩ := k h1
  exact ⟨k1, fun b hb => by rw [k2 b (by rw [h2 b hb]; exact hb), h2 b hb]⟩

theorem FeedsStand.refl (s : State) : FeedsStand s s := fun he => ⟨he, fun _ _ => rfl⟩

theorem FeedsStand.foldl {α : Type} {f : State → α → State} (h : ∀ s a, FeedsStand s (f s a)) (l : List α) (s : State) :
    FeedsStand s (l.foldl f s) := by
  induction l generalizing s with
  | nil => exact .refl s
  | cons a l ih => exact (h s a).trans (ih _)

/-- What the end of an event does to a feed that is not ON: an OFF feed waits for its restart, and a held one stays. -/
theorem feedsStand_of_follows {s t : State} (hf : Follows s t) (hs : Serves s t) : FeedsStand s t := fun he => by
  obtain ⟨he', hoff⟩ := hs.dormant he
  refine ⟨he', fun b hb => ?_⟩
  have hst : (tget t.feeds b).state = (tget s.feeds b).state := by
    cases hx : (tget s.feeds b).state
    case on => exact absurd hx hb
    case off => exact hoff b hx
    all_goals rw [← hx]; exact hf.held b (by rw [hx]; rfl)
  have hbl : ∀ u : State, tget (u.steady).feeds b = { tget u.feeds b with state := .off } := fun u => tget_map _ _ _
  have := (hbl t).symm.trans ((congrArg (fun u : State => tget u.feeds b) hf.steady).trans (hbl s))
  generalize tget t.feeds b = y at hst this ⊢
  generalize tget s.feeds b = x at hst this ⊢
  cases x
  cases y
  simp_all

/-! ## Restarts (R43, R44) -/

/-- A feed as the restart of an entry into RUN leaves it, with a demand. -/
def State.restarted (s : State) (b : Fin 48) (demand : Bool) (f : Feed) : Feed :=
  match s.blockDef b with
  | none => f
  | some d =>
    if f.state ≠ .off ∨ demand = false then f
    else if d.restartGroup * s.params.restartStagger = 0 then { f with state := .on }
    else { f with restart := some (s.clock.us + 1000 * (d.restartGroup * s.params.restartStagger)) }

/-- What the restarts are read from. -/
structure RestartsAs (s t : State) : Prop where
  tables : t.tables = s.tables
  params : t.params = s.params
  clock : t.clock = s.clock
  demand : ∀ b, t.feedDemand b = s.feedDemand b

theorem RestartsAs.trans {s t u : State} (h : RestartsAs s t) (k : RestartsAs t u) : RestartsAs s u :=
  ⟨k.tables.trans h.tables, k.params.trans h.params, k.clock.trans h.clock, fun b => (k.demand b).trans (h.demand b)⟩

theorem RestartsAs.restarted {s t : State} (h : RestartsAs s t) (b : Fin 48) (x : Bool) (f : Feed) :
    t.restarted b x f = s.restarted b x f := by
  simp only [State.restarted, State.blockDef, h.tables, h.params, h.clock]

theorem setFeedState_restartsAs (s : State) (b : Fin 48) (x : FeedState) : RestartsAs s (s.setFeedState b x) :=
  ⟨setFeedState_tables .., by unfold State.setFeedState; split <;> rfl, by unfold State.setFeedState; split <;> rfl,
    fun _ => setFeedState_demand ..⟩

theorem giveRestart_restartsAs (s : State) (b : Fin 48) : RestartsAs s (s.giveRestart b) := by
  unfold State.giveRestart
  split
  · exact ⟨rfl, rfl, rfl, fun _ => rfl⟩
  · split
    · dsimp only
      split
      · exact setFeedState_restartsAs s b _
      · refine ⟨rfl, rfl, rfl, fun c => feedDemand_congr rfl rfl ?_ (fun _ _ _ _ => rfl) fun _ _ _ => rfl⟩
        rw [State.updFeed_feeds, tget_tupd]
        split <;> simp_all
    · exact ⟨rfl, rfl, rfl, fun _ => rfl⟩

theorem giveRestart_self (s : State) (b : Fin 48) :
    tget (s.giveRestart b).feeds b = s.restarted b (s.feedDemand b) (tget s.feeds b) := by
  unfold State.giveRestart State.restarted
  cases s.blockDef b with
  | none => rfl
  | some d =>
    dsimp only
    by_cases h : (tget s.feeds b).state = .off ∧ s.feedDemand b = true
    · have hn : ¬((tget s.feeds b).state ≠ .off ∨ s.feedDemand b = false) := by rw [h.1, h.2]; decide
      simp only [if_pos h, if_neg hn]
      by_cases hd : d.restartGroup * s.params.restartStagger = 0
      · rw [if_pos hd, if_pos hd, setFeedState_feeds, if_pos rfl]
      · rw [if_neg hd, if_neg hd, State.updFeed_feeds, tget_tupd_self]
        rfl
    · rw [if_neg h, if_pos (by rw [← Bool.not_eq_true]; tauto)]

theorem giveRestart_other (s : State) (b c : Fin 48) (hc : c ≠ b) : tget (s.giveRestart b).feeds c = tget s.feeds c := by
  unfold State.giveRestart
  split
  · rfl
  · split
    · dsimp only
      split
      · rw [setFeedState_feeds, if_neg hc.symm]
      · rw [State.updFeed_feeds, tget_tupd_ne _ hc.symm]
    · rfl

theorem giveRestarts_feeds (s : State) : RestartsAs s s.giveRestarts ∧
    ∀ b, tget s.giveRestarts.feeds b = s.restarted b (s.feedDemand b) (tget s.feeds b) :=
  foldl_entries (f := State.giveRestart) (P := RestartsAs s) (get := fun u b => tget u.feeds b)
    (new := fun b => s.restarted b (s.feedDemand b)) (fun u b hu => hu.trans (giveRestart_restartsAs u b))
    (fun u b hu => by rw [giveRestart_self, hu.restarted, hu.demand]) (fun u b c _ hc => giveRestart_other u b c hc) s
    ⟨rfl, rfl, rfl, fun _ => rfl⟩

end Sys2Proof.Machine
end

section
/-! SUPPORT. The start of a group's next move while no show runs (R69, R71, R80): it changes its group and its point, and what
is handed on changes routes, signals and the panel alone. -/

namespace Sys2Proof.Machine

/-- `t` has the groups, points, queue, shows, notes, deck and cues of `s`. -/
structure MoveStands (s t : State) : Prop where
  groups : t.groups = s.groups
  points : t.points = s.points
  queue : t.queue = s.queue
  shows : t.shows = s.shows
  work : t.work = s.work
  deck : t.deck = s.deck
  cues : t.cues = s.cues

theorem MoveStands.refl (s : State) : MoveStands s s := ⟨rfl, rfl, rfl, rfl, rfl, rfl, rfl⟩

theorem MoveStands.trans {s t u : State} (h : MoveStands s t) (k : MoveStands t u) : MoveStands s u :=
  ⟨k.groups.trans h.groups, k.points.trans h.points, k.queue.trans h.queue, k.shows.trans h.shows, k.work.trans h.work,
    k.deck.trans h.deck, k.cues.trans h.cues⟩

theorem MoveStands.runningShow {s t : State} (h : MoveStands s t) : t.runningShow = s.runningShow := by
  unfold State.runningShow
  rw [h.shows]

theorem mark_moveStands (s : State) (x : Subject) : MoveStands s (s.mark x) := ⟨rfl, rfl, rfl, rfl, rfl, rfl, rfl⟩

theorem settlePanel_moveStands (s : State) : MoveStands s s.settlePanel := ⟨rfl, rfl, rfl, rfl, rfl, rfl, rfl⟩

theorem putRoute_moveStands (s : State) (r : Fin 64) (x : RouteRec) : MoveStands s (s.putRoute r x) :=
  ⟨rfl, rfl, rfl, rfl, rfl, rfl, rfl⟩

theorem putSignal_moveStands (s : State) (g : Fin 32) (f : SignalRec → SignalRec) : MoveStands s (s.putSignal g f) := by
  unfold State.putSignal
  split
  · exact .refl s
  · exact ⟨rfl, rfl, rfl, rfl, rfl, rfl, rfl⟩

theorem aspectTakesRoute_moveStands (s : State) (r : Fin 64) (d : RouteDef) (old new : RouteRec) :
    MoveStands s (s.aspectTakesRoute r d old new) := by
  unfold State.aspectTakesRoute
  extract_lets g s1
  have h1 : MoveStands s s1 := by
    simp only [s1]
    split
    · exact .refl _
    · exact putSignal_moveStands _ _ _
    · exact .refl _
  refine h1.trans ?_
  split
  · exact putSignal_moveStands _ _ _
  · split
    · exact .refl _
    · exact putSignal_moveStands _ _ _
    · exact .refl _
  · exact putSignal_moveStands _ _ _
  · split
    · exact putSignal_moveStands _ _ _
    · exact .refl _
  · exact .refl _

/-- A route that comes to be SET, with no show running. -/
theorem setRoute_isSet_moveStands (s : State) (r : Fin 64) (x y : Bool) (m : Marks) (h : s.runningShow = none) :
    MoveStands s (s.setRoute r (.isSet x y m)) := by
  unfold State.setRoute
  extract_lets old s1 s2
  have h1 : MoveStands s s1 := ((putRoute_moveStands s r _).trans (mark_moveStands _ _)).trans (settlePanel_moveStands _)
  have h2 : MoveStands s1 s2 := by
    simp only [s2]
    split
    · exact aspectTakesRoute_moveStands _ _ _ _ _
    · exact .refl _
  rw [noteRoute_noShow s2 r _ ((h1.trans h2).runningShow.trans h)]
  exact h1.trans h2

theorem testProof_moveStands (s : State) (r : Fin 64) (h : s.runningShow = none) : MoveStands s (s.testProof r) := by
  unfold State.testProof
  split
  · split
    · exact setRoute_isSet_moveStands s r _ _ _ h
    · exact .refl s
  · dsimp only
    split
    · exact .refl s
    · exact (putRoute_moveStands s r _).trans (mark_moveStands _ _)
  · exact .refl s

theorem routesTakeProof_moveStands (s : State) (p : Fin 64) (h : s.runningShow = none) :
    MoveStands s (s.routesTakeProof p) := by
  unfold State.routesTakeProof
  generalize indices 64 = l
  induction l generalizing s with
  | nil => exact .refl s
  | cons r l ih =>
    have h1 : MoveStands s (if (tget s.routes r).holds && s.routeNames r p then s.testProof r else s) := by
      split
      · exact testProof_moveStands s r h
      · exact .refl s
    exact h1.trans (ih _ (h1.runningShow.trans h))

theorem watchProof_moveStands (s : State) (p : Fin 64) (f : State → State) (h : (f s).runningShow = none) :
    MoveStands (f s) (s.watchProof p f) := by
  unfold State.watchProof
  dsimp only
  split
  · exact .refl _
  · exact (mark_moveStands _ _).trans (routesTakeProof_moveStands _ p h)

/-! ## The start of a move (R69, R71) -/

theorem tupd_tset {α : Type} {n : Nat} (t : Tab α n) (i : Fin n) (a : α) (f : α → α) :
    tupd (tset t i a) i f = tset t i (f a) := by
  refine tab_ext fun j => ?_
  rw [tget_tupd, tget_tset, tget_tset]
  split
  · simp_all
  · rfl

/-- The group and the point of a move that enters SETUP (R69). -/
def State.setupBegun (s : State) (g : Fin 8) (p : Fin 64) (l : Lie) (rest : List (Fin 64 × Lie)) : State :=
  (s.updGroup g fun x =>
    { x with
      phase := .setup, current := some ⟨p, l, s.clock.us, none⟩, outcome := none, queue := rest
      phaseTimer := some (s.after (s.profile g).setup), windowTimer := none }).updPoint p
        fun x => { x with disagree := 0, asFound := false }

/-- The group and the point of the current move `m`, which enters PULSE (R71). -/
def State.pulseBegun (s : State) (g : Fin 8) (m : Move) : State :=
  (s.updGroup g fun x =>
    { x with
      phase := .pulse, current := some { m with phaseAt := s.clock.us, pulseAt := some s.clock.us }
      phaseTimer := some (s.after (s.profile g).pulse)
      windowTimer := if s.feedback m.point = .hold then some (s.after (s.profile g).window) else none }).updPoint m.point
        fun x => { x with lie := none }

theorem pulseBegun_groups (s : State) (g : Fin 8) (m : Move) : (s.pulseBegun g m).groups = tupd s.groups g fun x =>
    { x with
      phase := .pulse, current := some { m with phaseAt := s.clock.us, pulseAt := some s.clock.us }
      phaseTimer := some (s.after (s.profile g).pulse)
      windowTimer := if s.feedback m.point = .hold then some (s.after (s.profile g).window) else none } := rfl

theorem pulseBegun_points (s : State) (g : Fin 8) (m : Move) :
    (s.pulseBegun g m).points = tupd s.points m.point fun x => { x with lie := none } := rfl

/-- A point is marked and the panel follows. -/
def State.showPoint (s : State) (p : Fin 64) : State := (s.mark (.point p)).settlePanel

theorem showPoint_moveStands (s : State) (p : Fin 64) : MoveStands s (s.showPoint p) :=
  (mark_moveStands s _).trans (settlePanel_moveStands _)

theorem showPoint_follows (s : State) (p : Fin 64) : Follows s (s.showPoint p) :=
  (mark_follows s _).trans (settlePanel_follows _)

theorem enterPulse_eq {s : State} {g : Fin 8} {m : Move} (h : (tget s.groups g).current = some m) :
    s.enterPulse g = s.watchProof m.point fun s => (s.pulseBegun g m).showPoint m.point := by
  unfold State.enterPulse
  rw [h]
  rfl

theorem startMove_eq {s : State} {g : Fin 8} {p : Fin 64} {l : Lie} {rest : List (Fin 64 × Lie)}
    (hq : (tget s.groups g).queue = (p, l) :: rest) (hi : (tget s.groups g).phase = .idle)
    (hp : (tget s.groups g).paused = false) (hm : s.mode = .run) :
    s.startMove g =
      if ((s.watchProof p fun s => (s.setupBegun g p l rest).showPoint p).profile g).setup = 0 then
        (s.watchProof p fun s => (s.setupBegun g p l rest).showPoint p).enterPulse g
      else s.watchProof p fun s => (s.setupBegun g p l rest).showPoint p := by
  unfold State.startMove
  simp only [hq, hi, hp, hm, Bool.false_eq_true, not_false_eq_true, and_self, if_true]
  rfl

/-- A group that may not begin a move stands (R69). -/
theorem startMove_none {s : State} {g : Fin 8} (h : (tget s.groups g).queue = [] ∨ (tget s.groups g).phase ≠ .idle ∨
    (tget s.groups g).paused = true ∨ s.mode ≠ .run) : s.startMove g = s := by
  unfold State.startMove
  dsimp only
  split
  · rfl
  · rename_i hq
    refine if_neg ?_
    rintro ⟨hi, hp, hm⟩
    simp_all

theorem watchProof_setup_follows (s : State) (g : Fin 8) (p : Fin 64) (l : Lie) (rest : List (Fin 64 × Lie)) :
    Follows s (s.watchProof p fun s => (s.setupBegun g p l rest).showPoint p) :=
  watchProof_follows _ _ _ (((updGroup_follows _ _ _ (by intro _; rfl)).trans
    (updPoint_follows _ _ _ (by intro _; rfl))).trans (showPoint_follows _ _))

theorem setupBegun_moveStands (s : State) (g : Fin 8) (p : Fin 64) (l : Lie) (rest : List (Fin 64 × Lie))
    (h : (tget s.tables.groups g).setup ≠ 0) :
    MoveStands (s.moveStarts g (tget s.groups g) p l rest) (s.setupBegun g p l rest) := by
  refine ⟨?_, ?_, rfl, rfl, rfl, rfl, rfl⟩
  · rw [State.moveStarts_groups, State.groupStarts, if_neg h]
    rfl
  · rw [State.moveStarts_points, State.pointStarts, if_neg h]
    rfl

/-- A move whose SETUP is over at once: SETUP and PULSE together. -/
theorem pulseBegun_moveStands {s t : State} {g : Fin 8} {p : Fin 64} {l : Lie} {rest : List (Fin 64 × Lie)}
    (h : (tget s.tables.groups g).setup = 0) (h1 : MoveStands (s.setupBegun g p l rest) t) (hc : t.clock = s.clock)
    (ht : t.tables = s.tables) :
    MoveStands (s.moveStarts g (tget s.groups g) p l rest) (t.pulseBegun g ⟨p, l, s.clock.us, none⟩) := by
  have hgroups : t.groups = tset s.groups g { tget s.groups g with
      phase := .setup, current := some ⟨p, l, s.clock.us, none⟩, outcome := none, queue := rest
      phaseTimer := some (s.after (s.profile g).setup), windowTimer := none } := h1.groups
  have hpoints : t.points = tset s.points p { tget s.points p with disagree := 0, asFound := false } := h1.points
  have hprofile : t.profile g = tget s.tables.groups g := by rw [State.profile, ht]
  have hfeedback : t.feedback p = s.feedback p := by simp only [State.feedback, State.pointDef, ht]
  refine ⟨?_, ?_, h1.queue, h1.shows, h1.work, h1.deck, h1.cues⟩
  · rw [pulseBegun_groups, hgroups, tupd_tset, State.moveStarts_groups]
    simp only [State.groupStarts, if_pos h, hc, hprofile, hfeedback, State.after]
  · rw [pulseBegun_points, hpoints, tupd_tset, State.moveStarts_points]
    simp only [State.pointStarts, if_pos h]

theorem startMove_begins {s : State} {g : Fin 8} {p : Fin 64} {l : Lie} {rest : List (Fin 64 × Lie)}
    (h : s.runningShow = none) (hq : (tget s.groups g).queue = (p, l) :: rest) (hi : (tget s.groups g).phase = .idle)
    (hp : (tget s.groups g).paused = false) (hm : s.mode = .run) :
    MoveStands (s.moveStarts g (tget s.groups g) p l rest) (s.startMove g) := by
  rw [startMove_eq hq hi hp hm]
  have h1 : MoveStands (s.setupBegun g p l rest) (s.watchProof p fun s => (s.setupBegun g p l rest).showPoint p) :=
    (showPoint_moveStands _ p).trans (watchProof_moveStands s p (fun s => (s.setupBegun g p l rest).showPoint p)
      ((showPoint_moveStands _ p).runningShow.trans h))
  have hsteady := (watchProof_setup_follows s g p l rest).steady
  generalize (s.watchProof p fun s => (s.setupBegun g p l rest).showPoint p) = t at h1 hsteady ⊢
  have hclock : t.clock = s.clock := (congrArg State.clock hsteady :)
  have htables : t.tables = s.tables := (congrArg State.tables hsteady :)
  rw [State.profile, htables]
  split
  · rename_i h0
    have hgroups : t.groups = tset s.groups g _ := h1.groups
    have hcur : (tget t.groups g).current = some ⟨p, l, s.clock.us, none⟩ := by rw [hgroups, tget_tset_self]
    rw [enterPulse_eq hcur]
    have h2 := pulseBegun_moveStands h0 h1 hclock htables
    exact (h2.trans (showPoint_moveStands _ p)).trans (watchProof_moveStands t p (fun s => (s.pulseBegun g _).showPoint p)
      ((h2.trans (showPoint_moveStands _ p)).runningShow.trans h))
  · rename_i h0
    exact (setupBegun_moveStands s g p l rest h0).trans h1

/-- With no show running, the start of a move keeps the queue, the shows, the notes, the deck and the cues. -/
theorem startMove_quiet (s : State) (g : Fin 8) (h : s.runningShow = none) :
    (s.startMove g).queue = s.queue ∧ (s.startMove g).shows = s.shows ∧ (s.startMove g).work = s.work ∧
      (s.startMove g).deck = s.deck ∧ (s.startMove g).cues = s.cues := by
  by_cases hn : (tget s.groups g).queue = [] ∨ (tget s.groups g).phase ≠ .idle ∨ (tget s.groups g).paused = true ∨
      s.mode ≠ .run
  · rw [startMove_none hn]
    exact ⟨rfl, rfl, rfl, rfl, rfl⟩
  · simp only [not_or, not_not, Bool.not_eq_true] at hn
    obtain ⟨hq, hi, hp, hm⟩ := hn
    obtain ⟨⟨p, l⟩, rest, hq⟩ := List.exists_cons_of_ne_nil hq
    have := startMove_begins h hq hi hp hm
    exact ⟨this.queue, this.shows, this.work, this.deck, this.cues⟩

end Sys2Proof.Machine
end

section
/-! SUPPORT. RESUME (O23): the entry into RUN from HALT. -/

namespace Sys2Proof.Machine

/-! ## What an entry into RUN from HALT leaves alone -/

/-- The steady part but for the feeds and the groups. -/
def State.standing (s : State) : State :=
  ({ s with feeds := tfill 48 Feed.initial, groups := tfill 8 GroupRec.initial } : State).steady

/-- The steady part with other feeds and groups in it. -/
def State.regrouped (u : State) (f : Tab Feed 48) (g : Tab GroupRec 8) : State :=
  { u with
    feeds := f.map fun (x : Feed) => { x with state := .off }
    groups := g.map fun (x : GroupRec) => { GroupRec.initial with paused := x.paused } }

theorem steady_of_standing {s t : State} (h : t.standing = s.standing) (f : Tab Feed 48) (g : Tab GroupRec 8) :
    ({ t with feeds := f, groups := g } : State).steady = ({ s with feeds := f, groups := g } : State).steady :=
  congrArg (fun u : State => u.regrouped f g) h

theorem standing_of_steady {s t : State} (h : t.steady = s.steady) : t.standing = s.standing :=
  congrArg (fun u : State => u.regrouped (tfill 48 Feed.initial) (tfill 8 GroupRec.initial)) h

theorem Follows.standing {s t : State} (h : Follows s t) : t.standing = s.standing := standing_of_steady h.steady

theorem standing_foldl {α : Type} {f : State → α → State} (h : ∀ s a, (f s a).standing = s.standing) (l : List α) (s : State) :
    (l.foldl f s).standing = s.standing := by
  induction l generalizing s with
  | nil => rfl
  | cons a l ih => exact (ih _).trans (h s a)

/-- The calm part settles the steady part. -/
theorem steady_calm (s : State) : s.calm.steady = s.steady := by
  simp only [State.steady, State.calm]
  congr 1 <;> exact tab_ext fun i => by simp only [tget_map]

theorem steady_of_calm {s t : State} (h : t.calm = s.calm) : t.steady = s.steady := by
  rw [← steady_calm t, h, steady_calm]

theorem setFeedState_standing (s : State) (b : Fin 48) (x : FeedState) : (s.setFeedState b x).standing = s.standing :=
  standing_of_steady (steady_of_calm (setFeedState_calmly s b x).1)

theorem deferredRestore_standing (s : State) (b : Fin 48) : (s.deferredRestore b).standing = s.standing := by
  unfold State.deferredRestore
  dsimp only
  split
  · exact setFeedState_standing _ _ _
  · rfl

theorem giveRestart_standing (s : State) (b : Fin 48) : (s.giveRestart b).standing = s.standing := by
  unfold State.giveRestart
  split
  · rfl
  · split
    · dsimp only
      split
      · exact setFeedState_standing _ _ _
      · rfl
    · rfl

theorem liftPause_standing (s : State) (g : Fin 8) :
    ((s.updGroup g fun x => { x with paused := false }).startMove g).standing = s.standing :=
  (startMove_follows _ g).standing.trans rfl

/-! ## The stages of the entry -/

/-- The deferred restores of some feeds. -/
@[irreducible] def State.restoreDeferred (l : List (Fin 48)) (s : State) : State := l.foldl State.deferredRestore s

theorem restoreDeferred_eq (l : List (Fin 48)) (s : State) : s.restoreDeferred l = l.foldl State.deferredRestore s := by
  unfold State.restoreDeferred
  rfl

/-- The deferred restores of every feed (R44, step 1). -/
def State.deferredRestores (s : State) : State := s.restoreDeferred (indices 48)

theorem deferredRestores_eq (s : State) : s.deferredRestores = (indices 48).foldl State.deferredRestore s :=
  restoreDeferred_eq (indices 48) s

/-- The mode, the deferred restores and the pauses of an entry into RUN from HALT, before what it brings about settles (R22). -/
def State.resumed (s : State) : State :=
  ((s.putMode .run).putEntering true).deferredRestores.pointsResume

theorem resumeRun_eq (s : State) : s.resumeRun = s.resumed.endEntry := by
  unfold State.resumeRun State.resumed
  rw [deferredRestores_eq]

theorem putMode_standing (s : State) (m : Mode) : (s.putMode m).standing = ({ s with mode := m } : State).standing :=
  ((mark_follows _ _).trans (settlePanel_follows _)).standing

theorem pointsResume_standing (s : State) : s.pointsResume.standing = s.standing := by
  unfold State.pointsResume
  exact standing_foldl liftPause_standing _ s

theorem resumed_standing (s : State) : s.resumed.standing = ({ s with mode := .run } : State).standing :=
  calc s.resumed.standing
    _ = ((s.putMode .run).putEntering true).deferredRestores.standing :=
        pointsResume_standing _
    _ = ((s.putMode .run).putEntering true).standing := by
        rw [deferredRestores_eq]
        exact standing_foldl deferredRestore_standing _ _
    _ = ({ s with mode := .run } : State).standing := putMode_standing s .run

theorem endEntry_standing (s : State) : s.endEntry.standing = s.standing :=
  calc s.endEntry.standing
    _ = (s.callExamine.settle.putEntering false).standing := standing_foldl giveRestart_standing _ _
    _ = s.standing := ((callExamine_follows s).trans (settle_follows _)).standing

/-! ## The marks -/

theorem setFeedState_marks (s : State) (b : Fin 48) (x : FeedState) :
    ∀ y ∈ s.link.reports, y ∈ (s.setFeedState b x).link.reports := by
  unfold State.setFeedState
  split
  · exact fun _ h => h
  · exact fun y hy => (mem_joinTail _ _ _).2 (.inl hy)

theorem deferredRestore_marks (s : State) (b : Fin 48) :
    ∀ y ∈ s.link.reports, y ∈ (s.deferredRestore b).link.reports := by
  unfold State.deferredRestore
  dsimp only
  split
  · exact setFeedState_marks (s.updFeed b fun f => { f with deferred := false, log := [] }) b .off
  · exact fun _ h => h

theorem giveRestart_marks (s : State) (b : Fin 48) : ∀ y ∈ s.link.reports, y ∈ (s.giveRestart b).link.reports := by
  unfold State.giveRestart
  split
  · exact fun _ h => h
  · split
    · dsimp only
      split
      · exact setFeedState_marks _ _ _
      · exact fun _ h => h
    · exact fun _ h => h

theorem marks_foldl {α : Type} {f : State → α → State} (h : ∀ s a, ∀ y ∈ s.link.reports, y ∈ (f s a).link.reports)
    (l : List α) (s : State) : ∀ y ∈ s.link.reports, y ∈ (l.foldl f s).link.reports := by
  induction l generalizing s with
  | nil => exact fun _ h => h
  | cons a l ih => exact fun y hy => ih _ y (h s a y hy)

theorem endEntry_marks (s : State) : ∀ y ∈ s.link.reports, y ∈ s.endEntry.link.reports := fun y hy => by
  unfold State.endEntry State.giveRestarts
  exact marks_foldl giveRestart_marks _ (s.callExamine.settle.putEntering false) y
    (((callExamine_follows s).trans (settle_follows _)).marks y hy)

theorem mem_putMode (s : State) (m : Mode) : .layout ∈ (s.putMode m).link.reports :=
  (settlePanel_follows _).marks _ (mem_mark_self _ _)

theorem resumed_marks (s : State) : ∀ y ∈ (s.putMode .run).link.reports, y ∈ s.resumed.link.reports := fun y hy => by
  rw [State.resumed, deferredRestores_eq]
  unfold State.pointsResume
  exact marks_foldl (f := fun s g => (s.updGroup g fun x => { x with paused := false }).startMove g)
    (fun s g => (startMove_follows (s.updGroup g fun x => { x with paused := false }) g).marks) _ _ y
    (marks_foldl deferredRestore_marks _ ((s.putMode .run).putEntering true) y hy)

/-! ## The groups -/

theorem Follows.paused {s t : State} (h : Follows s t) (g : Fin 8) :
    (tget t.groups g).paused = (tget s.groups g).paused := by
  have hg : ∀ u : State, tget u.steady.groups g = { GroupRec.initial with paused := (tget u.groups g).paused } :=
    fun u => tget_map _ _ _
  have := (hg t).symm.trans ((congrArg (fun u : State => tget u.groups g) h.steady).trans (hg s))
  exact (congrArg GroupRec.paused this :)

theorem setFeedState_groups (s : State) (b : Fin 48) (x : FeedState) : (s.setFeedState b x).groups = s.groups := by
  unfold State.setFeedState
  split <;> rfl

theorem giveRestart_groups (s : State) (b : Fin 48) : (s.giveRestart b).groups = s.groups := by
  unfold State.giveRestart
  split
  · rfl
  · split
    · dsimp only
      split
      · exact setFeedState_groups _ _ _
      · rfl
    · rfl

theorem groups_foldl {α : Type} {f : State → α → State} (h : ∀ s a, (f s a).groups = s.groups) (l : List α) (s : State) :
    (l.foldl f s).groups = s.groups := by
  induction l generalizing s with
  | nil => rfl
  | cons a l ih => exact (ih _).trans (h s a)

theorem endEntry_groups (s : State) : s.endEntry.groups = s.callExamine.settle.groups := by
  unfold State.endEntry State.giveRestarts
  generalize s.callExamine.settle = t
  exact groups_foldl giveRestart_groups _ (t.putEntering false)

theorem groups_of_calm {s t : State} (h : t.calm = s.calm) : t.groups = s.groups := (congrArg State.groups h :)

/-- A group's record as the end of its pause leaves it (R80). -/
def State.unpaused (s : State) (g : Fin 8) (x : GroupRec) : GroupRec :=
  match x.phase, x.queue with
  | .idle, (p, l) :: rest => s.groupStarts g { x with paused := false } p l rest
  | _, _ => { x with paused := false }

theorem groupStarts_congr {s t : State} (hc : t.clock = s.clock) (ht : t.tables = s.tables) (g : Fin 8) (x : GroupRec)
    (p : Fin 64) (l : Lie) (rest : List (Fin 64 × Lie)) : t.groupStarts g x p l rest = s.groupStarts g x p l rest := by
  have hf : t.feedback p = s.feedback p := by simp only [State.feedback, State.pointDef, ht]
  simp only [State.groupStarts, hf, hc, ht]

/-- What the ends of the pauses are read from. -/
structure ResumesAs (s t : State) : Prop where
  mode : t.mode = s.mode
  clock : t.clock = s.clock
  tables : t.tables = s.tables
  shows : t.shows = s.shows
  queue : t.queue = s.queue
  work : t.work = s.work

theorem ResumesAs.trans {s t u : State} (h : ResumesAs s t) (k : ResumesAs t u) : ResumesAs s u :=
  ⟨k.mode.trans h.mode, k.clock.trans h.clock, k.tables.trans h.tables, k.shows.trans h.shows, k.queue.trans h.queue,
    k.work.trans h.work⟩

theorem ResumesAs.unpaused {s t : State} (h : ResumesAs s t) (g : Fin 8) (x : GroupRec) : t.unpaused g x = s.unpaused g x := by
  simp only [State.unpaused, groupStarts_congr h.clock h.tables]

theorem startMove_resumesAs (s : State) (g : Fin 8) (h : s.runningShow = none) : ResumesAs s (s.startMove g) := by
  obtain ⟨hq, hs, hw, -, -⟩ := startMove_quiet s g h
  have hst := (startMove_follows s g).steady
  exact ⟨(congrArg State.mode hst :), (congrArg State.clock hst :), (congrArg State.tables hst :), hs, hq, hw⟩

/-- The end of one group's pause, with no show running in RUN. -/
theorem liftPause_groups (s : State) (g : Fin 8) (h : s.runningShow = none) (hm : s.mode = .run) :
    ((s.updGroup g fun x => { x with paused := false }).startMove g).groups =
      tset s.groups g (s.unpaused g (tget s.groups g)) := by
  have hg : (s.updGroup g fun x => { x with paused := false }).groups = tset s.groups g { tget s.groups g with paused := false } :=
    rfl
  have hx : tget (s.updGroup g fun x => { x with paused := false }).groups g = { tget s.groups g with paused := false } := by
    rw [hg, tget_tset_self]
  unfold State.unpaused
  split
  · rename_i p l rest hi hq
    rw [(startMove_begins (s := s.updGroup g fun x => { x with paused := false }) (p := p) (l := l) (rest := rest) h
      (by rw [hx]; exact hq) (by rw [hx]; exact hi) (by rw [hx]) hm).groups, State.moveStarts_groups, hx, hg]
    refine tab_ext fun j => ?_
    rw [tget_tset, tget_tset, tget_tset]
    split <;> rfl
  · rename_i hno
    rw [startMove_none]
    · exact hg
    · rw [hx]
      by_cases hi : (tget s.groups g).phase = .idle
      · left
        cases hq : (tget s.groups g).queue with
        | nil => rfl
        | cons e rest => exact absurd hq (hno e.1 e.2 rest hi)
      · exact .inr (.inl hi)

theorem pointsResume_groups (s : State) (h : s.runningShow = none) (hm : s.mode = .run) :
    ResumesAs s s.pointsResume ∧ ∀ g, tget s.pointsResume.groups g = s.unpaused g (tget s.groups g) := by
  have run {u : State} (hu : ResumesAs s u) : u.runningShow = none ∧ u.mode = .run := by
    refine ⟨?_, hu.mode.trans hm⟩
    unfold State.runningShow at h ⊢
    rw [hu.shows]
    exact h
  refine foldl_entries (f := fun s g => (s.updGroup g fun x => { x with paused := false }).startMove g)
    (P := ResumesAs s) (get := fun u g => tget u.groups g) (new := fun g => s.unpaused g) ?_ ?_ ?_ s ⟨rfl, rfl, rfl, rfl, rfl, rfl⟩
  · intro u g hu
    have h1 : ResumesAs u (u.updGroup g fun x => { x with paused := false }) := ⟨rfl, rfl, rfl, rfl, rfl, rfl⟩
    exact (hu.trans h1).trans (startMove_resumesAs _ g (run hu).1)
  · intro u g hu
    rw [liftPause_groups u g (run hu).1 (run hu).2, tget_tset_self, hu.unpaused]
  · intro u g j hu hj
    rw [liftPause_groups u g (run hu).1 (run hu).2, tget_tset_ne _ hj.symm]

theorem pointsResume_paused (s : State) (g : Fin 8) : (tget s.pointsResume.groups g).paused = false :=
  (foldl_entries (f := fun s g => (s.updGroup g fun x => { x with paused := false }).startMove g)
    (P := fun _ => True) (get := fun u g => (tget u.groups g).paused) (new := fun _ _ => false) (fun _ _ _ => trivial)
    (fun u g _ => by rw [(startMove_follows _ g).paused, State.updGroup_groups, tget_tupd_self])
    (fun u g j _ hj => by rw [(startMove_follows _ g).paused, State.updGroup_groups, tget_tupd_ne _ hj.symm]) s trivial).2 g

/-! ## The feeds -/

theorem settle_feedsStand (s : State) : FeedsStand s s.settle := feedsStand_of_follows (settle_follows s) (settle_serves s)

theorem pointsResume_feedsStand (s : State) : FeedsStand s s.pointsResume :=
  FeedsStand.foldl (f := fun s g => (s.updGroup g fun x => { x with paused := false }).startMove g)
    (fun s g => FeedsStand.trans (t := s.updGroup g fun x => { x with paused := false }) (fun he => ⟨he, fun _ _ => rfl⟩)
      (feedsStand_of_follows (startMove_follows _ g) (startMove_serves _ g))) _ s

theorem restarted_congr {s t : State} (ht : t.tables = s.tables) (hp : t.params = s.params) (hc : t.clock = s.clock)
    (b : Fin 48) (x : Bool) (f : Feed) : t.restarted b x f = s.restarted b x f := by
  simp only [State.restarted, State.blockDef, ht, hp, hc]

/-- A feed that is not ON at the end of an entry into RUN, before the restarts. -/
theorem endEntry_feeds (s : State) (he : s.work.entering = true) (b : Fin 48) (hb : (tget s.feeds b).state ≠ .on) :
    tget s.endEntry.feeds b = s.restarted b (s.endEntry.feedDemand b) (tget s.feeds b) := by
  have hst : s.callExamine.settle.steady = s.steady := ((callExamine_follows s).trans (settle_follows _)).steady
  obtain ⟨-, hstand⟩ := settle_feedsStand s.callExamine he
  obtain ⟨hr, hf⟩ := giveRestarts_feeds (s.callExamine.settle.putEntering false)
  have hx : s.endEntry = (s.callExamine.settle.putEntering false).giveRestarts := rfl
  have hb' : tget (s.callExamine.settle.putEntering false).feeds b = tget s.feeds b := hstand b hb
  rw [hx, hf b, hr.demand b, hb']
  exact restarted_congr (congrArg State.tables hst :) (congrArg State.params hst :) (congrArg State.clock hst :) b _ _

/-! ## The deferred restores -/

theorem setFeedState_resumesAs (s : State) (b : Fin 48) (x : FeedState) : ResumesAs s (s.setFeedState b x) := by
  unfold State.setFeedState
  split <;> exact ⟨rfl, rfl, rfl, rfl, rfl, rfl⟩

theorem deferredRestore_resumesAs (s : State) (b : Fin 48) :
    ResumesAs s (s.deferredRestore b) ∧ (s.deferredRestore b).groups = s.groups := by
  unfold State.deferredRestore
  dsimp only
  split
  · obtain ⟨hm, hc, ht, hs, hq, hw⟩ := setFeedState_resumesAs (s.updFeed b fun f => { f with deferred := false, log := [] }) b .off
    exact ⟨⟨hm, hc, ht, hs, hq, hw⟩, setFeedState_groups _ _ _⟩
  · exact ⟨⟨rfl, rfl, rfl, rfl, rfl, rfl⟩, rfl⟩

theorem deferredRestores_resumesAs (s : State) :
    ResumesAs s s.deferredRestores ∧ s.deferredRestores.groups = s.groups := by
  rw [deferredRestores_eq]
  generalize indices 48 = l
  induction l generalizing s with
  | nil => exact ⟨⟨rfl, rfl, rfl, rfl, rfl, rfl⟩, rfl⟩
  | cons b l ih =>
    obtain ⟨h, hg⟩ := deferredRestore_resumesAs s b
    obtain ⟨k, kg⟩ := ih (s.deferredRestore b)
    exact ⟨h.trans k, kg.trans hg⟩

theorem resumed_feeds (s : State) (b : Fin 48) (hb : (tget s.feeds b).state ≠ .on) :
    s.resumed.work.entering = true ∧ tget s.resumed.feeds b = (tget s.feeds b).released := by
  have hf : tget ((s.putMode .run).putEntering true).deferredRestores.feeds b = (tget s.feeds b).released := by
    rw [deferredRestores_eq]
    exact deferredRestores_feeds ((s.putMode .run).putEntering true) b
  have he : ((s.putMode .run).putEntering true).deferredRestores.work.entering = true := by
    rw [(deferredRestores_resumesAs _).1.work]
    rfl
  obtain ⟨h1, h2⟩ := pointsResume_feedsStand _ he
  rw [State.resumed]
  exact ⟨h1, (h2 b (by rw [hf]; exact released_notOn hb)).trans hf⟩

/-- The mode of an entry into RUN in hand leaves the groups, the clock, the tables, the shows and the queue. -/
theorem putMode_entering_resumesAs (s : State) :
    ((s.putMode .run).putEntering true).clock = s.clock ∧ ((s.putMode .run).putEntering true).tables = s.tables ∧
      ((s.putMode .run).putEntering true).shows = s.shows ∧ ((s.putMode .run).putEntering true).queue = s.queue ∧
      ((s.putMode .run).putEntering true).groups = s.groups ∧ ((s.putMode .run).putEntering true).mode = .run ∧
      ((s.putMode .run).putEntering true).work.wake = s.work.wake :=
  ⟨rfl, rfl, rfl, rfl, rfl, rfl, rfl⟩

/-- The pauses lifted while no show runs: what the end of the entry finds. -/
theorem resumed_groups (s : State) (h : s.quiet) :
    s.resumed.queue = [] ∧ s.resumed.work.wake = none ∧ ∀ g, tget s.resumed.groups g = s.unpaused g (tget s.groups g) := by
  obtain ⟨hqueue, hshow, hwork⟩ := h
  obtain ⟨hc, ht, hsh, hq, hg, hm, hw⟩ := putMode_entering_resumesAs s
  have hr : s.resumed = ((s.putMode .run).putEntering true).deferredRestores.pointsResume := rfl
  obtain ⟨h1, h1g⟩ := deferredRestores_resumesAs ((s.putMode .run).putEntering true)
  generalize (s.putMode .run).putEntering true = u at *
  generalize u.deferredRestores = v at *
  have hvshow : v.runningShow = none := by
    unfold State.runningShow at hshow ⊢
    rw [h1.shows, hsh]
    exact hshow
  obtain ⟨h2, h2g⟩ := pointsResume_groups v hvshow (h1.mode.trans hm)
  rw [hr]
  refine ⟨(h2.queue.trans h1.queue).trans (hq.trans hqueue), ?_, fun g => ?_⟩
  · rw [h2.work, h1.work, hw, hwork]
    rfl
  · rw [h2g g, h1g, hg]
    simp only [State.unpaused, groupStarts_congr (h1.clock.trans hc) (h1.tables.trans ht)]

/-- With no route and no show waiting, the groups at an entry into RUN from HALT. -/
theorem resumeRun_groups (s : State) (h : s.quiet) (g : Fin 8) : tget s.resumeRun.groups g = s.unpaused g (tget s.groups g) := by
  obtain ⟨hq, hw, hg⟩ := resumed_groups s h
  rw [resumeRun_eq]
  generalize s.resumed = t at hq hw hg ⊢
  have hcalm : t.callExamine.settle.calm = t.callExamine.calm := settle_calm _ (.inr hq) hw
  have hx : t.callExamine.settle.groups = t.groups := groups_of_calm (s := t.callExamine) hcalm
  rw [endEntry_groups, hx, hg g]

/-- A feed that is not ON, at an entry into RUN from HALT. -/
theorem resumeRun_feeds (s : State) (b : Fin 48) (hb : (tget s.feeds b).state ≠ .on) :
    tget s.resumeRun.feeds b = s.restarted b (s.resumeRun.feedDemand b) (tget s.feeds b).released := by
  obtain ⟨he, hf⟩ := resumed_feeds s b hb
  have hst := resumed_standing s
  generalize hr : s.resumed = t at he hf hst
  rw [resumeRun_eq, hr, endEntry_feeds t he b (by rw [hf]; exact released_notOn hb), hf]
  exact restarted_congr (congrArg State.tables hst :) (congrArg State.params hst :) (congrArg State.clock hst :) b _ _

theorem resumeRun_paused (s : State) (g : Fin 8) : (tget s.resumeRun.groups g).paused = false := by
  rw [resumeRun_eq, endEntry_groups]
  have h : (tget s.resumed.callExamine.settle.groups g).paused = (tget s.resumed.groups g).paused :=
    ((callExamine_follows s.resumed).trans (settle_follows _)).paused g
  exact h.trans (pointsResume_paused _ g)

theorem resumeRun_standing (s : State) : s.resumeRun.standing = ({ s with mode := .run } : State).standing := by
  rw [resumeRun_eq, endEntry_standing, resumed_standing]

theorem mem_resumeRun (s : State) : .layout ∈ s.resumeRun.link.reports := by
  rw [resumeRun_eq]
  exact endEntry_marks _ _ (resumed_marks _ _ (mem_putMode _ _))

/-- Settles O23: the entry in hand keeps the feeds that are not ON (`FeedsStand`) until the restarts, each group's pause ends
on its own (`pointsResume_groups`), and the rest of the entry is steady (`State.standing`). -/
theorem resumeReturnsToRun : Obligations.ResumeReturnsToRun := by
  unfold Obligations.ResumeReturnsToRun
  intro s dt tag hs
  refine ⟨fun hh => request_refused s dt tag _ _ hs _ (if_neg (by exact ne_true_of_eq_false hh)), fun hh => ?_⟩
  have ht : takeResume () (s.frameLost dt) = ((s.frameLost dt).resumeRun, Reply.done) := if_pos hh
  have hstand := resumeRun_standing (s.frameLost dt)
  have hlayout := mem_resumeRun (s.frameLost dt)
  have hpaused := resumeRun_paused (s.frameLost dt)
  have hgroups := resumeRun_groups (s.frameLost dt)
  have hfeeds := resumeRun_feeds (s.frameLost dt)
  generalize (s.frameLost dt).resumeRun = t at ht hstand hlayout hpaused hgroups hfeeds
  have hrx : t.link.rx = .hunt := (congrArg (fun u : State => u.link.rx) hstand :)
  refine ⟨_, (request_heard s dt tag _ _ hs).trans (by rw [ht]), ?_⟩
  rw [pushReply_eq_replied t tag _ hrx]
  exact ⟨hlayout, congrArg (fun u : State => u.replied tag Reply.done) (steady_of_standing hstand s.feeds s.groups), hpaused,
    hgroups, hfeeds⟩

end Sys2Proof.Machine
end

section
/-! SUPPORT. The home moves at entry into RUN (R81): with no route holding elements and no show running, each point of the tables
asks for its home lie in turn, and a group begins the first move asked of it, the others waiting in its queue. -/

namespace Sys2Proof.Machine

/-! ## Home moves that disturb nothing else -/

/-- `t` is `s` after operations that followed it and left its routes, signals, queue, shows, notes and cues. -/
structure HomeStands (s t : State) : Prop where
  follows : Follows s t
  serves : Serves s t
  routes : t.routes = s.routes
  signals : t.signals = s.signals
  queue : t.queue = s.queue
  shows : t.shows = s.shows
  work : t.work = s.work
  cues : t.cues = s.cues

theorem HomeStands.refl (s : State) : HomeStands s s := ⟨.refl s, .refl s, rfl, rfl, rfl, rfl, rfl, rfl⟩

theorem HomeStands.trans {s t u : State} (h : HomeStands s t) (k : HomeStands t u) : HomeStands s u :=
  ⟨h.follows.trans k.follows, h.serves.trans k.serves, k.routes.trans h.routes, k.signals.trans h.signals,
    k.queue.trans h.queue, k.shows.trans h.shows, k.work.trans h.work, k.cues.trans h.cues⟩

/-- No route holds elements, and no show runs. -/
def State.unserved (s : State) : Prop := (∀ r, (tget s.routes r).holds = false) ∧ s.runningShow = none

theorem HomeStands.unserved {s t : State} (h : HomeStands s t) (hs : s.unserved) : t.unserved := by
  obtain ⟨h1, h2⟩ := hs
  refine ⟨by rw [h.routes]; exact h1, ?_⟩
  unfold State.runningShow at h2 ⊢
  rw [h.shows]
  exact h2

theorem mark_homeStands (s : State) (x : Subject) : HomeStands s (s.mark x) :=
  ⟨mark_follows s x, mark_serves s x, rfl, rfl, rfl, rfl, rfl, rfl⟩

theorem updGroup_homeStands (s : State) (g : Fin 8) (f : GroupRec → GroupRec) (h : ∀ x, (f x).paused = x.paused) :
    HomeStands s (s.updGroup g f) := ⟨updGroup_follows s g f h, updGroup_serves s g f, rfl, rfl, rfl, rfl, rfl, rfl⟩

theorem updPoint_homeStands (s : State) (p : Fin 64) (f : PointRec → PointRec) (h : ∀ x, (f x).failed = x.failed) :
    HomeStands s (s.updPoint p f) := ⟨updPoint_follows s p f h, updPoint_serves s p f, rfl, rfl, rfl, rfl, rfl, rfl⟩

theorem settlePanel_homeStands (s : State) : HomeStands s s.settlePanel :=
  ⟨settlePanel_follows s, settlePanel_serves s, rfl, rfl, rfl, rfl, rfl, rfl⟩

theorem routesTakeProof_free (s : State) (p : Fin 64) (h : ∀ r, (tget s.routes r).holds = false) : s.routesTakeProof p = s := by
  unfold State.routesTakeProof
  induction indices 64 with
  | nil => rfl
  | cons r l ih => rw [List.foldl_cons, h r, Bool.false_and, if_neg (by decide), ih]

theorem watchProof_homeStands (s : State) (p : Fin 64) (f : State → State) (h : HomeStands s (f s)) (hs : s.unserved) :
    HomeStands s (s.watchProof p f) := by
  unfold State.watchProof
  dsimp only
  split
  · exact h
  · rw [routesTakeProof_free _ p ((h.trans (mark_homeStands _ _)).unserved hs).1]
    exact h.trans (mark_homeStands _ _)

theorem showPoint_homeStands (s : State) (p : Fin 64) : HomeStands s (s.showPoint p) :=
  (mark_homeStands s _).trans (settlePanel_homeStands _)

theorem startMove_homeStands (s : State) (g : Fin 8) (hs : s.unserved) : HomeStands s (s.startMove g) := by
  by_cases hn : (tget s.groups g).queue = [] ∨ (tget s.groups g).phase ≠ .idle ∨ (tget s.groups g).paused = true ∨
      s.mode ≠ .run
  · rw [startMove_none hn]
    exact .refl s
  · simp only [not_or, not_not, Bool.not_eq_true] at hn
    obtain ⟨hq, hi, hp, hm⟩ := hn
    obtain ⟨⟨p, l⟩, rest, hq⟩ := List.exists_cons_of_ne_nil hq
    rw [startMove_eq hq hi hp hm]
    have h1 : HomeStands s (s.watchProof p fun s => (s.setupBegun g p l rest).showPoint p) :=
      watchProof_homeStands s p _ (((updGroup_homeStands s g _ (by intro _; rfl)).trans
        (updPoint_homeStands _ p _ (by intro _; rfl))).trans (showPoint_homeStands _ p)) hs
    split
    · refine h1.trans ?_
      have h2 := h1.unserved hs
      generalize (s.watchProof p fun s => (s.setupBegun g p l rest).showPoint p) = t at h2 ⊢
      cases hc : (tget t.groups g).current with
      | none =>
        unfold State.enterPulse
        rw [hc]
        exact .refl t
      | some m =>
        rw [enterPulse_eq hc]
        exact watchProof_homeStands t m.point _ (((updGroup_homeStands t g _ (by intro _; rfl)).trans
          (updPoint_homeStands _ m.point _ (by intro _; rfl))).trans (showPoint_homeStands _ m.point)) h2
    · exact h1

/-! ## One point's home move (R68, R81) -/

/-- The lie a point is sent home to; none for AS_FOUND. -/
def homeLie : HomeLie → Option Lie
  | .normal => some .normal
  | .reverse => some .reverse
  | .asFound => none

theorem pointHome_eq {s : State} {p : Fin 64} {d : PointDef} (h : tget s.tables.points p = some d) :
    s.pointHome p = (match homeLie d.home with
      | some l => s.moveRequest p l
      | none => s.updPoint p fun x => { x with lie := none, asFound := d.feedback != Feedback.none }).mark (.point p) := by
  unfold State.pointHome
  rw [show s.pointDef p = some d from h]
  dsimp only
  cases d.home <;> rfl

/-- The home move that a point asks of group `g` (R81). -/
def State.homeMove (s : State) (g : Fin 8) (p : Fin 64) : List (Fin 64 × Lie) :=
  match tget s.tables.points p with
  | some d =>
    if d.group ≠ g then []
    else
      match d.home with
      | .normal => if (tget s.points p).lie = some .normal then [] else [(p, .normal)]
      | .reverse => if (tget s.points p).lie = some .reverse then [] else [(p, .reverse)]
      | .asFound => []
  | none => []

theorem homeMoves_eq (s : State) (g : Fin 8) : s.homeMoves g = (indices 64).flatMap (s.homeMove g) := rfl

theorem homeMove_eq {s : State} {p : Fin 64} {d : PointDef} (h : tget s.tables.points p = some d) (g : Fin 8) :
    s.homeMove g p = match homeLie d.home with
      | some l => if d.group = g ∧ (tget s.points p).lie ≠ some l then [(p, l)] else []
      | none => [] := by
  unfold State.homeMove
  rw [h]
  cases hd : d.home <;> by_cases hg : d.group = g <;> simp [hd, hg, homeLie]

theorem homeMove_undefined {s : State} {p : Fin 64} (h : tget s.tables.points p = none) (g : Fin 8) : s.homeMove g p = [] := by
  unfold State.homeMove
  rw [h]

theorem homeMove_point {s : State} {g : Fin 8} {p : Fin 64} {e : Fin 64 × Lie} (h : e ∈ s.homeMove g p) : e.1 = p := by
  unfold State.homeMove at h
  grind

/-- A group that has been asked for these moves, in order, since it was idle. -/
def State.homeGroup (s : State) (g : Fin 8) : List (Fin 64 × Lie) → GroupRec
  | [] => GroupRec.initial
  | (p, l) :: rest => s.groupStarts g GroupRec.initial p l rest

/-- A point's move asked for while its group has none of it: it joins the queue, unless the point lies there. -/
theorem moveRequest_new {s : State} {p : Fin 64} {d : PointDef} (hd : tget s.tables.points p = some d)
    (hm : s.movingTarget p = none) (hq : s.queuedTarget p = none) (l : Lie) :
    s.moveRequest p l =
      (if (tget s.points p).lie = some l then s
        else (s.updGroup d.group fun x => { x with queue := x.queue ++ [(p, l)] }).mark (.point p)).startMove d.group := by
  unfold State.moveRequest
  rw [show s.pointDef p = some d from hd, hm, hq]
  by_cases h : (tget s.points p).lie = some l
  · simp [h]
  · have hb : ((tget s.points p).lie == some l) = false := by simpa using h
    simp only [hb, if_neg h]

/-- Where the points `l` have asked for their home moves, from `s`. -/
structure HomeAsked (s u : State) (l : List (Fin 64)) : Prop where
  stands : HomeStands s u
  deck : u.deck = s.deck
  groups : ∀ g, tget u.groups g = s.homeGroup g (l.flatMap (s.homeMove g))
  asked : ∀ p ∈ l, ∀ d, tget s.tables.points p = some d → .point p ∈ u.link.reports ∧
    (d.home = .asFound → (tget u.points p).lie = none ∧ (tget u.points p).asFound = (d.feedback != .none)) ∧
    (d.home ≠ .asFound → (tget u.points p).asFound = false ∧ (tget u.points p).lie =
      if (tget u.groups d.group).phase = .pulse ∧ ((tget u.groups d.group).current.map (·.point)) = some p then none
      else (tget s.points p).lie)
  others : ∀ p ∉ l, tget u.points p = tget s.points p

theorem groupStarts_setQueue (s : State) (g : Fin 8) (x : GroupRec) (k : List (Fin 64 × Lie)) (p : Fin 64) (l : Lie)
    (rest : List (Fin 64 × Lie)) : s.groupStarts g { x with queue := k } p l rest = s.groupStarts g x p l rest := by
  unfold State.groupStarts
  split <;> rfl

theorem groupStarts_joins (s : State) (g : Fin 8) (x : GroupRec) (p : Fin 64) (l : Lie) (rest k : List (Fin 64 × Lie)) :
    { s.groupStarts g x p l rest with queue := k } = s.groupStarts g x p l k := by
  by_cases h : (tget s.tables.groups g).setup = 0
  · simp only [State.groupStarts, if_pos h]
  · simp only [State.groupStarts, if_neg h]

theorem groupStarts_current (s : State) (g : Fin 8) (x : GroupRec) (p : Fin 64) (l : Lie) (rest : List (Fin 64 × Lie)) :
    (s.groupStarts g x p l rest).current.map (·.point) = some p := by
  unfold State.groupStarts
  dsimp only
  split <;> rfl

theorem groupStarts_queue (s : State) (g : Fin 8) (x : GroupRec) (p : Fin 64) (l : Lie) (rest : List (Fin 64 × Lie)) :
    (s.groupStarts g x p l rest).queue = rest := by
  unfold State.groupStarts
  dsimp only
  split <;> rfl

theorem groupStarts_phase (s : State) (g : Fin 8) (x : GroupRec) (p : Fin 64) (l : Lie) (rest : List (Fin 64 × Lie)) :
    (s.groupStarts g x p l rest).phase = if (tget s.tables.groups g).setup = 0 then .pulse else .setup := by
  unfold State.groupStarts
  dsimp only
  split <;> rfl

/-- The point that a group asked for home moves has in PULSE: the first one, where its SETUP is over at once. -/
theorem homeGroup_pulses (s : State) (g : Fin 8) (k : List (Fin 64 × Lie)) (p : Fin 64) :
    ((s.homeGroup g k).phase = .pulse ∧ (s.homeGroup g k).current.map (·.point) = some p) ↔
      (tget s.tables.groups g).setup = 0 ∧ (k.head?.map (·.1)) = some p := by
  cases k with
  | nil => simp [State.homeGroup, GroupRec.initial]
  | cons e rest =>
    simp only [State.homeGroup, groupStarts_current, groupStarts_phase, List.head?_cons, Option.map_some]
    split <;> simp_all

/-- A group that has been asked for a move begins no other while that one is in hand. -/
theorem homeGroup_busy {s u : State} {g : Fin 8} {k : List (Fin 64 × Lie)} (h : tget u.groups g = s.homeGroup g k) :
    u.startMove g = u := by
  refine startMove_none ?_
  rw [h]
  cases k with
  | nil => exact .inl rfl
  | cons e rest =>
    refine .inr (.inl ?_)
    simp only [State.homeGroup, groupStarts_phase]
    split <;> decide

theorem homeGroup_fresh {s u : State} {p : Fin 64} {d : PointDef} {k : List (Fin 64 × Lie)}
    (hd : tget u.tables.points p = some d) (h : tget u.groups d.group = s.homeGroup d.group k) (hk : ∀ e ∈ k, e.1 ≠ p) :
    u.movingTarget p = none ∧ u.queuedTarget p = none := by
  unfold State.movingTarget State.queuedTarget
  rw [show u.pointDef p = some d from hd]
  dsimp only
  rw [h]
  cases k with
  | nil => exact ⟨rfl, rfl⟩
  | cons e rest =>
    have hc := groupStarts_current s d.group GroupRec.initial e.1 e.2 rest
    refine ⟨?_, ?_⟩
    · simp only [State.homeGroup]
      split
      · rename_i m hm
        rw [hm] at hc
        have hme : m.point = e.1 := by simpa using hc
        have := hk e (by simp)
        simp [hme, this]
      · rfl
    · simp only [State.homeGroup, groupStarts_queue, Option.map_eq_none_iff, List.find?_eq_none]
      intro x hx
      simpa using hk x (by simp [hx])

/-- The moves asked of a group by points other than `q`. -/
theorem asked_ne {s : State} {l : List (Fin 64)} {q : Fin 64} (hq : q ∉ l) (g : Fin 8) :
    ∀ e ∈ l.flatMap (s.homeMove g), e.1 ≠ q := by
  intro e he
  obtain ⟨p, hp, hep⟩ := List.mem_flatMap.1 he
  rw [homeMove_point hep]
  rintro rfl
  exact hq hp

theorem head_ne {k : List (Fin 64 × Lie)} {q : Fin 64} (h : ∀ e ∈ k, e.1 ≠ q) : k.head?.map (·.1) ≠ some q := by
  cases k with
  | nil => simp
  | cons e k => simpa using h e (by simp)

/-- A home move that joins the moves `k` asked of its group before it. -/
structure JoinsHome (s u t : State) (q : Fin 64) (g : Fin 8) (lie : Lie) (k : List (Fin 64 × Lie)) : Prop where
  stands : HomeStands u t
  deck : t.deck = u.deck
  group : tget t.groups g = s.homeGroup g (k ++ [(q, lie)])
  groups : ∀ j, j ≠ g → tget t.groups j = tget u.groups j
  points : ∀ p, p ≠ q → tget t.points p = tget u.points p
  asFound : (tget u.points q).asFound = false → (tget t.points q).asFound = false
  lie : (tget t.points q).lie =
    if k = [] ∧ (tget s.tables.groups g).setup = 0 then none else (tget u.points q).lie

/-- The move joins an idle group's empty queue and is begun at once, or waits behind the group's others. -/
theorem queued_joinsHome {s u : State} {q : Fin 64} {g : Fin 8} {lie : Lie} {k : List (Fin 64 × Lie)}
    (hs : u.unserved) (hm : u.mode = .run) (hc : u.clock = s.clock) (ht : u.tables = s.tables)
    (hg : tget u.groups g = s.homeGroup g k) :
    JoinsHome s u (((u.updGroup g fun x => { x with queue := x.queue ++ [(q, lie)] }).mark (.point q)).startMove g) q g lie k := by
  have hv : HomeStands u ((u.updGroup g fun x => { x with queue := x.queue ++ [(q, lie)] }).mark (.point q)) :=
    (updGroup_homeStands u g _ (by intro _; rfl)).trans (mark_homeStands _ _)
  have hvg : ((u.updGroup g fun x => { x with queue := x.queue ++ [(q, lie)] }).mark (.point q)).groups =
      tset u.groups g { tget u.groups g with queue := (tget u.groups g).queue ++ [(q, lie)] } := rfl
  have hvp : ((u.updGroup g fun x => { x with queue := x.queue ++ [(q, lie)] }).mark (.point q)).points = u.points := rfl
  have hvd : ((u.updGroup g fun x => { x with queue := x.queue ++ [(q, lie)] }).mark (.point q)).deck = u.deck := rfl
  have hvm : ((u.updGroup g fun x => { x with queue := x.queue ++ [(q, lie)] }).mark (.point q)).mode = .run := hm
  have hvc : ((u.updGroup g fun x => { x with queue := x.queue ++ [(q, lie)] }).mark (.point q)).clock = s.clock := hc
  have hvt : ((u.updGroup g fun x => { x with queue := x.queue ++ [(q, lie)] }).mark (.point q)).tables = s.tables := ht
  generalize (u.updGroup g fun x => { x with queue := x.queue ++ [(q, lie)] }).mark (.point q) = v at *
  have hst := startMove_homeStands v g (hv.unserved hs)
  cases k with
  | nil =>
    have hx : tget v.groups g = { GroupRec.initial with queue := [(q, lie)] } := by
      rw [hvg, tget_tset_self, hg]
      rfl
    have hb := startMove_begins (s := v) (g := g) (p := q) (l := lie) (rest := []) (hv.unserved hs).2 (by rw [hx])
      (by rw [hx]; rfl) (by rw [hx]; rfl) hvm
    refine ⟨hv.trans hst, hb.deck.trans hvd, ?_, fun j hj => ?_, fun p hp => ?_, fun hf => ?_, ?_⟩
    · rw [hb.groups, State.moveStarts_groups, tget_tset_self, hx, groupStarts_setQueue, groupStarts_congr hvc hvt]
      rfl
    · rw [hb.groups, State.moveStarts_groups, tget_tset_ne _ hj.symm, hvg, tget_tset_ne _ hj.symm]
    · rw [hb.points, State.moveStarts_points, tget_tset_ne _ hp.symm, hvp]
    · rw [hb.points, State.moveStarts_points, tget_tset_self, State.pointStarts]
    · rw [hb.points, State.moveStarts_points, tget_tset_self, State.pointStarts, hvt, hvp]
      simp
  | cons e rest =>
    have hx : tget v.groups g = s.homeGroup g (e :: rest ++ [(q, lie)]) := by
      rw [hvg, tget_tset_self, hg]
      simp only [State.homeGroup, List.cons_append, groupStarts_queue, groupStarts_joins]
    rw [homeGroup_busy hx]
    refine ⟨hv, hvd, hx, fun j hj => ?_, fun p _ => by rw [hvp], fun hf => by rw [hvp]; exact hf, ?_⟩
    · rw [hvg, tget_tset_ne _ hj.symm]
    · rw [hvp]
      simp

/-- Whether a group has this point's move in PULSE makes no difference by the moves of another point behind it. -/
theorem homeGroup_pulses_append (s : State) (g : Fin 8) {k x : List (Fin 64 × Lie)} {p : Fin 64} (hx : ∀ e ∈ x, e.1 ≠ p) :
    ((s.homeGroup g (k ++ x)).phase = .pulse ∧ (s.homeGroup g (k ++ x)).current.map (·.point) = some p) ↔
      (s.homeGroup g k).phase = .pulse ∧ (s.homeGroup g k).current.map (·.point) = some p := by
  rw [homeGroup_pulses, homeGroup_pulses]
  cases k with
  | nil => simp [head_ne hx]
  | cons e k => rfl

theorem HomeAsked.step {s u t : State} {l : List (Fin 64)} {q : Fin 64} (h : HomeAsked s u l) (hst : HomeStands u t)
    (hdeck : t.deck = u.deck) (hq : q ∉ l)
    (hg : ∀ g, tget t.groups g = s.homeGroup g (l.flatMap (s.homeMove g) ++ s.homeMove g q))
    (hp : ∀ p, p ≠ q → tget t.points p = tget u.points p)
    (hself : ∀ d, tget s.tables.points q = some d → .point q ∈ t.link.reports ∧
      (d.home = .asFound → (tget t.points q).lie = none ∧ (tget t.points q).asFound = (d.feedback != .none)) ∧
      (d.home ≠ .asFound → (tget t.points q).asFound = false ∧ (tget t.points q).lie =
        if (tget t.groups d.group).phase = .pulse ∧ ((tget t.groups d.group).current.map (·.point)) = some q then none
        else (tget s.points q).lie)) : HomeAsked s t (l ++ [q]) where
  stands := h.stands.trans hst
  deck := hdeck.trans h.deck
  groups g := by rw [hg g]; simp
  asked p hpl d hd := by
    by_cases hpq : p = q
    · subst hpq
      exact hself d hd
    · have hpl' : p ∈ l := by simpa [hpq] using hpl
      obtain ⟨h1, h2, h3⟩ := h.asked p hpl' d hd
      rw [hp p hpq]
      refine ⟨hst.follows.marks _ h1, h2, fun hd => ⟨(h3 hd).1, ?_⟩⟩
      rw [(h3 hd).2, hg, h.groups]
      have hne : ∀ e ∈ s.homeMove d.group q, e.1 ≠ p := fun e he => by
        rw [homeMove_point he]
        exact Ne.symm hpq
      simp only [homeGroup_pulses_append s d.group hne]
  others p hpl := by
    have hpl' : p ∉ l ∧ p ≠ q := by simpa using hpl
    rw [hp p hpl'.2, h.others p hpl'.1]

section
variable {s u : State} {l : List (Fin 64)} {q : Fin 64}

theorem HomeAsked.clock (h : HomeAsked s u l) : u.clock = s.clock := (congrArg State.clock h.stands.follows.steady :)

theorem HomeAsked.tables (h : HomeAsked s u l) : u.tables = s.tables := (congrArg State.tables h.stands.follows.steady :)

/-- An undefined point asks for nothing. -/
theorem pointHome_undefined (h : HomeAsked s u l) (hq : q ∉ l) (hd : tget s.tables.points q = none) :
    HomeAsked s (u.pointHome q) (l ++ [q]) := by
  have hx : u.pointHome q = u := by
    unfold State.pointHome
    rw [show u.pointDef q = none by rw [State.pointDef, h.tables]; exact hd]
  rw [hx]
  refine h.step (.refl u) rfl hq (fun g => ?_) (fun _ _ => rfl) (fun d hd' => by rw [hd] at hd'; cases hd')
  rw [homeMove_undefined hd, List.append_nil, h.groups]

/-- An AS_FOUND point loses its lie and asks for no move. -/
theorem pointHome_asFound (h : HomeAsked s u l) (hq : q ∉ l) {d : PointDef} (hd : tget s.tables.points q = some d)
    (hl : homeLie d.home = none) : HomeAsked s (u.pointHome q) (l ++ [q]) := by
  have hhome : d.home = .asFound := by
    cases hh : d.home <;> simp [hh, homeLie] at hl ⊢
  have hmove := homeMove_eq hd
  simp only [hl] at hmove
  rw [pointHome_eq (by rw [h.tables]; exact hd)]
  simp only [hl]
  refine h.step ((updPoint_homeStands u q _ (by intro _; rfl)).trans (mark_homeStands _ _)) rfl hq (fun g => ?_)
    (fun p hp => ?_) (fun d' hd' => ?_)
  · rw [hmove, List.append_nil]
    exact h.groups g
  · exact tget_tupd_ne _ hp.symm _
  · rw [hd] at hd'
    cases hd'
    have hp : tget ((u.updPoint q fun x => { x with lie := none, asFound := d.feedback != Feedback.none }).mark
        (.point q)).points q = { tget u.points q with lie := none, asFound := d.feedback != Feedback.none } :=
      tget_tupd_self _ _ _
    exact ⟨mem_mark_self _ _, fun _ => by rw [hp]; exact ⟨rfl, rfl⟩, fun hh => absurd hhome hh⟩

/-- A point that lies at home is marked, and asks for no move. -/
theorem pointHome_there (h : HomeAsked s u l) (hq : q ∉ l) {d : PointDef} {lie : Lie} (hd : tget s.tables.points q = some d)
    (hl : homeLie d.home = some lie) (hlie : (tget s.points q).lie = some lie) (hfound : (tget s.points q).asFound = false) :
    HomeAsked s (u.mark (.point q)) (l ++ [q]) := by
  have hhome : d.home ≠ .asFound := fun hh => by simp [hh, homeLie] at hl
  have hmv (g : Fin 8) : s.homeMove g q = [] := by
    rw [homeMove_eq hd, hl]
    exact if_neg (by simp [hlie])
  refine h.step (mark_homeStands u _) rfl hq (fun g => ?_) (fun _ _ => rfl) (fun d' hd' => ?_)
  · rw [hmv, List.append_nil]
    exact h.groups g
  · rw [hd] at hd'
    cases hd'
    refine ⟨mem_mark_self _ _, fun hh => absurd hh hhome, fun _ => ?_⟩
    have hno : ¬ ((s.homeGroup d.group (l.flatMap (s.homeMove d.group))).phase = .pulse ∧
        (s.homeGroup d.group (l.flatMap (s.homeMove d.group))).current.map (·.point) = some q) := by
      rw [homeGroup_pulses]
      exact fun hx => head_ne (asked_ne hq d.group) hx.2
    rw [State.mark_points, State.mark_groups, h.others q hq, h.groups d.group, if_neg hno]
    exact ⟨hfound, rfl⟩

/-- A point that does not lie at home joins its group's queue, and an idle group begins the move. -/
theorem pointHome_moves (h : HomeAsked s u l) (hs : s.unserved) (hm : s.mode = .run) (hq : q ∉ l) {d : PointDef} {lie : Lie}
    (hd : tget s.tables.points q = some d) (hl : homeLie d.home = some lie) (hlie : (tget s.points q).lie ≠ some lie)
    (hfound : (tget s.points q).asFound = false) :
    HomeAsked s ((((u.updGroup d.group fun x => { x with queue := x.queue ++ [(q, lie)] }).mark (.point q)).startMove
      d.group).mark (.point q)) (l ++ [q]) := by
  have hum : u.mode = .run := (congrArg State.mode h.stands.follows.steady :).trans hm
  have hhome : d.home ≠ .asFound := fun hh => by simp [hh, homeLie] at hl
  have hpoint : tget u.points q = tget s.points q := h.others q hq
  have hmove := homeMove_eq hd
  simp only [hl] at hmove
  have hmv : s.homeMove d.group q = [(q, lie)] := by rw [hmove, if_pos ⟨rfl, hlie⟩]
  have hj := queued_joinsHome (q := q) (lie := lie) (h.stands.unserved hs) hum h.clock h.tables (h.groups d.group)
  generalize ((u.updGroup d.group fun x => { x with queue := x.queue ++ [(q, lie)] }).mark (.point q)).startMove d.group = t
    at hj ⊢
  refine h.step (hj.stands.trans (mark_homeStands t _)) hj.deck hq (fun g => ?_) hj.points (fun d' hd' => ?_)
  · by_cases hg : g = d.group
    · subst hg
      rw [hmv]
      exact hj.group
    · rw [hmove, if_neg (fun hx => hg hx.1.symm), List.append_nil]
      exact (hj.groups g hg).trans (h.groups g)
  · rw [hd] at hd'
    cases hd'
    refine ⟨mem_mark_self _ _, fun hh => absurd hh hhome, fun _ => ⟨hj.asFound (by rw [hpoint]; exact hfound), ?_⟩⟩
    rw [State.mark_points, State.mark_groups, hj.lie, hj.group, hpoint]
    refine if_congr ?_ rfl rfl
    rw [homeGroup_pulses]
    have hne := head_ne (asked_ne (s := s) hq d.group)
    cases hk : l.flatMap (s.homeMove d.group) with
    | nil => simp
    | cons e k =>
      rw [hk] at hne
      simpa using fun _ hx => hne (by simpa using hx)

/-- The next point of the tables asks for its home move. -/
theorem pointHome_asked (h : HomeAsked s u l) (hs : s.unserved) (hm : s.mode = .run) (hfound : (tget s.points q).asFound = false)
    (hq : q ∉ l) : HomeAsked s (u.pointHome q) (l ++ [q]) := by
  cases hd : tget s.tables.points q with
  | none => exact pointHome_undefined h hq hd
  | some d =>
    cases hl : homeLie d.home with
    | none => exact pointHome_asFound h hq hd hl
    | some lie =>
      have hud : tget u.tables.points q = some d := by rw [h.tables]; exact hd
      obtain ⟨hmt, hqt⟩ := homeGroup_fresh hud (h.groups d.group) (asked_ne hq d.group)
      rw [pointHome_eq hud]
      simp only [hl]
      rw [moveRequest_new hud hmt hqt, h.others q hq]
      by_cases hlie : (tget s.points q).lie = some lie
      · rw [if_pos hlie, homeGroup_busy (h.groups d.group)]
        exact pointHome_there h hq hd hl hlie hfound
      · rw [if_neg hlie]
        exact pointHome_moves h hs hm hq hd hl hlie hfound

end

theorem pointsRun_asked (s : State) (hs : s.unserved) (hm : s.mode = .run) (hg : ∀ g, tget s.groups g = GroupRec.initial)
    (hfound : ∀ p, (tget s.points p).asFound = false) : HomeAsked s s.pointsRun (indices 64) := by
  have fold : ∀ (k l : List (Fin 64)) (u : State), HomeAsked s u l → (l ++ k).Nodup →
      HomeAsked s (k.foldl State.pointHome u) (l ++ k) := by
    intro k
    induction k with
    | nil =>
      intro l u hu _
      simpa using hu
    | cons q k ih =>
      intro l u hu hnd
      have hq : q ∉ l := fun hl => (List.nodup_append.1 hnd).2.2 q hl q (by simp) rfl
      have := ih (l ++ [q]) (u.pointHome q) (pointHome_asked hu hs hm (hfound q) hq) (by simpa using hnd)
      simpa using this
  exact fold (indices 64) [] s ⟨.refl s, rfl, fun g => hg g, by simp, by simp⟩ (indices_nodup 64)

end Sys2Proof.Machine
end

section
/-! SUPPORT. START_RUN taken (O20): the deck's homing and the end of the entry while no route holds elements and no show runs. -/

namespace Sys2Proof.Machine

/-! ## What moves no point and no route -/

/-- `t` has the routes, signals, queue, shows, notes, cues, groups and points of `s`. -/
structure Unmoved (s t : State) : Prop where
  routes : t.routes = s.routes
  signals : t.signals = s.signals
  queue : t.queue = s.queue
  shows : t.shows = s.shows
  work : t.work = s.work
  cues : t.cues = s.cues
  groups : t.groups = s.groups
  points : t.points = s.points

theorem Unmoved.refl (s : State) : Unmoved s s := ⟨rfl, rfl, rfl, rfl, rfl, rfl, rfl, rfl⟩

theorem Unmoved.trans {s t u : State} (h : Unmoved s t) (k : Unmoved t u) : Unmoved s u :=
  ⟨k.routes.trans h.routes, k.signals.trans h.signals, k.queue.trans h.queue, k.shows.trans h.shows, k.work.trans h.work,
    k.cues.trans h.cues, k.groups.trans h.groups, k.points.trans h.points⟩

theorem Unmoved.unserved {s t : State} (h : Unmoved s t) (hs : s.unserved) : t.unserved := by
  obtain ⟨h1, h2⟩ := hs
  refine ⟨by rw [h.routes]; exact h1, ?_⟩
  unfold State.runningShow at h2 ⊢
  rw [h.shows]
  exact h2

theorem setFeedState_unmoved (s : State) (b : Fin 48) (x : FeedState) : Unmoved s (s.setFeedState b x) := by
  unfold State.setFeedState
  split
  · exact .refl s
  · exact ⟨rfl, rfl, rfl, rfl, rfl, rfl, rfl, rfl⟩

theorem feedFollow_unmoved (s : State) (b : Fin 48) : Unmoved s (s.feedFollow b) := by
  unfold State.feedFollow
  split
  · split
    · exact .refl s
    · exact setFeedState_unmoved s b _
  · split
    · exact setFeedState_unmoved s b _
    · exact .refl s
  · exact .refl s

theorem giveRestart_unmoved (s : State) (b : Fin 48) : Unmoved s (s.giveRestart b) ∧ (s.giveRestart b).deck = s.deck := by
  unfold State.giveRestart
  split
  · exact ⟨.refl s, rfl⟩
  · split
    · dsimp only
      split
      · exact ⟨setFeedState_unmoved s b _, by simp⟩
      · exact ⟨⟨rfl, rfl, rfl, rfl, rfl, rfl, rfl, rfl⟩, rfl⟩
    · exact ⟨.refl s, rfl⟩

theorem giveRestarts_unmoved (s : State) : Unmoved s s.giveRestarts ∧ s.giveRestarts.deck = s.deck := by
  unfold State.giveRestarts
  generalize indices 48 = l
  induction l generalizing s with
  | nil => exact ⟨.refl s, rfl⟩
  | cons b l ih =>
    obtain ⟨h, hd⟩ := giveRestart_unmoved s b
    obtain ⟨k, kd⟩ := ih (s.giveRestart b)
    exact ⟨h.trans k, kd.trans hd⟩

/-! ## The deck's homing (R158, R163) -/

theorem routesTakeDeck_free (s : State) (h : ∀ r, (tget s.routes r).holds = false) : s.routesTakeDeck = s := by
  unfold State.routesTakeDeck
  induction indices 64 with
  | nil => rfl
  | cons r l ih => rw [List.foldl_cons, h r, Bool.false_and, if_neg (by decide), ih]

theorem deckChanged_unmoved (s : State) (hs : s.unserved) : Unmoved s s.deckChanged := by
  unfold State.deckChanged
  extract_lets s1 s2
  have h1 : Unmoved s s1 := ⟨rfl, rfl, rfl, rfl, rfl, rfl, rfl, rfl⟩
  have h2 : Unmoved s s2 := by
    simp only [s2]
    split
    · exact h1.trans (feedFollow_unmoved s1 _)
    · exact h1
  rw [routesTakeDeck_free s2 (h2.unserved hs).1, noteDeck_noShow s2 (h2.unserved hs).2]
  exact h2

theorem mem_deckChanged (s : State) (hs : s.unserved) : .turntable ∈ s.deckChanged.link.reports := by
  unfold State.deckChanged
  extract_lets s1 s2
  have h1 : .turntable ∈ s1.link.reports := (settlePanel_follows _).marks _ (mem_mark_self s _)
  have h2 : .turntable ∈ s2.link.reports := by
    simp only [s2]
    split
    · exact (feedFollow_follows s1 _).marks _ h1
    · exact h1
  have h3 : Unmoved s s2 := by
    have h1 : Unmoved s s1 := ⟨rfl, rfl, rfl, rfl, rfl, rfl, rfl, rfl⟩
    simp only [s2]
    split
    · exact h1.trans (feedFollow_unmoved s1 _)
    · exact h1
  rw [routesTakeDeck_free s2 (h3.unserved hs).1, noteDeck_noShow s2 (h3.unserved hs).2]
  exact h2

/-- The deck at rest in CONFIG. -/
structure DeckRests (d : Deck) : Prop where
  state : d.state = .unhomed
  pos : d.pos = none
  align : d.align = none
  locked : d.locked = false
  bolt : d.bolt = .off
  relay : d.relay = .bothOpen

/-- The deck in another state. -/
def Deck.put (d : Deck) (x : DeckState) : Deck := { d with state := x }

/-- The deck in another state, its bolt driving out. -/
def Deck.bolting (d : Deck) (x : DeckState) : Deck := { d with state := x, bolt := .driveOut }

/-- A deck at rest has nothing but its state and its bolt drive to change as its homing begins. -/
theorem DeckRests.begins {d : Deck} (h : DeckRests d) (x : DeckState) :
    ({ d with state := x, align := none, locked := false, bolt := .driveOut, pos := none } : Deck) = d.bolting x := by
  obtain ⟨-, hp, ha, hl, -, -⟩ := h
  cases d
  cases hp; cases ha; cases hl
  rfl

/-- The bolt drive OFF again, the deck has the drives that it had at rest. -/
theorem DeckRests.drivesOff {d : Deck} (h : DeckRests d) (x : DeckState) :
    ({ d.bolting x with bolt := .off, relay := .bothOpen } : Deck) = d.put x := by
  obtain ⟨-, -, -, -, hb, hr⟩ := h
  cases d
  cases hb; cases hr
  rfl

/-- The deck of a homing that has begun at rest: its bolt driving out, or, with the bolt-out contact closed, in its deadtime or in
its search (R158). -/
def State.homingDeck (s : State) (t : TurntableDef) : Deck :=
  if s.deck.boltOut = false then s.deck.bolting (.homing false 0 (.bolt (s.after t.bolt)))
  else if s.deck.lastDir = some .reverse then s.deck.put (.homing false 0 (.deadtime (s.after t.deadtime)))
  else { s.deck with stepDir := .forward, state := .homing false 0 (.search (s.afterUs (interval t.vMin))) }

/-- The deck as its homing begins. -/
def State.homingBegun (s : State) (t : TurntableDef) : State :=
  s.updDeck fun d =>
    { d with
      state := .homing false 0 (.bolt (s.after t.bolt)), align := none, locked := false, bolt := .driveOut, pos := none }

theorem startHoming_eq {s : State} (h : DeckRests s.deck) (t : TurntableDef) :
    s.startHoming t =
      if (s.homingBegun t).deckChanged.deck.boltOut then (s.homingBegun t).deckChanged.homingBoltOut t false 0
      else (s.homingBegun t).deckChanged := by
  unfold State.startHoming
  extract_lets known s1 s2
  have hk : known = false := by simp only [known, h.state]
  have h1 : s1 = s.homingBegun t := by simp only [s1, hk, State.homingBegun, Bool.false_eq_true, if_false]
  simp only [s2, h1, hk]

theorem homingBegun_unmoved (s : State) (t : TurntableDef) : Unmoved s (s.homingBegun t) := by
  unfold State.homingBegun
  exact ⟨rfl, rfl, rfl, rfl, rfl, rfl, rfl, rfl⟩

/-- What the deck's homing leaves of `s`, with the deck that it makes. -/
structure HomingStands (s t : State) (d : Deck) : Prop where
  follows : Follows s t
  serves : Serves s t
  unmoved : Unmoved s t
  deck : t.deck = d

/-- The part of the deck that no event of its drive touches. -/
def Deck.still (d : Deck) : Deck :=
  { d with state := .idle, align := none, locked := false, stepDir := .forward, bolt := .off, relay := .bothOpen }

theorem updDeck_still {s : State} {f : Deck → Deck} (h : (f s.deck).still = s.deck.still) : Follows s (s.updDeck f) :=
  Follows.of_steady (congrArg (fun d : Deck => ({ s.steady with deck := d } : State)) h) rfl rfl rfl

theorem HomingStands.updDeck {s t : State} {d : Deck} (h : HomingStands s t d) (f : Deck → Deck)
    (hf : (f d).still = d.still) (hj : d.joined = none) (hk : (f d).joined = none) : HomingStands s (t.updDeck f) (f d) := by
  obtain ⟨hfol, hser, hun, rfl⟩ := h
  exact ⟨hfol.trans (updDeck_still hf), hser.trans (updDeck_unjoined_serves t f hj hk),
    hun.trans ⟨rfl, rfl, rfl, rfl, rfl, rfl, rfl, rfl⟩, rfl⟩

theorem homingBegun_stands {s : State} (hs : s.unserved) (h : DeckRests s.deck) (t : TurntableDef) :
    HomingStands s (s.homingBegun t).deckChanged
      (s.deck.bolting (.homing false 0 (.bolt (s.after t.bolt)))) := by
  have hu := homingBegun_unmoved s t
  have hd : (s.homingBegun t).deck = s.deck.bolting (.homing false 0 (.bolt (s.after t.bolt))) :=
    h.begins _
  have hf : Follows s (s.homingBegun t) := updDeck_still (by simp only [Deck.still, h.pos])
  exact ⟨hf.trans (deckChanged_follows _), updDeck_deckChanged_serves s _, hu.trans (deckChanged_unmoved _ (hu.unserved hs)),
    (deckChanged_deck _).trans hd⟩

/-- The bolt part of a homing that began at rest ends at once. -/
theorem homingBoltOut_stands {s u : State} {t : TurntableDef} (h : DeckRests s.deck) (hout : s.deck.boltOut = true)
    (hb : HomingStands s u (s.deck.bolting (.homing false 0 (.bolt (s.after t.bolt))))) :
    HomingStands s (u.homingBoltOut t false 0) (s.homingDeck t) := by
  have hoff := hb.updDeck (fun d => { d with bolt := .off, relay := .bothOpen }) rfl (joined_none (by simp [Deck.bolting]))
    (joined_none (by simp [Deck.bolting]))
  rw [h.drivesOff] at hoff
  have hj : (s.deck.put (.homing false 0 (.bolt (s.after t.bolt)))).joined = none := rfl
  have hlast : (s.deck.put (.homing false 0 (.bolt (s.after t.bolt)))).lastDir = s.deck.lastDir := rfl
  unfold State.homingBoltOut State.issueHoming
  generalize u.updDeck (fun d => { d with bolt := .off, relay := .bothOpen }) = v at hoff ⊢
  have hc : v.clock = s.clock := (congrArg State.clock hoff.follows.steady :)
  have ha : v.after t.deadtime = s.after t.deadtime := by rw [State.after, State.after, hc]
  have hi : v.afterUs (interval t.vMin) = s.afterUs (interval t.vMin) := by rw [State.afterUs, State.afterUs, hc]
  dsimp only
  rw [hoff.deck, hlast, State.homingDeck, if_neg (c := s.deck.boltOut = false) (by rw [hout]; decide), ha, hi]
  split
  · exact hoff.updDeck (fun d => { d with state := .homing false 0 (.deadtime (s.after t.deadtime)) }) rfl hj rfl
  · exact hoff.updDeck
      (fun d => { d with stepDir := .forward, state := .homing false 0 (.search (s.afterUs (interval t.vMin))) }) rfl hj rfl

theorem homingBoltOut_reports (s : State) (t : TurntableDef) (known : Bool) (n : Nat) :
    (s.homingBoltOut t known n).link.reports = s.link.reports := by
  unfold State.homingBoltOut State.issueHoming
  dsimp only
  split <;> rfl

theorem startHoming_stands {s : State} (hs : s.unserved) (h : DeckRests s.deck) (t : TurntableDef) :
    HomingStands s (s.startHoming t) (s.homingDeck t) ∧ .turntable ∈ (s.startHoming t).link.reports := by
  have hb := homingBegun_stands hs h t
  have hm := mem_deckChanged (s.homingBegun t) ((homingBegun_unmoved s t).unserved hs)
  rw [startHoming_eq h]
  generalize (s.homingBegun t).deckChanged = u at hb hm ⊢
  have hout : u.deck.boltOut = s.deck.boltOut := (congrArg Deck.boltOut hb.deck :)
  rw [hout]
  cases hx : s.deck.boltOut with
  | false =>
    rw [if_neg (by decide), State.homingDeck, if_pos hx]
    exact ⟨hb, hm⟩
  | true =>
    rw [if_pos rfl]
    exact ⟨homingBoltOut_stands h hx hb, by rw [homingBoltOut_reports]; exact hm⟩

end Sys2Proof.Machine
end

section
/-! SUPPORT. START_RUN taken (O20): what the entry begins with, and its end. -/

namespace Sys2Proof.Machine

/-! ## The end of the entry -/

/-- With no route waiting and every signal DARK as its case has it, the end of the entry settles no signal and takes no route. -/
theorem settle_dark {s : State} (hq : s.queue = []) (hw : s.work.wake = none) (hc : ∀ g, s.aspectCase g = .fixed .dark)
    (hs : ∀ g, tget s.signals g = SignalRec.initial) :
    s.callExamine.settle = (s.callExamine.updWork fun w => { w with examine := false }).settlePanel := by
  have h1 : s.callExamine.settleSignals = s.callExamine := settleSignals_dark (fun g => hc g) hs
  have h2 : (s.callExamine.updWork fun w => { w with examine := false }).settleSignals =
      s.callExamine.updWork fun w => { w with examine := false } := settleSignals_dark (fun g => hc g) hs
  have hx : s.callExamine.work.examine = true := rfl
  have hy : (s.callExamine.updWork fun w => { w with examine := false }).work.examine = false := rfl
  have hz : (s.callExamine.updWork fun w => { w with examine := false }).work.wake = none := hw
  unfold State.settle
  congr 1
  rw [show Config.rounds = 510 + 1 + 1 from rfl, State.comeToRest, h1, if_pos hx, examineQueue_empty s.callExamine hq,
    State.comeToRest, h2, if_neg (by rw [hy]; decide), if_neg (by rw [hz]; decide)]

/-- What the end of such an entry leaves of `s`. -/
structure EntryEnds (s t : State) : Prop where
  signals : t.signals = s.signals
  queue : t.queue = s.queue
  cues : t.cues = s.cues
  groups : t.groups = s.groups
  points : t.points = s.points
  deck : t.deck = s.deck

theorem EntryEnds.trans {s t u : State} (h : EntryEnds s t) (k : EntryEnds t u) : EntryEnds s u :=
  ⟨k.signals.trans h.signals, k.queue.trans h.queue, k.cues.trans h.cues, k.groups.trans h.groups, k.points.trans h.points,
    k.deck.trans h.deck⟩

theorem updWork_entryEnds (s : State) (f : Work → Work) : EntryEnds s (s.updWork f) := ⟨rfl, rfl, rfl, rfl, rfl, rfl⟩

theorem settlePanel_entryEnds (s : State) : EntryEnds s s.settlePanel := ⟨rfl, rfl, rfl, rfl, rfl, rfl⟩

theorem EntryEnds.restart {s t : State} (h : EntryEnds s t) : EntryEnds s (t.putEntering false).giveRestarts := by
  obtain ⟨k, kd⟩ := giveRestarts_unmoved (t.putEntering false)
  exact ⟨k.signals.trans h.signals, k.queue.trans h.queue, k.cues.trans h.cues, k.groups.trans h.groups,
    k.points.trans h.points, kd.trans h.deck⟩

theorem endEntry_dark {s : State} (hq : s.queue = []) (hw : s.work.wake = none) (hc : ∀ g, s.aspectCase g = .fixed .dark)
    (hs : ∀ g, tget s.signals g = SignalRec.initial) : EntryEnds s s.endEntry := by
  unfold State.endEntry
  refine EntryEnds.restart ?_
  rw [settle_dark hq hw hc hs]
  exact ((updWork_entryEnds s _).trans (updWork_entryEnds _ _)).trans (settlePanel_entryEnds _)

/-! ## What the entry begins with -/

/-- What an entry into RUN from the rest in CONFIG has begun with. -/
structure Begins (u v : State) : Prop where
  mode : v.mode = .run
  clock : v.clock = u.clock
  tables : v.tables = u.tables
  params : v.params = u.params
  routes : v.routes = tfill 64 (.free .none)
  shows : v.shows = tfill 8 ShowRec.initial
  queue : v.queue = []
  work : v.work.entering = true ∧ v.work.wake = none
  signals : v.signals = tfill 32 SignalRec.initial
  groups : v.groups = tfill 8 GroupRec.initial
  points : v.points = u.points
  feeds : v.feeds = tfill 48 Feed.initial
  deck : v.deck = u.deck
  cues : v.cues = u.cues
  offline : ∀ m, v.online m = false

theorem begun_modules (u : State) (m : Fin 24) : (tget u.begun.modules m).state = (tget u.modules m).state := by
  have h : u.begun.modules = tgen 24 fun m =>
      let r := tget (u.putMode .run).modules m
      if (u.moduleDef m).isSome then { r with probeDue := true, probeTimer := some (u.after Config.probeMs) } else r := by
    simp only [State.begun, State.showsRun, State.signalsRun, markAll_eq]
    rfl
  have hs : (tget (u.putMode .run).modules m).state = (tget u.modules m).state := State.settlePanel_module_state _ m
  rw [h, tget_tgen]
  dsimp only
  split <;> exact hs

/-- The entry's own writes, its marks and panel aside. -/
theorem begun_fields (u : State) :
    u.begun.clock = u.clock ∧ u.begun.params = u.params ∧ u.begun.routes = u.routes ∧ u.begun.shows = u.shows ∧
      u.begun.queue = u.queue ∧ u.begun.work = { u.work with entering := true } ∧
      u.begun.signals = tfill 32 SignalRec.initial ∧ u.begun.groups = u.groups ∧ u.begun.points = u.points ∧
      u.begun.deck = u.deck ∧ u.begun.cues = u.cues := by
  and_intros <;> simp only [State.begun, State.showsRun, State.signalsRun, markAll_eq] <;> rfl

theorem begun_begins {u : State} (h : AtRest u) : Begins u u.begun := by
  obtain ⟨hclock, hparams, hroutes, hshows, hqueue, hwork, hsignals, hgroups, hpoints, hdeck, hcues⟩ := begun_fields u
  refine ⟨begun_mode u, hclock, begun_tables u, hparams, hroutes.trans h.routes, hshows.trans h.shows', hqueue.trans h.queue, ?_,
    hsignals, hgroups.trans h.groups, hpoints, (begun_feeds u).trans h.feeds, hdeck, hcues, fun m => ?_⟩
  · rw [hwork, h.work]
    exact ⟨rfl, rfl⟩
  · rw [State.online, begun_modules, (h.modules m).1]
    rfl

theorem Begins.unserved {u v : State} (h : Begins u v) : v.unserved := by
  refine ⟨fun r => by rw [h.routes, tget_tfill]; rfl, ?_⟩
  rw [State.runningShow, List.findSome?_eq_none_iff]
  intro i _
  rw [h.shows, tget_tfill]
  rfl

/-- With no module ONLINE every signal is DARK (R112). -/
theorem aspectCase_offline {s : State} (h : ∀ m, s.online m = false) (g : Fin 32) : s.aspectCase g = .fixed .dark := by
  unfold State.aspectCase
  split
  · rfl
  · rw [if_pos (.inr (h _))]

/-! ## The marks -/

theorem markAll_reports (s : State) (l : List Subject) (y : Subject) :
    y ∈ (s.markAll l).link.reports ↔ y ∈ s.link.reports ∨ y ∈ l := by
  rw [markAll_eq]
  exact mem_foldl_joinTail _ _ _

theorem mem_showsRun (s : State) (y : Subject) : y ∈ s.showsRun.link.reports ↔
    y ∈ s.link.reports ∨ ∃ i, tget s.tables.shows i ≠ [] ∧ .showing i = y := by
  rw [State.showsRun, markAll_reports, List.mem_map]
  simp [State.showDefined, State.showSteps]

theorem mem_signalsRun (s : State) (y : Subject) : y ∈ s.signalsRun.link.reports ↔
    y ∈ s.link.reports ∨ ∃ g, (tget s.tables.signals g).isSome = true ∧ .signal g = y := by
  rw [State.signalsRun, markAll_reports, List.mem_map]
  simp [State.signalDef]

theorem gatesInitial_panelRun_link (s : State) : s.gatesInitial.panelRun.link = s.link := rfl

theorem detectionRun_registerRun_link (s : State) : s.detectionRun.registerRun.link = s.link := rfl

theorem mem_begun (u : State) (y : Subject) : y ∈ u.begun.link.reports ↔
    (y ∈ (u.putMode .run).link.reports ∨ ∃ g, (tget u.tables.signals g).isSome = true ∧ .signal g = y) ∨
      ∃ i, tget u.tables.shows i ≠ [] ∧ .showing i = y := by
  have ht : ((u.putMode .run).putEntering true).detectionRun.registerRun.signalsRun.gatesInitial.panelRun.tables = u.tables := by
    simp only [State.signalsRun, markAll_eq]
    rfl
  rw [State.begun, mem_showsRun, gatesInitial_panelRun_link, mem_signalsRun, detectionRun_registerRun_link, ht]
  rfl

/-! ## The steady part -/

/-- What an entry into RUN writes of the steady part (R20). -/
def State.inService (u : State) : State :=
  { u with
    mode := .run
    channels := tgen 48 fun b =>
      { Channel.initial with timer := if (u.blockDef b).isSome then some (u.after Config.staleMs) else none }
    contacts := tgen 64 fun p =>
      { Contact.initial with timer := if (u.pointDef p).isSome then some (u.after Config.staleMs) else none }
    bus := { u.bus with calls := [(.resetOutputs, 0)] }
    modules := tgen 24 fun m =>
      if (u.moduleDef m).isSome then
        { tget u.modules m with probeDue := true, probeTimer := some (u.after Config.probeMs) }
      else tget u.modules m }

/-- The bus but for the lists of modules waiting. -/
def Bus.listless (b : Bus) : Bus := { b with safety := [], prove := [], keys := [], mimic := [], text := [] }

theorem addCall_listless (b : Bus) (c : GeneralCall) (h : b.calls = []) :
    (b.addCall c).listless = ({ b with calls := [(c, 0)] } : Bus).listless := by
  rw [Bus.addCall, h]
  rfl

/-- A module's record but for its image parts. -/
def ModuleRec.partless (r : ModuleRec) : ModuleRec := { r with parts := [] }

theorem module_putMode (u : State) (m : Mode) (i : Fin 24) :
    (tget (u.putMode m).modules i).partless = (tget u.modules i).partless := by
  unfold State.putMode
  rw [State.settlePanel_module]
  rfl

/-- A module's record with a probe due. -/
def ModuleRec.probed (r : ModuleRec) (at' : Nat) : ModuleRec := { r with probeDue := true, probeTimer := some at' }

theorem partless_probed {r x : ModuleRec} (h : r.partless = x.partless) (n : Nat) : (r.probed n).partless = (x.probed n).partless :=
  (congrArg (fun r : ModuleRec => r.probed n) h :)

theorem partless_ite {c : Prop} [Decidable c] {a b x y : ModuleRec} (h : a.partless = x.partless) (k : b.partless = y.partless) :
    (if c then a else b).partless = (if c then x else y).partless := by
  split
  · exact h
  · exact k

theorem begun_standing {u : State} (h : AtRest u) : u.begun.standing = u.inService.standing := by
  have hb : ((u.putMode .run).bus.addCall .resetOutputs).listless = ({ u.bus with calls := [(.resetOutputs, 0)] } : Bus).listless :=
    addCall_listless _ _ h.calls
  have hm := module_putMode u .run
  unfold State.standing State.steady
  simp only [State.begun, State.showsRun, State.signalsRun, markAll_eq, State.updLink, State.gatesInitial, State.panelRun,
    State.registerRun, State.detectionRun, State.putEntering, State.updWork, State.updBus, State.inService]
  congr 1
  case e_blockFlags => exact h.blockFlags.symm
  case e_signals => exact congrArg _ h.signals.symm
  case e_filters => exact h.filters.symm
  case e_traps => exact h.traps.symm
  case e_modules =>
    refine tab_ext fun i => ?_
    rw [tget_map, tget_map, tget_tgen, tget_tgen]
    exact partless_ite (c := (u.moduleDef i).isSome = true) (partless_probed (hm i) _) (hm i)

end Sys2Proof.Machine
end

section
/-! SUPPORT. START_RUN taken (O20): the entry into RUN from the rest in CONFIG, stage by stage. -/

namespace Sys2Proof.Machine

theorem AtRest.deckRests {u : State} (h : AtRest u) : DeckRests u.deck :=
  ⟨h.deckState, h.deckPos, h.deckAlign, h.deckLocked, h.bolt, h.relay⟩

/-- The deck after an entry into RUN (R163). -/
def State.enteredDeck (u : State) : Deck :=
  match u.tables.turntable with
  | some t => if t.homeAtStart then u.homingDeck t else u.deck
  | none => u.deck

/-- An entry into RUN homes the deck where home-at-start is on, and otherwise leaves all as it is. -/
theorem deckRun_stands {s : State} (hs : s.unserved) (h : DeckRests s.deck) :
    HomingStands s s.deckRun s.enteredDeck ∧
      ∀ t, s.tables.turntable = some t → t.homeAtStart = true → .turntable ∈ s.deckRun.link.reports := by
  have stay : HomingStands s s s.deck := ⟨.refl s, .refl s, .refl s, rfl⟩
  unfold State.deckRun State.enteredDeck
  cases ht : s.tables.turntable with
  | none => exact ⟨stay, fun t h => by cases h⟩
  | some t =>
    dsimp only
    by_cases hh : t.homeAtStart = true
    · rw [if_pos hh, if_pos hh]
      obtain ⟨h1, h2⟩ := startHoming_stands hs h t
      exact ⟨h1, fun _ _ _ => h2⟩
    · rw [if_neg hh, if_neg hh]
      exact ⟨stay, fun x hx hy => by cases hx; exact absurd hy hh⟩

/-- The stages of an entry into RUN: `v` begins it, `x` has asked for the home moves, in `w` the deck homes, and `t` ends it. -/
structure Entered (u v x w t : State) : Prop where
  begins : Begins u v
  standing : v.standing = u.inService.standing
  marks : ∀ y, y ∈ v.link.reports ↔ (y ∈ (u.putMode .run).link.reports ∨
    ∃ g, (tget u.tables.signals g).isSome = true ∧ .signal g = y) ∨ ∃ i, tget u.tables.shows i ≠ [] ∧ .showing i = y
  asked : HomeAsked v x (indices 64)
  homing : HomingStands x w u.enteredDeck
  turntable : ∀ t, u.tables.turntable = some t → t.homeAtStart = true → .turntable ∈ w.link.reports
  ends : t = w.endEntry

theorem State.enteredDeck_congr {u v : State} (hd : v.deck = u.deck) (ht : v.tables = u.tables) (hc : v.clock = u.clock) :
    v.enteredDeck = u.enteredDeck := by
  simp only [State.enteredDeck, State.homingDeck, State.after, State.afterUs, hd, ht, hc]

theorem enterRun_entered {u : State} (h : AtRest u) : ∃ v x w, Entered u v x w u.enterRun := by
  have hb := begun_begins h
  have hst := begun_standing h
  have hmarks := mem_begun u
  have hx : u.enterRun = u.begun.pointsRun.deckRun.endEntry := rfl
  generalize u.begun = v at hb hst hmarks hx
  have ha := pointsRun_asked v hb.unserved hb.mode (fun g => by rw [hb.groups, tget_tfill])
    (fun p => by rw [hb.points]; exact (h.points p).2.1)
  generalize v.pointsRun = x at ha hx
  have hsteady := ha.stands.follows.steady
  have htables : x.tables = u.tables := (congrArg State.tables hsteady :).trans hb.tables
  have hclock : x.clock = u.clock := (congrArg State.clock hsteady :).trans hb.clock
  have hdeck : x.deck = u.deck := ha.deck.trans hb.deck
  obtain ⟨hd, hturn⟩ := deckRun_stands (ha.stands.unserved hb.unserved) (by rw [hdeck]; exact h.deckRests)
  rw [State.enteredDeck_congr hdeck htables hclock] at hd
  rw [htables] at hturn
  exact ⟨v, x, x.deckRun, hb, hst, hmarks, ha, hd, hturn, hx⟩

section
variable {u v x w t : State}

theorem Entered.steady (e : Entered u v x w t) : w.steady = v.steady :=
  e.homing.follows.steady.trans e.asked.stands.follows.steady

theorem Entered.offline (e : Entered u v x w t) (m : Fin 24) : w.online m = false := by
  have hm (s : State) : tget s.steady.modules m = { tget s.modules m with parts := [] } := tget_map _ _ _
  have hx : tget w.steady.modules m = tget v.steady.modules m := (congrArg (fun s : State => tget s.modules m) e.steady :)
  rw [hm, hm] at hx
  have hs : (tget w.modules m).state = (tget v.modules m).state := (congrArg ModuleRec.state hx :)
  rw [State.online, hs]
  exact e.begins.offline m

theorem Entered.work (e : Entered u v x w t) : w.work.entering = true ∧ w.work.wake = none := by
  rw [e.homing.unmoved.work, e.asked.stands.work]
  exact e.begins.work

theorem Entered.signals (e : Entered u v x w t) : w.signals = tfill 32 SignalRec.initial :=
  e.homing.unmoved.signals.trans (e.asked.stands.signals.trans e.begins.signals)

theorem Entered.entryEnds (e : Entered u v x w t) : EntryEnds w t := by
  rw [e.ends]
  exact endEntry_dark (e.homing.unmoved.queue.trans (e.asked.stands.queue.trans e.begins.queue)) e.work.2
    (aspectCase_offline e.offline) fun g => by rw [e.signals, tget_tfill]

theorem Entered.standing_end (e : Entered u v x w t) : t.standing = u.inService.standing := by
  rw [e.ends, endEntry_standing]
  exact (standing_of_steady e.steady).trans e.standing

theorem Entered.groups (e : Entered u v x w t) (g : Fin 8) : tget t.groups g = tget x.groups g := by
  rw [e.entryEnds.groups, e.homing.unmoved.groups]

theorem Entered.points (e : Entered u v x w t) (p : Fin 64) : tget t.points p = tget x.points p := by
  rw [e.entryEnds.points, e.homing.unmoved.points]

theorem Entered.mem (e : Entered u v x w t) {y : Subject} (h : y ∈ x.link.reports) : y ∈ t.link.reports := by
  rw [e.ends]
  exact endEntry_marks w y (e.homing.follows.marks y h)

theorem Entered.mem_turntable (e : Entered u v x w t) {d : TurntableDef} (hd : u.tables.turntable = some d)
    (hh : d.homeAtStart = true) : .turntable ∈ t.link.reports := by
  rw [e.ends]
  exact endEntry_marks w _ (e.turntable d hd hh)

theorem Entered.mem_of_begun (e : Entered u v x w t) {y : Subject} (h : y ∈ v.link.reports) : y ∈ t.link.reports :=
  e.mem (e.asked.stands.follows.marks y h)

theorem Entered.queue (e : Entered u v x w t) : t.queue = [] ∧ t.cues = u.cues := by
  rw [e.entryEnds.queue, e.entryEnds.cues, e.homing.unmoved.queue, e.homing.unmoved.cues, e.asked.stands.queue, e.asked.stands.cues]
  exact ⟨e.begins.queue, e.begins.cues⟩

theorem Entered.deck (e : Entered u v x w t) : t.deck = u.enteredDeck := e.entryEnds.deck.trans e.homing.deck

/-! ## The feeds -/

theorem Entered.feeds_before (e : Entered u v x w t) (b : Fin 48) : tget w.feeds b = Feed.initial := by
  have hx := feedsStand_of_follows e.asked.stands.follows e.asked.stands.serves
  have hw := feedsStand_of_follows e.homing.follows e.homing.serves
  have hv : tget v.feeds b = Feed.initial := by rw [e.begins.feeds, tget_tfill]
  rw [((hx.trans hw) e.begins.work.1).2 b (by rw [hv]; decide), hv]

/-- The deck demands nothing while it homes or has not been homed (R36). -/
theorem Entered.undemanded (e : Entered u v x w t) (h : AtRest u) : t.deckDemand = false := by
  have hj : u.enteredDeck.joined = none := by
    refine joined_none ?_
    have hu : u.deck.state ≠ .idle := by rw [h.deckState]; decide
    unfold State.enteredDeck State.homingDeck Deck.bolting Deck.put
    split
    · split
      · split
        · simp
        · split <;> simp
      · exact hu
    · exact hu
  rw [State.deckDemand, e.deck, hj]
  rfl

theorem Entered.feeds (e : Entered u v x w t) (h : AtRest u) (b : Fin 48) :
    tget t.feeds b =
      match tget u.tables.blocks b with
      | some d =>
        if d.kind = .plain then
          if d.restartGroup * u.params.restartStagger = 0 then { Feed.initial with state := .on }
          else { Feed.initial with restart := some (u.clock.us + 1000 * (d.restartGroup * u.params.restartStagger)) }
        else Feed.initial
      | none => Feed.initial := by
  have hs := e.standing_end
  have htables : t.tables = u.tables := (congrArg State.tables hs :)
  have hmode : t.mode = .run := (congrArg State.mode hs :)
  have hw := e.steady
  have hr : w.restarted b (t.feedDemand b) = u.restarted b (t.feedDemand b) := funext fun f => restarted_congr
    ((congrArg State.tables hw :).trans e.begins.tables) ((congrArg State.params hw :).trans e.begins.params)
    ((congrArg State.clock hw :).trans e.begins.clock) b _ f
  have hf : tget t.feeds b = u.restarted b (t.feedDemand b) Feed.initial := by
    have := endEntry_feeds w e.work.1 b (by rw [e.feeds_before]; decide)
    rw [← e.ends, e.feeds_before, hr] at this
    exact this
  rw [hf]
  unfold State.restarted State.blockDef
  cases hd : tget u.tables.blocks b with
  | none => rfl
  | some d =>
    have hiso : (tget t.feeds b).isolated = false := by
      rw [hf]
      unfold State.restarted
      grind [Feed.initial]
    have hdemand : t.feedDemand b = decide (d.kind = .plain) := by
      unfold State.feedDemand
      rw [hmode, hiso, State.blockDef, htables, hd]
      cases hk : d.kind with
      | plain => simp [hk]
      | stop g =>
        have hsig : t.stopDemand g = false := by
          rw [State.stopDemand, e.entryEnds.signals, e.signals, tget_tfill]
          rfl
        simp [hk, hsig]
      | deck => simp [hk, e.undemanded h]
    rw [hdemand]
    by_cases hk : d.kind = .plain <;> simp [hk, Feed.initial]

end

/-! ## The groups and the points -/

theorem homeGroup_eq (s : State) (g : Fin 8) (l : List (Fin 64 × Lie)) : s.homeGroup g l =
    match l with
    | [] => GroupRec.initial
    | (p, l) :: rest => s.groupStarts g GroupRec.initial p l rest := by
  cases l <;> rfl

theorem homeMoves_congr {s t : State} (ht : t.tables = s.tables) (hp : t.points = s.points) (g : Fin 8) :
    t.homeMoves g = s.homeMoves g := by
  unfold State.homeMoves
  rw [ht, hp]

theorem homeGroup_congr {s t : State} (hc : t.clock = s.clock) (ht : t.tables = s.tables) (g : Fin 8) (l : List (Fin 64 × Lie)) :
    t.homeGroup g l = s.homeGroup g l := by
  rw [homeGroup_eq, homeGroup_eq]
  cases l with
  | nil => rfl
  | cons e l => exact groupStarts_congr hc ht g _ _ _ _

theorem Entered.groups_home {u v x w t : State} (e : Entered u v x w t) (g : Fin 8) :
    tget t.groups g = u.homeGroup g (u.homeMoves g) := by
  rw [e.groups, e.asked.groups, ← homeMoves_eq, homeMoves_congr e.begins.tables e.begins.points,
    homeGroup_congr e.begins.clock e.begins.tables]

theorem Entered.points_home {u v x w t : State} (e : Entered u v x w t) {p : Fin 64} {d : PointDef}
    (hd : tget u.tables.points p = some d) : .point p ∈ t.link.reports ∧
      (d.home = .asFound → (tget t.points p).lie = none ∧ (tget t.points p).asFound = (d.feedback != .none)) ∧
      (d.home ≠ .asFound → (tget t.points p).asFound = false ∧ (tget t.points p).lie =
        if (tget t.groups d.group).phase = .pulse ∧ ((tget t.groups d.group).current.map (·.point)) = some p then none
        else (tget u.points p).lie) := by
  obtain ⟨h1, h2, h3⟩ := e.asked.asked p (mem_indices p) d (by rw [e.begins.tables]; exact hd)
  rw [e.points, e.groups]
  rw [e.begins.points] at h3
  exact ⟨e.mem h1, h2, h3⟩

/-- The paused flags are down: the steady part settles with any feeds and the groups as they were. -/
theorem Entered.steady_end {u v x w t : State} (e : Entered u v x w t) (h : AtRest u) :
    ({ t with feeds := u.feeds } : State).steady = u.inService.steady := by
  have hp (g : Fin 8) : (tget t.groups g).paused = (tget u.groups g).paused := by
    have h1 : (tget t.groups g).paused = (tget x.groups g).paused := by rw [e.groups]
    rw [h1, e.asked.stands.follows.paused, e.begins.groups, h.groups]
  have hg : t.groups.map (fun (x : GroupRec) => { GroupRec.initial with paused := x.paused }) =
      u.groups.map (fun (x : GroupRec) => { GroupRec.initial with paused := x.paused }) :=
    tab_ext fun g => by rw [tget_map, tget_map, hp]
  have hs := steady_of_standing e.standing_end u.feeds t.groups
  exact hs.trans (congrArg (fun k : Tab GroupRec 8 => ({ u.inService.steady with groups := k } : State)) hg)

/-- The deck after the entry, as home-at-start and the drive have it (R158, R163). -/
theorem enteredDeck_homes {u : State} {t : TurntableDef} (ht : u.tables.turntable = some t) (hh : t.homeAtStart = true) :
    u.enteredDeck = u.homingDeck t := by
  rw [State.enteredDeck, ht]
  exact if_pos hh

theorem enteredDeck_stays {u : State} (h : ∀ t, u.tables.turntable = some t → t.homeAtStart = false) : u.enteredDeck = u.deck := by
  unfold State.enteredDeck
  split
  · rename_i t ht
    exact if_neg (by rw [h t ht]; decide)
  · rfl

/-- Settles O20: the entry is followed stage by stage (`Entered`): what it begins with, the home moves (`pointsRun_asked`), the
deck's homing (`startHoming_stands`) and its end, in which every signal stays DARK (`endEntry_dark`). -/
theorem startRunBeginsService : Obligations.StartRunBeginsService := by
  unfold Obligations.StartRunBeginsService
  intro s dt tag hs hrest hmode hpass now
  have h : AtRest (s.frameLost dt) := { atRest_iff.1 (hrest hmode) with }
  have ht : takeStartRun () (s.frameLost dt) = ((s.frameLost dt).enterRun, Reply.done) := by
    unfold takeStartRun
    rw [if_neg (by exact not_not.2 hmode), show (s.frameLost dt).tables.firstFailure = none from hpass]
  have hx : exec (.startRun dt tag (.fields ())) s = .next ((s.frameLost dt).enterRun.pushReply tag Reply.done) :=
    (request_heard s dt tag _ _ hs).trans (by rw [ht])
  obtain ⟨v, x, w, e⟩ := enterRun_entered h
  generalize (s.frameLost dt).enterRun = t at hx e
  have hrx : t.link.rx = .hunt := (congrArg (fun u : State => u.link.rx) e.standing_end :)
  refine ⟨_, hx, ?_⟩
  rw [pushReply_eq_replied t tag _ hrx]
  refine ⟨congrArg (fun u : State => u.replied tag Reply.done) (e.steady_end h), e.feeds h, fun p d hd => e.points_home hd,
    fun g => (e.groups_home g).trans (homeGroup_eq _ _ _), fun tt htt hh => ⟨e.mem_turntable htt hh, ?_⟩,
    fun hno => e.deck.trans (enteredDeck_stays hno), fun g hg => ?_, fun i hi => ?_, ?_, e.queue⟩
  · have hdeck : (t.replied tag Reply.done).deck = (s.frameLost dt).homingDeck tt := e.deck.trans (enteredDeck_homes htt hh)
    have hin (hb : s.deck.boltOut = true) : ¬ s.deck.boltOut = false := by rw [hb]; decide
    exact ⟨fun hb => hdeck.trans (if_pos hb), fun hb hl => hdeck.trans ((if_neg (hin hb)).trans (if_pos hl)),
      fun hb hl => hdeck.trans ((if_neg (hin hb)).trans (if_neg hl))⟩
  · exact e.mem_of_begun ((e.marks _).2 (.inl (.inr ⟨g, hg, rfl⟩)))
  · exact e.mem_of_begun ((e.marks _).2 (.inr ⟨i, hi, rfl⟩))
  · exact e.mem_of_begun ((e.marks _).2 (.inl (.inl (mem_putMode _ _))))

end Sys2Proof.Machine
end

section
/-! SUPPORT. STOP_RUN (O21): what the deck's kill leaves of the points, the groups, the text and the deck. -/

namespace Sys2Proof.Machine

/-! ## What leaves the points where they lie -/

/-- `t` has the groups, the text, the deck and every point's lie of `s`. -/
structure LiesAs (s t : State) : Prop where
  groups : t.groups = s.groups
  text : t.text = s.text
  deck : t.deck = s.deck
  lie : ∀ p, (tget t.points p).lie = (tget s.points p).lie

theorem LiesAs.refl (s : State) : LiesAs s s := ⟨rfl, rfl, rfl, fun _ => rfl⟩

theorem LiesAs.trans {s t u : State} (h : LiesAs s t) (k : LiesAs t u) : LiesAs s u :=
  ⟨k.groups.trans h.groups, k.text.trans h.text, k.deck.trans h.deck, fun p => (k.lie p).trans (h.lie p)⟩

theorem LiesAs.ite {p : Prop} [Decidable p] {s t u : State} (ht : p → LiesAs s t) (hu : ¬ p → LiesAs s u) :
    LiesAs s (if p then t else u) := by
  split
  · exact ht ‹_›
  · exact hu ‹_›

theorem LiesAs.foldl {α : Type} {f : State → α → State} (h : ∀ s a, LiesAs s (f s a)) (l : List α) (s : State) :
    LiesAs s (l.foldl f s) := by
  induction l generalizing s with
  | nil => exact .refl s
  | cons a l ih => exact (h s a).trans (ih _)

theorem mark_liesAs (s : State) (x : Subject) : LiesAs s (s.mark x) := ⟨rfl, rfl, rfl, fun _ => rfl⟩

theorem settlePanel_liesAs (s : State) : LiesAs s s.settlePanel := ⟨rfl, rfl, rfl, fun _ => rfl⟩

theorem updWork_liesAs (s : State) (f : Work → Work) : LiesAs s (s.updWork f) := ⟨rfl, rfl, rfl, fun _ => rfl⟩

theorem putRoute_liesAs (s : State) (r : Fin 64) (x : RouteRec) : LiesAs s (s.putRoute r x) := ⟨rfl, rfl, rfl, fun _ => rfl⟩

theorem putReserver_liesAs (s : State) (b : Fin 48) (x : Option (Fin 64)) : LiesAs s (s.putReserver b x) :=
  ⟨rfl, rfl, rfl, fun _ => rfl⟩

theorem updRun_liesAs (s : State) (i : Fin 8) (f : Run → Run) : LiesAs s (s.updRun i f) := ⟨rfl, rfl, rfl, fun _ => rfl⟩

theorem callExamine_liesAs (s : State) : LiesAs s s.callExamine := updWork_liesAs s _

theorem putSignal_liesAs (s : State) (g : Fin 32) (f : SignalRec → SignalRec) : LiesAs s (s.putSignal g f) :=
  .ite (fun _ => .refl s) fun _ => ⟨rfl, rfl, rfl, fun _ => rfl⟩

theorem putCue_liesAs (s : State) (c : Fin 16) (v : Bool) : LiesAs s (s.putCue c v) :=
  .ite (fun _ => .refl s) fun _ => ⟨rfl, rfl, rfl, fun _ => rfl⟩

theorem meetWait_liesAs (s : State) (i : Fin 8) : LiesAs s (s.meetWait i) :=
  ((updRun_liesAs s i _).trans (mark_liesAs _ _)).trans (updWork_liesAs _ _)

theorem noteAbort_liesAs (s : State) (i : Fin 8) (c : AbortCause) : LiesAs s (s.noteAbort i c) := updWork_liesAs s _

theorem setCueFlag_liesAs (s : State) (c : Fin 16) : LiesAs s (s.setCueFlag c) := by
  unfold State.setCueFlag
  dsimp only
  split
  · exact .ite (fun _ => ((putCue_liesAs s c _).trans (putCue_liesAs _ c _)).trans (meetWait_liesAs _ _)) fun _ => putCue_liesAs s c _
  · exact putCue_liesAs s c _

theorem setCuesFor_liesAs (s : State) (x : Selector) : LiesAs s (s.setCuesFor x) :=
  .foldl (fun _ _ => .ite (fun _ => setCueFlag_liesAs _ _) fun _ => .refl _) _ s

theorem noteRoute_liesAs (s : State) (r : Fin 64) (x : RouteRec) : LiesAs s (s.noteRoute r x) := by
  unfold State.noteRoute
  split
  · refine .ite (fun _ => ?_) fun _ => .refl s
    split
    · exact meetWait_liesAs _ _
    · exact noteAbort_liesAs _ _ _
    · exact meetWait_liesAs _ _
    · exact .refl s
  · exact .refl s

theorem noteDeck_liesAs (s : State) : LiesAs s s.noteDeck := by
  unfold State.noteDeck
  split
  · exact .ite (fun _ => meetWait_liesAs _ _) fun _ => .refl s
  · exact .refl s

theorem noteTurnOutcome_liesAs (s : State) (i : Fin 8) (o : TurnOutcome) : LiesAs s (s.noteTurnOutcome i o) := by
  unfold State.noteTurnOutcome
  split
  · refine .ite (fun _ => ?_) fun _ => .refl s
    have h := (updRun_liesAs s i fun r => { r with turnPending := false }).trans (mark_liesAs _ (.showing i))
    exact .ite (fun _ => h) fun _ => h.trans (noteAbort_liesAs _ _ _)
  · exact .refl s

theorem aspectTakesRoute_liesAs (s : State) (r : Fin 64) (d : RouteDef) (old new : RouteRec) :
    LiesAs s (s.aspectTakesRoute r d old new) := by
  unfold State.aspectTakesRoute
  extract_lets g s1
  have h1 : LiesAs s s1 := by
    simp only [s1]
    split
    · exact .refl _
    · exact putSignal_liesAs _ _ _
    · exact .refl _
  refine h1.trans ?_
  split
  · exact putSignal_liesAs _ _ _
  · split
    · exact .refl _
    · exact putSignal_liesAs _ _ _
    · exact .refl _
  · exact putSignal_liesAs _ _ _
  · exact .ite (fun _ => putSignal_liesAs _ _ _) fun _ => .refl _
  · exact .refl _

theorem setRoute_liesAs (s : State) (r : Fin 64) (x : RouteRec) : LiesAs s (s.setRoute r x) := by
  unfold State.setRoute
  extract_lets old s1 s2 s3
  have h1 : LiesAs s s1 := ((putRoute_liesAs s r x).trans (mark_liesAs _ _)).trans (settlePanel_liesAs _)
  have h2 : LiesAs s1 s2 := by
    simp only [s2]
    split
    · exact aspectTakesRoute_liesAs _ _ _ _ _
    · exact .refl _
  have h3 : LiesAs s2 s3 := by
    simp only [s3]
    split
    · exact setCuesFor_liesAs _ _
    · exact .ite (fun _ => .refl _) fun _ => setCuesFor_liesAs _ _
    · exact .refl _
  exact ((h1.trans h2).trans h3).trans (noteRoute_liesAs _ _ _)

theorem unreserve_liesAs (s : State) (r : Fin 64) (b : Fin 48) : LiesAs s (s.unreserve r b) :=
  .ite (fun _ => (((putReserver_liesAs s b _).trans (mark_liesAs _ _)).trans (settlePanel_liesAs _)).trans
    (callExamine_liesAs _)) fun _ => .refl _

theorem unlock_liesAs (s : State) (p : Fin 64) : LiesAs s (s.unlock p) := by
  have h : LiesAs s (s.updPoint p fun x => { x with locks := x.locks - 1 }) := ⟨rfl, rfl, rfl, fun q => by
    rw [State.updPoint_points, tget_tupd]
    split <;> rfl⟩
  exact (h.trans (mark_liesAs _ _)).trans (callExamine_liesAs _)

theorem freeHolding_liesAs (s : State) (r : Fin 64) (e : FreeReason) : LiesAs s (s.freeHolding r e) :=
  (((setRoute_liesAs s r _).trans (.foldl (fun t b => unreserve_liesAs t r b) _ _)).trans
    (.foldl (fun t (x : Fin 64 × Lie) => unlock_liesAs t x.1) _ _)).trans (callExamine_liesAs _)

theorem testProof_liesAs (s : State) (r : Fin 64) : LiesAs s (s.testProof r) := by
  unfold State.testProof
  split
  · exact .ite (fun _ => setRoute_liesAs _ _ _) fun _ => .refl _
  · exact .ite (fun _ => .refl _) fun _ => (putRoute_liesAs _ _ _).trans (mark_liesAs _ _)
  · exact .refl _

theorem routesTakeDeck_liesAs (s : State) : LiesAs s s.routesTakeDeck :=
  .foldl (fun _ _ => .ite (fun _ => testProof_liesAs _ _) fun _ => .refl _) _ s

theorem routeTakesOutcome_liesAs (s : State) (r : Fin 64) (o : TurnOutcome) : LiesAs s (s.routeTakesOutcome r o) := by
  unfold State.routeTakesOutcome
  split
  · exact .ite (fun _ => putRoute_liesAs _ _ _) fun _ => freeHolding_liesAs _ _ _
  · exact .refl _

theorem setFeedState_liesAs (s : State) (b : Fin 48) (x : FeedState) : LiesAs s (s.setFeedState b x) :=
  .ite (fun _ => .refl s) fun _ => ⟨rfl, rfl, rfl, fun _ => rfl⟩

theorem feedFollow_liesAs (s : State) (b : Fin 48) : LiesAs s (s.feedFollow b) := by
  unfold State.feedFollow
  split
  · exact .ite (fun _ => .refl s) fun _ => setFeedState_liesAs _ _ _
  · exact .ite (fun _ => setFeedState_liesAs _ _ _) fun _ => .refl s
  · exact .refl s

theorem deckChanged_liesAs (s : State) : LiesAs s s.deckChanged := by
  unfold State.deckChanged
  extract_lets s1 s2
  have h2 : LiesAs s1 s2 := by
    simp only [s2]
    split
    · exact feedFollow_liesAs _ _
    · exact .refl _
  exact ((((mark_liesAs s _).trans (settlePanel_liesAs _)).trans h2).trans (routesTakeDeck_liesAs _)).trans (noteDeck_liesAs _)

/-! ## The kill (R160) -/

/-- What of the deck an entry into CONFIG keeps (R164), with the last outcome of a move ended by it. -/
def Deck.stoppedAs (d : Deck) (o : Option (TurnOutcome × TurnOrigin)) : Deck :=
  { Deck.initial with
    lastDir := d.lastDir, corrections := d.corrections, lastCorrection := d.lastCorrection, stepDir := d.stepDir
    boltOut := d.boltOut, boltIn := d.boltIn, lastOutcome := o }

/-- The last outcome as a kill leaves it (R154, R160). -/
def State.outcomeAtStop (s : State) : Option (TurnOutcome × TurnOrigin) :=
  match s.tables.turntable, s.deck.state.move with
  | some _, some m => some (.stopped, m.origin)
  | _, _ => s.deck.lastOutcome

/-- What a kill leaves of the state for an entry into CONFIG. -/
structure KillLeaves (s t : State) : Prop where
  groups : t.groups = s.groups
  text : t.text = s.text
  lie : ∀ p, (tget t.points p).lie = (tget s.points p).lie
  deck : t.deck.stoppedAs t.deck.lastOutcome = s.deck.stoppedAs s.outcomeAtStop

theorem handOutcome_stopped (s : State) (m : MoveRec) :
    LiesAs (s.updDeck fun d => { d with lastOutcome := some (.stopped, m.origin) }) (s.handOutcome m .stopped) := by
  unfold State.handOutcome
  extract_lets s1 s2
  have h1 : LiesAs (s.updDeck fun d => { d with lastOutcome := some (.stopped, m.origin) }) s1 := mark_liesAs _ _
  have h2 : LiesAs s1 s2 := by
    simp only [s2]
    split
    · exact .refl _
    · exact routeTakesOutcome_liesAs _ _ _
    · exact noteTurnOutcome_liesAs _ _ _
  rw [if_neg (by decide)]
  exact h1.trans h2

/-- A move ends STOPPED. -/
theorem killMove_leaves {s : State} {t : TurntableDef} {m : MoveRec} (ht : s.tables.turntable = some t)
    (hm : s.deck.state.move = some m) (kept : Bool) :
    KillLeaves s (((s.updDeck fun d => d.killed kept).handOutcome m .stopped).deckChanged) := by
  obtain ⟨hg, htx, hd, hl⟩ := (handOutcome_stopped (s.updDeck fun d => d.killed kept) m).trans (deckChanged_liesAs _)
  refine ⟨hg, htx, hl, ?_⟩
  rw [hd, State.outcomeAtStop, ht, hm]
  rfl

theorem kill_leaves (s : State) : KillLeaves s s.kill := by
  have stay (h : s.tables.turntable = none ∨ s.deck.state.move = none) : KillLeaves s s := by
    refine ⟨rfl, rfl, fun _ => rfl, ?_⟩
    unfold State.outcomeAtStop
    rcases h with h | h <;> simp [h]
  unfold State.kill
  cases ht : s.tables.turntable with
  | none => exact stay (.inl ht)
  | some t =>
    dsimp only
    cases hd : s.deck.state with
    | moving m p => exact killMove_leaves ht (by rw [hd]; rfl) _
    | unlocking m x => exact killMove_leaves ht (by rw [hd]; rfl) _
    | settling m x => exact killMove_leaves ht (by rw [hd]; rfl) _
    | locking m x => exact killMove_leaves ht (by rw [hd]; rfl) _
    | homing known n x =>
      obtain ⟨hg, htx, hk, hl⟩ := deckChanged_liesAs (s.updDeck fun d => d.killed known)
      refine ⟨hg, htx, hl, ?_⟩
      dsimp only
      rw [hk, State.outcomeAtStop, ht, hd]
      rfl
    | _ => exact stay (.inr (by rw [hd]; rfl))

/-- The steady part but for the deck. -/
def State.deckless (s : State) : State := { s.steady with deck := Deck.initial }

theorem Follows.deckless {s t : State} (h : Follows s t) : t.deckless = s.deckless :=
  congrArg (fun u : State => ({ u with deck := Deck.initial } : State)) h.steady

theorem routeTakesOutcome_deckless (s : State) (r : Fin 64) (o : TurnOutcome) : (s.routeTakesOutcome r o).deckless = s.deckless := by
  unfold State.routeTakesOutcome
  split
  · split
    · exact (putRoute_follows s r _).deckless
    · exact (freeHolding_follows s r _).deckless
  · rfl

theorem noteTurnOutcome_deckless (s : State) (i : Fin 8) (o : TurnOutcome) : (s.noteTurnOutcome i o).deckless = s.deckless := by
  unfold State.noteTurnOutcome
  split
  · split
    · dsimp only
      split
      · rfl
      · rfl
    · rfl
  · rfl

theorem handOutcome_deckless (s : State) (m : MoveRec) (o : TurnOutcome) : (s.handOutcome m o).deckless = s.deckless := by
  unfold State.handOutcome
  extract_lets s1 s2
  have h2 : s2.deckless = s.deckless := by
    simp only [s2]
    split
    · rfl
    · exact routeTakesOutcome_deckless _ _ _
    · exact noteTurnOutcome_deckless _ _ _
  split
  · exact (setCuesFor_follows s2 _).deckless.trans h2
  · exact h2

theorem killMove_deckless (s : State) (m : MoveRec) (kept : Bool) :
    (((s.updDeck fun d => d.killed kept).handOutcome m .stopped).deckChanged).deckless = s.deckless :=
  (deckChanged_follows _).deckless.trans (handOutcome_deckless _ _ _)

theorem kill_deckless (s : State) : s.kill.deckless = s.deckless := by
  unfold State.kill
  split
  · rfl
  · split
    · exact killMove_deckless s _ _
    · exact (deckChanged_follows (s.updDeck fun d => d.killed _)).deckless
    · exact killMove_deckless s _ _
    · exact killMove_deckless s _ _
    · exact killMove_deckless s _ _
    · rfl

/-! ## Entry into CONFIG -/

/-- The part as an entry into CONFIG leaves it (R23, R210), the image parts and the report list aside. -/
def State.stopped (s : State) : State :=
  { State.reset with
    clock := s.clock, mode := .config, tables := s.tables, params := s.params, captions := s.captions
    points := tgen 64 fun p =>
      { PointRec.initial with
        lie := match tget s.tables.points p with
          | some d => (tget s.groups d.group).lieAtStop p (tget s.points p).lie
          | none => (tget s.points p).lie }
    deck := s.deck.stoppedAs s.outcomeAtStop
    bus := { Bus.initial with state := s.bus.state.atConfig }
    text := ⟨s.text.line1, blankText, none⟩
    link := s.link
    pending := s.pending }

theorem cleared_calm {s v : State} (hd : v.deckless = ({ s with mode := .config } : State).deckless) (hk : KillLeaves s v) :
    (v.cleared.recomputeParts.updLink fun l => { l with reports := [.layout] }).calm = s.stopped.calm := by
  have htables : v.tables = s.tables := (congrArg State.tables hd :)
  have hbus : v.bus.state = s.bus.state := (congrArg (fun u : State => u.bus.state) hd :)
  unfold State.calm
  simp only [State.cleared, State.updLink, State.trackConfig, State.gatesInitial, State.panelConfig, State.showsConfig,
    State.routesConfig, State.deckConfig, State.pointsConfig, State.updDeck, State.recomputeParts, State.stopped, State.reset]
  congr 1
  case e_clock => exact (congrArg State.clock hd :)
  case e_mode => exact (congrArg State.mode hd :)
  case e_params => exact (congrArg State.params hd :)
  case e_captions => exact (congrArg State.captions hd :)
  case e_points =>
    refine tab_ext fun p => ?_
    rw [tget_tgen, tget_tgen, hk.groups, hk.lie, State.pointDef, htables]
    rfl
  case e_deck => exact hk.deck
  case e_bus => rw [hbus]
  case e_modules =>
    refine tab_ext fun m => ?_
    simp only [tget_map, tget_tgen, tget_tfill]
  case e_text => rw [hk.text]
  case e_link => exact (congrArg State.link hd :)
  case e_pending => exact (congrArg State.pending hd :)

theorem putMode_killLeaves (s : State) (m : Mode) : KillLeaves s (s.putMode m).kill := by
  obtain ⟨hg, ht, hl, hd⟩ := kill_leaves (s.putMode m)
  exact ⟨hg, ht, hl, hd⟩

theorem enterConfig_calm (s : State) : s.enterConfig.calm = s.stopped.calm := by
  rw [enterConfig_eq]
  refine cleared_calm ?_ (putMode_killLeaves s .config)
  exact (kill_deckless _).trans ((mark_follows ({ s with mode := .config } : State) .layout).trans (settlePanel_follows _)).deckless

theorem stopped_replied_calm (s : State) (dt : Nat) (tag : Byte) (r : Reply) {t : State} (h : t.calm = (s.frameLost dt).stopped.calm) :
    (t.pushReply tag r).calm = ((s.frameLost dt).stopped.replied tag r).calm := pushReply_calm_of tag r h rfl

/-- Settles O21: what the kill leaves (`kill_leaves`, `kill_deckless`) settles, with the values for CONFIG, every field of the
calm part. -/
theorem stopRunClearsDynamicState : Obligations.StopRunClearsDynamicState := by
  unfold Obligations.StopRunClearsDynamicState
  intro s dt tag hs
  refine ⟨fun hc => request_refused s dt tag _ _ hs _ (if_pos hc), fun hc => ?_⟩
  have ht : takeStopRun () (s.frameLost dt) = ((s.frameLost dt).enterConfig, Reply.done) := if_neg hc
  have hcalm := stopped_replied_calm s dt tag Reply.done (enterConfig_calm (s.frameLost dt))
  have hrep : (s.frameLost dt).enterConfig.link.reports = [.layout] := by rw [enterConfig_eq]; rfl
  refine ⟨_, (request_heard s dt tag _ _ hs).trans (by rw [ht]), ?_⟩
  generalize (s.frameLost dt).enterConfig = t at hcalm hrep ⊢
  refine ⟨(pushReply_reports t tag _).trans hrep, hcalm.trans ?_⟩
  refine congrArg (fun k : Tab PointRec 64 =>
    ({ (s.frameLost dt).stopped.replied tag Reply.done with points := k } : State).calm) (tab_ext fun p => ?_)
  rw [State.stopped, tget_tgen, tget_tgen]
  refine congrArg (fun l : KnownLie => ({ PointRec.initial with lie := l } : PointRec)) ?_
  show (match tget s.tables.points p with
    | some d => (tget s.groups d.group).lieAtStop p (tget s.points p).lie
    | none => (tget s.points p).lie) = _
  cases tget s.tables.points p with
  | none => rfl
  | some d =>
    dsimp only [GroupRec.lieAtStop]
    cases (tget s.groups d.group).current <;> rfl

end Sys2Proof.Machine
end

section
/-! SUPPORT. The walk to a neighbour (O31): across the join at the deck, and along an end's link past the points. -/

namespace Sys2Proof.Machine

/-! ## Along a link (R48) -/

theorem through_eq_some {l : Lie} {g out : Leg} :
    Lie.through l g = some out ↔ (g = .toe ∧ out = Lie.leg l) ∨ (g = Lie.leg l ∧ out = .toe) := by
  cases l <;> cases g <;> cases out <;> decide

theorem movingTarget_eq_none {s : State} {p : Fin 64} : s.movingTarget p = none ↔ ∀ k, ¬ s.movingTo p k := by
  unfold State.movingTarget State.movingTo
  rw [State.pointDef]
  cases hd : tget s.tables.points p with
  | none => simp
  | some d =>
    cases hc : (tget s.groups d.group).current with
    | none => simp [hc]
    | some m =>
      by_cases h : m.point = p ∧ (tget s.groups d.group).outcome = none
      · obtain ⟨hp, ho⟩ := h
        simp [hc, hp, ho]
      · simp only [hc, if_neg h, true_iff]
        rintro k ⟨x, y, hx, hy, ho, hp, -⟩
        cases hx
        cases hc.symm.trans hy
        exact h ⟨hp, ho⟩

theorem pointExit_eq_some {s : State} {p : Fin 64} {g out : Leg} : s.pointExit p g = some out ↔
    (tget s.points p).failed = false ∧ (∀ k, ¬ s.movingTo p k) ∧ ∃ l, (tget s.points p).lie = some l ∧
      ((g = .toe ∧ out = Lie.leg l) ∨ (g = Lie.leg l ∧ out = .toe)) := by
  unfold State.pointExit State.atRest
  rw [← movingTarget_eq_none]
  cases hm : s.movingTarget p with
  | some l => simp
  | none =>
    cases hf : (tget s.points p).failed with
    | true => simp [hf]
    | false =>
      cases hl : (tget s.points p).lie with
      | none => simp [hl]
      | some l => simp [hf, hl, through_eq_some]

theorem follow_eq_some {s : State} {n : Nat} {k : Link} {b : Fin 48} {y : Side} :
    s.tables.follow s.pointExit n k = some (b, y) ↔ s.LinkReaches n k b y := by
  induction n generalizing k with
  | zero =>
    cases k with
    | noLink => exact ⟨fun h => by simp [Tables.follow] at h, fun h => by cases h⟩
    | blockEnd c e =>
      refine ⟨fun h => ?_, fun h => by cases h; rfl⟩
      simp only [Tables.follow, Option.some.injEq, Prod.mk.injEq] at h
      obtain ⟨rfl, rfl⟩ := h
      exact .block _ _ _
    | pointLeg p g => exact ⟨fun h => by simp [Tables.follow] at h, fun h => by cases h⟩
  | succ n ih =>
    cases k with
    | noLink => exact ⟨fun h => by simp [Tables.follow] at h, fun h => by cases h⟩
    | blockEnd c e =>
      refine ⟨fun h => ?_, fun h => by cases h; rfl⟩
      simp only [Tables.follow, Option.some.injEq, Prod.mk.injEq] at h
      obtain ⟨rfl, rfl⟩ := h
      exact .block _ _ _
    | pointLeg p g =>
      have h1 : s.tables.follow s.pointExit (n + 1) (.pointLeg p g) = some (b, y) ↔
          ∃ x out, tget s.tables.points p = some x ∧ s.pointExit p g = some out ∧
            s.tables.follow s.pointExit n (x.link out) = some (b, y) := by
        simp [Tables.follow, Option.bind_eq_some_iff]
      rw [h1]
      constructor
      · rintro ⟨x, out, hx, hout, hf⟩
        obtain ⟨hfailed, hmove, l, hl, hpass⟩ := pointExit_eq_some.1 hout
        exact .point hx hl hfailed hmove hpass (ih.1 hf)
      · rintro (⟨_, _, _⟩ | ⟨hx, hl, hfailed, hmove, hpass, hr⟩)
        exact ⟨_, _, hx, pointExit_eq_some.2 ⟨hfailed, hmove, _, hl, hpass⟩, ih.2 hr⟩

/-! ## Across the join (R49) -/

/-- No two roads of the tables share a position or a block. -/
def Tables.roadsApart (t : Tables) : Prop :=
  ∀ p q x z, tget t.roads p = some x → tget t.roads q = some z → x.position = z.position ∨ x.block = z.block → p = q

theorem joined_eq_some {d : Deck} {al : DeckReq} : d.joined = some al ↔ d.state = .idle ∧ d.locked = true ∧ d.align = some al := by
  unfold Deck.joined
  cases d.state <;> cases d.locked <;> simp

/-- The search over all indices finds the one index of which a test holds. -/
theorem find?_indices_eq_some {n : Nat} {f : Fin n → Bool} (h : ∀ p q, f p = true → f q = true → p = q) {q : Fin n} :
    (indices n).find? f = some q ↔ f q = true := by
  refine ⟨List.find?_some, fun hq => ?_⟩
  cases hf : (indices n).find? f with
  | none => exact absurd hq (List.find?_eq_none.1 hf q (mem_indices q))
  | some p => rw [h p q (List.find?_some hf) hq]

theorem opposite_eq_some {t : Tables} (h : t.roadsApart) {r q : Fin 24} : t.opposite r = some q ↔
    ∃ tt x z, t.turntable = some tt ∧ tget t.roads r = some x ∧ tget t.roads q = some z ∧
      z.position = (x.position + tt.r / 2) % tt.r := by
  unfold Tables.opposite
  cases t.turntable with
  | none => simp
  | some tt =>
    cases hr : tget t.roads r with
    | none => simp
    | some x =>
      have hf : ∀ p, (match tget t.roads p with
          | some e => e.position == (x.position + tt.r / 2) % tt.r
          | none => false) = true ↔ ∃ z, tget t.roads p = some z ∧ z.position = (x.position + tt.r / 2) % tt.r := by
        intro p
        cases tget t.roads p <;> simp
      simp only [Option.some.injEq, exists_and_left, exists_eq_left']
      rw [find?_indices_eq_some]
      · exact hf q
      · intro p q hp hq
        obtain ⟨y, hy, ey⟩ := (hf p).1 hp
        obtain ⟨z, hz, ez⟩ := (hf q).1 hq
        exact h p q y z hy hz (.inl (ey.trans ez.symm))

theorem deckFaces_iff {s : State} (h : s.tables.roadsApart) {e : Side} {q : Fin 24} :
    s.deckFaces e q ↔ ∃ al, s.deck.joined = some al ∧ s.tables.facedRoad al (Side.deckEnd e) = some q := by
  unfold State.deckFaces
  simp only [joined_eq_some]
  constructor
  · rintro ⟨hi, hl, al, ha, hq⟩
    refine ⟨al, ⟨hi, hl, ha⟩, ?_⟩
    unfold Tables.facedRoad
    rcases hq with ⟨he, rfl, hr⟩ | ⟨he, hr⟩
    · rw [if_pos he.symm]
      obtain ⟨x, hx⟩ := Option.isSome_iff_exists.1 hr
      simp [hx]
    · rw [if_neg (Ne.symm he)]
      exact (opposite_eq_some h).2 hr
  · rintro ⟨al, ⟨hi, hl, ha⟩, hq⟩
    refine ⟨hi, hl, al, ha, ?_⟩
    unfold Tables.facedRoad at hq
    by_cases he : al.side = Side.deckEnd e
    · rw [if_pos he] at hq
      obtain ⟨x, hx, rfl⟩ := Option.map_eq_some_iff.1 hq
      exact .inl ⟨he.symm, rfl, by simp [hx]⟩
    · rw [if_neg he] at hq
      exact .inr ⟨Ne.symm he, (opposite_eq_some h).1 hq⟩

theorem isPitEnd_iff {s : State} {b : Fin 48} {e : Side} {q : Fin 24} : s.isPitEnd b e q ↔
    ∃ z x, tget s.tables.roads q = some z ∧ z.block = b ∧ tget s.tables.blocks b = some x ∧ x.pitEnd = e :=
  ⟨fun ⟨z, x, hz, hb, hx, he⟩ => ⟨z, x, hz, hb, hx, he.symm⟩, fun ⟨z, x, hz, hb, hx, he⟩ => ⟨z, x, hz, hb, hx, he.symm⟩⟩

theorem fromDeck_eq_some {s : State} {al : DeckReq} {e : Side} {n : Fin 48} {y : Side} :
    s.tables.fromDeck al e = some (n, y) ↔ ∃ q, s.tables.facedRoad al (Side.deckEnd e) = some q ∧ s.isPitEnd n y q := by
  simp only [Tables.fromDeck, isPitEnd_iff, Option.bind_eq_bind, Option.bind_eq_some_iff]
  constructor
  · rintro ⟨q, hq, z, hz, x, hx, he⟩
    cases he
    exact ⟨q, hq, z, x, hz, rfl, hx, rfl⟩
  · rintro ⟨q, hq, z, x, hz, rfl, hx, rfl⟩
    exact ⟨q, hq, z, hz, x, hx, rfl⟩

theorem pitRoad_eq_some {s : State} (h : s.tables.roadsApart) {b : Fin 48} {e : Side} {q : Fin 24} :
    s.tables.pitRoad b e = some q ↔ s.isPitEnd b e q := by
  have hf : ∀ p, (match tget s.tables.roads p, tget s.tables.blocks b with
      | some road, some d => road.block == b && d.pitEnd == e
      | _, _ => false) = true ↔ s.isPitEnd b e p := by
    intro p
    rw [isPitEnd_iff]
    cases tget s.tables.roads p <;> cases tget s.tables.blocks b <;> simp
  unfold Tables.pitRoad
  rw [find?_indices_eq_some]
  · exact hf q
  · intro p q hp hq
    obtain ⟨y, _, hy, ey, -⟩ := (hf p).1 hp
    obtain ⟨z, _, hz, ez, -⟩ := (hf q).1 hq
    exact h p q y z hy hz (.inr (ey.trans ez.symm))

/-- A road faces one end of the deck at most, where the turntable has two steps at least. -/
theorem facedRoad_side {t : Tables} (h : t.roadsApart) (hr : ∀ tt, t.turntable = some tt → 2 ≤ tt.r) {al : DeckReq} {q : Fin 24}
    {e f : DeckEnd} (he : t.facedRoad al e = some q) (hf : t.facedRoad al f = some q) : e = f := by
  have half {tt : TurntableDef} {x : RoadDef} (htt : t.turntable = some tt) (hx : x.position = (x.position + tt.r / 2) % tt.r) :
      False := by
    have h2 := hr tt htt
    have hlt : x.position < tt.r := by rw [hx]; exact Nat.mod_lt _ (by omega)
    by_cases hw : x.position + tt.r / 2 < tt.r
    · rw [Nat.mod_eq_of_lt hw] at hx
      omega
    · rw [Nat.mod_eq_sub_mod (by omega), Nat.mod_eq_of_lt (by omega)] at hx
      omega
  have both {e f : DeckEnd} (hs : al.side = e) (hn : al.side ≠ f) (he : t.facedRoad al e = some q)
      (hf : t.facedRoad al f = some q) : False := by
    rw [Tables.facedRoad, if_pos hs] at he
    rw [Tables.facedRoad, if_neg hn, opposite_eq_some h] at hf
    obtain ⟨x, hx, rfl⟩ := Option.map_eq_some_iff.1 he
    obtain ⟨tt, y, z, htt, hy, hz, hp⟩ := hf
    cases hy.symm.trans hz
    exact half htt hp
  by_contra hne
  by_cases hs : al.side = e
  · exact both hs (fun hx => hne (hs.symm.trans hx)) he hf
  · by_cases hs' : al.side = f
    · exact both hs' hs hf he
    · cases hal : al.side <;> cases e <;> cases f <;> simp_all

theorem toDeck_eq_some {t : Tables} (h : t.roadsApart) (hr : ∀ tt, t.turntable = some tt → 2 ≤ tt.r) {al : DeckReq}
    {q : Fin 24} {n : Fin 48} {y : Side} : t.toDeck al q = some (n, y) ↔
      t.turntable.map (·.deckBlock) = some n ∧ t.facedRoad al (Side.deckEnd y) = some q := by
  unfold Tables.toDeck
  have side {e f : DeckEnd} (he : t.facedRoad al e = some q) (hf : t.facedRoad al f = some q) : e = f := facedRoad_side h hr he hf
  cases ht : t.turntable with
  | none => simp
  | some tt =>
    by_cases ha : t.facedRoad al .a = some q
    · have hb : t.facedRoad al .b ≠ some q := fun hb => by cases side ha hb
      cases y <;> simp [Side.deckEnd, ha, hb]
    · by_cases hb : t.facedRoad al .b = some q
      · cases y <;> simp [Side.deckEnd, ha, hb]
      · cases y <;> simp [Side.deckEnd, ha, hb]

theorem neighbourIsFound : Sys2Proof.Claims.neighbourIsFound := by
  intro s b e n y hapart hr
  have hapart : s.tables.roadsApart := hapart
  unfold State.neighbour State.beside
  dsimp only
  rw [State.deckBlock]
  by_cases hb : s.tables.turntable.map (·.deckBlock) = some b
  · rw [if_pos hb]
    simp only [Option.bind_eq_some_iff, fromDeck_eq_some, deckFaces_iff hapart, hb, ne_eq, not_true_eq_false, false_and, or_false,
      true_and]
    constructor
    · rintro ⟨al, hal, q, hq, hp⟩
      exact ⟨q, ⟨al, hal, hq⟩, hp⟩
    · rintro ⟨q, ⟨al, hal, hq⟩, hp⟩
      exact ⟨al, hal, q, hq, hp⟩
  · rw [if_neg hb]
    simp only [hb, false_and, ne_eq, not_false_eq_true, true_and, false_or]
    cases hq : s.tables.pitRoad b e with
    | some q =>
      have hpit := (pitRoad_eq_some hapart).1 hq
      have hone (p : Fin 24) (hp : s.isPitEnd b e p) : p = q := by
        rw [← pitRoad_eq_some hapart, hq] at hp
        exact (Option.some.inj hp).symm
      simp only [Option.bind_eq_some_iff, toDeck_eq_some hapart hr, deckFaces_iff hapart]
      constructor
      · rintro ⟨al, hal, hn, hf⟩
        exact .inl ⟨q, hpit, hn, al, hal, hf⟩
      · rintro (⟨p, hp, hn, al, hal, hf⟩ | ⟨hno, -⟩)
        · cases hone p hp
          exact ⟨al, hal, hn, hf⟩
        · exact absurd hpit (hno q)
    | none =>
      have hno (p : Fin 24) : ¬ s.isPitEnd b e p := by
        rw [← pitRoad_eq_some hapart, hq]
        simp
      simp only [hno, false_and, exists_false, false_or, not_false_eq_true, implies_true, true_and, ← follow_eq_some]
      rw [State.blockDef]
      cases tget s.tables.blocks b with
      | none => simp
      | some d => simp [Config.walkPoints]

end Sys2Proof.Machine
end

section
/-! SUPPORT. A block becomes OCCUPIED (O31): the candidacies, and what the Route Interlock makes of the change afterwards. -/

namespace Sys2Proof.Machine

/-! ## Candidacies (R51) -/

theorem offerOf_eq_some {s : State} {e : Side} {n : Fin 48} {y : Side} {t : Fin 24} {c : Candidacy} :
    s.offerOf e n y t = some c ↔ c.slot = t ∧ c.across = e ∧
      ((c.atHead = true ∧ (Train.blocks (tget s.trains t)).head? = some ⟨n, y⟩) ∨
        (c.atHead = false ∧ (Train.blocks (tget s.trains t)).getLast? = some ⟨n, y.other⟩ ∧
          (Train.blocks (tget s.trains t)).head? ≠ some ⟨n, y⟩)) := by
  obtain ⟨t', h, e'⟩ := c
  unfold State.offerOf
  dsimp only
  by_cases h1 : (Train.blocks (tget s.trains t)).head? = some ⟨n, y⟩
  · rw [if_pos h1]
    simp [h1, eq_comm, and_comm]
  · rw [if_neg h1]
    by_cases h2 : (Train.blocks (tget s.trains t)).getLast? = some ⟨n, y.other⟩
    · rw [if_pos h2]
      simp [h1, h2, eq_comm, and_comm]
    · rw [if_neg h2]
      simp [h1, h2]

theorem mem_candidaciesAt {s : State} {b : Fin 48} {e : Side} {c : Candidacy} : c ∈ s.candidaciesAt b e ↔
    ∃ n y, s.neighbour b e = some (n, y) ∧ s.occupiedOrHeld n = true ∧ s.offerOf e n y c.slot = some c := by
  unfold State.candidaciesAt
  cases s.neighbour b e with
  | none => simp
  | some x =>
    obtain ⟨n, y⟩ := x
    simp only [Option.some.injEq, Prod.mk.injEq]
    constructor
    · intro h
      split at h
      · rename_i ho
        obtain ⟨t, -, ht⟩ := List.mem_filterMap.1 h
        refine ⟨n, y, ⟨rfl, rfl⟩, ho, ?_⟩
        rw [(offerOf_eq_some.1 ht).1]
        exact ht
      · cases h
    · rintro ⟨_, _, ⟨rfl, rfl⟩, ho, hc⟩
      rw [if_pos ho]
      exact List.mem_filterMap.2 ⟨c.slot, mem_indices _, hc⟩

theorem candidaciesAt_nodup (s : State) (b : Fin 48) (e : Side) : (s.candidaciesAt b e).Nodup := by
  unfold State.candidaciesAt
  split
  · exact List.nodup_nil
  · split
    · refine (indices_nodup 24).filterMap fun t u c ht hu => ?_
      rw [Option.mem_def, offerOf_eq_some] at ht hu
      exact ht.1.symm.trans hu.1
    · exact List.nodup_nil

theorem across_of_mem {s : State} {b : Fin 48} {e : Side} {c : Candidacy} (h : c ∈ s.candidaciesAt b e) : c.across = e := by
  obtain ⟨n, y, -, -, hc⟩ := mem_candidaciesAt.1 h
  exact (offerOf_eq_some.1 hc).2.1

theorem mem_candidacies {s : State} {b : Fin 48} {c : Candidacy} : c ∈ s.candidacies b ↔ c ∈ s.candidaciesAt b c.across := by
  unfold State.candidacies
  rw [List.mem_append]
  constructor
  · rintro (h | h)
    · rw [across_of_mem h]; exact h
    · rw [across_of_mem h]; exact h
  · intro h
    cases ha : c.across <;> rw [ha] at h
    · exact .inl h
    · exact .inr h

theorem candidaciesAreOffered : Sys2Proof.Claims.candidaciesAreOffered := by
  intro s b
  refine ⟨List.nodup_append.2 ⟨candidaciesAt_nodup _ _ _, candidaciesAt_nodup _ _ _, ?_⟩, fun c => ?_⟩
  · rintro x hx y hy rfl
    cases (across_of_mem hx).symm.trans (across_of_mem hy)
  · rw [mem_candidacies, mem_candidaciesAt]
    constructor
    · rintro ⟨n, y, hn, ho, hc⟩
      obtain ⟨-, -, hl⟩ := offerOf_eq_some.1 hc
      cases ht : tget s.trains c.slot with
      | active k l speed overlong =>
        rw [ht] at hl
        exact ⟨n, y, k, l, speed, overlong, hn, by simpa [State.occupiedOrHeld] using ho, rfl, hl⟩
      | _ => simp [ht, Train.blocks] at hl
    · rintro ⟨n, y, k, l, speed, overlong, hn, ho, ht, hl⟩
      refine ⟨n, y, hn, by simpa [State.occupiedOrHeld] using ho, offerOf_eq_some.2 ⟨rfl, rfl, ?_⟩⟩
      rw [ht]
      exact hl

/-! ## What the Route Interlock and the Aspect Unit make of a change of occupancy -/

theorem testReleased_follows (s : State) (r : Fin 64) : Follows s (s.testReleased r) := by
  unfold State.testReleased
  split
  · exact .ite (fun _ => (setRoute_follows _ _ _).trans (callExamine_follows _)) fun _ => .refl _
  · exact .refl _

theorem releaseBlock_follows (s : State) (r : Fin 64) (d : RouteDef) (danger : Bool) (t : OverlapTimer) (m : Marks)
    (k : Nat) (b : Fin 48) : Follows s (s.releaseBlock r d danger t m k b) := by
  unfold State.releaseBlock
  extract_lets last t' s1 s2 s3
  have h3 : Follows s s3 := ((touchRoute_follows s r _).trans (unreserve_follows _ _ _)).trans
    (.foldl _ (fun u (x : PointReq) => unlock_follows u x.point) _ _)
  exact .ite (fun _ => h3.trans (.foldl _ (fun u (x : FlankReq) => unlock_follows u x.point) _ _)) fun _ => h3

theorem releaseFrom_follows (r : Fin 64) (n k : Nat) (s : State) : Follows s (State.releaseFrom r n k s) := by
  induction n generalizing k s with
  | zero => exact .refl s
  | succ n ih =>
    unfold State.releaseFrom
    split
    · split
      · exact .refl s
      · exact .ite (fun _ => (releaseBlock_follows _ _ _ _ _ _ _ _).trans (ih _ _)) fun _ => .refl s
    · exact .refl s

theorem testRelease_follows (s : State) (r : Fin 64) (k : Nat) : Follows s (s.testRelease r k) :=
  (releaseFrom_follows r 8 k s).trans (testReleased_follows _ r)

theorem enterRoute_follows (s : State) (r : Fin 64) (d : RouteDef) : Follows s (s.enterRoute r d) := by
  unfold State.enterRoute
  dsimp only
  split
  · exact setRoute_follows _ _ _
  · exact setRoute_follows _ _ _
  · exact .refl _

theorem overlapAtLast_follows (s : State) (r : Fin 64) (d : RouteDef) (b : Fin 48) : Follows s (s.overlapAtLast r d b) := by
  unfold State.overlapAtLast
  split
  · exact .ite (fun _ => touchRoute_follows _ _ _) fun _ => .refl _
  · exact .refl _

theorem routeTakesOccupied_follows (b : Fin 48) (s : State) (r : Fin 64) : Follows s (State.routeTakesOccupied b s r) := by
  unfold State.routeTakesOccupied
  split
  · exact .refl _
  · split
    · exact .ite (fun _ => enterRoute_follows _ _ _) fun _ => .refl _
    · exact .ite (fun _ => enterRoute_follows _ _ _) fun _ => .refl _
    · split
      · exact (overlapAtLast_follows s r _ b).trans (.ite (fun _ => .refl _) fun _ => testRelease_follows _ _ _)
      · exact .refl _
    · exact .refl _

theorem routesTakeOccupied_follows (s : State) (b : Fin 48) : Follows s (s.routesTakeOccupied b) :=
  .foldl _ (fun _ _ => routeTakesOccupied_follows _ _ _) _ s

theorem routesTakeClear_follows (s : State) (b : Fin 48) : Follows s (s.routesTakeClear b) :=
  (Follows.foldl _ (fun _ _ => by
    split
    · split
      · exact testRelease_follows _ _ _
      · exact .refl _
    · exact .refl _) _ s).trans (callExamine_follows _)

theorem handClear_follows (old : State) (bs : List (Fin 48)) (s : State) : Follows s (State.handClear old bs s) :=
  .foldl _ (fun _ _ => .ite (fun _ => routesTakeClear_follows _ _) fun _ => .refl _) _ s

theorem approachTakes_follows (s : State) (b : Fin 48) : Follows s (s.approachTakes b) :=
  .foldl _ (fun _ _ => by
    split
    · exact .ite (fun _ => putSignal_follows _ _ _ rfl rfl) fun _ => .refl _
    · exact .refl _) _ s

end Sys2Proof.Machine
end

section
/-! SUPPORT. A sample that makes a block OCCUPIED (O31): what the Train Register finds, and what it makes of it. -/

namespace Sys2Proof.Machine

/-! ## What the Train Register finds -/

/-- `t` is `s` after operations on the channel and the feed of block `b` that leave whether the channel reads OCCUPIED, and on
nothing else. -/
structure Sensed (b : Fin 48) (s t : State) : Prop where
  tables : t.tables = s.tables
  params : t.params = s.params
  clock : t.clock = s.clock
  trains : t.trains = s.trains
  blockFlags : t.blockFlags = s.blockFlags
  points : t.points = s.points
  groups : t.groups = s.groups
  deck : t.deck = s.deck
  channels : ∀ a, a ≠ b → tget t.channels a = tget s.channels a
  occupied : (tget t.channels b).occupied = (tget s.channels b).occupied
  marks : ∀ y ∈ s.link.reports, y ∈ t.link.reports

theorem Sensed.refl (b : Fin 48) (s : State) : Sensed b s s :=
  ⟨rfl, rfl, rfl, rfl, rfl, rfl, rfl, rfl, fun _ _ => rfl, rfl, fun _ h => h⟩

theorem Sensed.trans {b : Fin 48} {s t u : State} (h : Sensed b s t) (k : Sensed b t u) : Sensed b s u :=
  ⟨k.tables.trans h.tables, k.params.trans h.params, k.clock.trans h.clock, k.trains.trans h.trains,
    k.blockFlags.trans h.blockFlags, k.points.trans h.points, k.groups.trans h.groups, k.deck.trans h.deck,
    fun a ha => (k.channels a ha).trans (h.channels a ha), k.occupied.trans h.occupied, fun y hy => k.marks y (h.marks y hy)⟩

theorem mark_sensed (b : Fin 48) (s : State) (x : Subject) : Sensed b s (s.mark x) :=
  ⟨rfl, rfl, rfl, rfl, rfl, rfl, rfl, rfl, fun _ _ => rfl, rfl, (mark_follows s x).marks⟩

theorem settlePanel_sensed (b : Fin 48) (s : State) : Sensed b s s.settlePanel :=
  ⟨rfl, rfl, rfl, rfl, rfl, rfl, rfl, rfl, fun _ _ => rfl, rfl, fun _ h => h⟩

theorem updFeed_sensed (b : Fin 48) (s : State) (f : Feed → Feed) : Sensed b s (s.updFeed b f) :=
  ⟨rfl, rfl, rfl, rfl, rfl, rfl, rfl, rfl, fun _ _ => rfl, rfl, fun _ h => h⟩

theorem updChannel_sensed (b : Fin 48) (s : State) (f : Channel → Channel) (h : ∀ c, (f c).occupied = c.occupied) :
    Sensed b s (s.updChannel b f) :=
  ⟨rfl, rfl, rfl, rfl, rfl, rfl, rfl, rfl, fun _ ha => tget_tupd_ne _ ha.symm _,
    (congrArg Channel.occupied (tget_tupd_self _ _ _)).trans (h _), fun _ h => h⟩

theorem setFeedState_sensed (b : Fin 48) (s : State) (x : FeedState) : Sensed b s (s.setFeedState b x) := by
  unfold State.setFeedState
  split
  · exact .refl b s
  · refine (((updFeed_sensed b s _).trans (mark_sensed b _ _)).trans (updChannel_sensed b _ _ fun c => ?_)).trans
      (settlePanel_sensed b _)
    split <;> rfl

theorem latchDecision_sensed (b : Fin 48) (s : State) (k : KillMode) : Sensed b s (s.latchDecision b k) := by
  unfold State.latchDecision
  split
  · exact setFeedState_sensed b s _
  · exact (setFeedState_sensed b s _).trans (updFeed_sensed b _ _)

theorem takeOverload_sensed (b : Fin 48) (s : State) (k : KillMode) : Sensed b s (s.takeOverload b k) := by
  unfold State.takeOverload
  split
  · exact ((setFeedState_sensed b s _).trans (updFeed_sensed b _ _)).trans (latchDecision_sensed b _ k)
  · exact .refl b s

/-! ## The sample -/

theorem sample_occupied {c : Channel} {d : BlockDef} {f : FeedState} {n at' : Nat} (ho : c.occupied = false) (hh : c.held = false)
    (h : (n = 255 ∧ f = .on) ∨ (d.threshold ≤ n ∧ d.dwellOn ≤ (if c.stale then 0 else c.count) + 1)) :
    (c.sample d f n at').occupied = true := by
  unfold Channel.sample
  dsimp only
  by_cases hload : n = 255 ∧ f = .on
  · rw [if_pos hload]
  · obtain ⟨hlevel, hdwell⟩ := h.resolve_left hload
    have hc : (c.fresh at').count = if c.stale then 0 else c.count := rfl
    rw [if_neg hload, if_neg (by rw [show (c.fresh at').held = c.held from rfl, hh]; decide), Channel.ordinary,
      if_neg (by rw [show (c.fresh at').occupied = c.occupied from rfl, ho]; decide), if_pos hlevel, hc, if_pos hdwell]

/-- The channel of a block after a sample (R28 to R32). -/
def State.channelTakes (s : State) (b : Fin 48) (d : BlockDef) (n : Nat) : Channel :=
  (tget s.channels b).sample d (tget s.feeds b).state n (s.after Config.staleMs)

/-- The state after a sample that makes the block OCCUPIED, before the change is handed on. -/
def State.sensed (s : State) (b : Fin 48) (d : BlockDef) (n : Nat) : State :=
  let v := (s.updChannel b fun _ => s.channelTakes b d n).settlePanel.mark (.block b)
  if n = 255 then v.takeOverload b d.kill else v

theorem takeSample_occupies {s : State} {b : Fin 48} {d : BlockDef} {n : Nat} (ho : (tget s.channels b).occupied = false)
    (hc : (s.channelTakes b d n).occupied = true) : s.takeSample b d n = State.occupancyChanged s b (s.sensed b d n) := by
  have hne : ¬ (s.channelTakes b d n).occupied = (tget s.channels b).occupied := by rw [hc, ho]; decide
  unfold State.takeSample
  extract_lets old c c' s1 s2 s3 s4
  have hc' : c' = s.channelTakes b d n := rfl
  have hne' : ¬ c'.occupied = c.occupied := hne
  have h2 : s2 = s1.settlePanel := if_neg hne'
  have h3 : s3 = s2.mark (.block b) := if_pos (.inl hne')
  have h4 : s4 = s.sensed b d n := by
    simp only [s4, h3, h2]
    rfl
  rw [if_neg hne', h4]

/-- What the Train Register finds as block `b` becomes OCCUPIED: `s` but for the channel and the feed of `b`. -/
structure Finds (b : Fin 48) (s w : State) : Prop where
  tables : w.tables = s.tables
  params : w.params = s.params
  clock : w.clock = s.clock
  trains : w.trains = s.trains
  blockFlags : w.blockFlags = s.blockFlags
  points : w.points = s.points
  groups : w.groups = s.groups
  deck : w.deck = s.deck
  channels : ∀ a, a ≠ b → tget w.channels a = tget s.channels a
  occupied : w.occupied b = true
  mark : .block b ∈ w.link.reports

theorem sensed_finds {s : State} {b : Fin 48} {d : BlockDef} {n : Nat} (hc : (s.channelTakes b d n).occupied = true) :
    Finds b s (s.sensed b d n) := by
  let v := s.updChannel b fun _ => s.channelTakes b d n
  have hv : (tget v.channels b).occupied = true := (congrArg Channel.occupied (tget_tupd_self _ _ _)).trans hc
  have hs : Sensed b v (s.sensed b d n) ∧ .block b ∈ (s.sensed b d n).link.reports := by
    have h := (settlePanel_sensed b v).trans (mark_sensed b _ (.block b))
    have hm : .block b ∈ (v.settlePanel.mark (.block b)).link.reports := mem_mark_self _ _
    unfold State.sensed
    dsimp only
    split
    · have h' := takeOverload_sensed b (v.settlePanel.mark (.block b)) d.kill
      exact ⟨h.trans h', h'.marks _ hm⟩
    · exact ⟨h, hm⟩
  obtain ⟨⟨ht, hp, hcl, htr, hbf, hpt, hg, hd, hch, ho, -⟩, hm⟩ := hs
  exact ⟨ht, hp, hcl, htr, hbf, hpt, hg, hd, fun a ha => (hch a ha).trans (tget_tupd_ne _ ha.symm _), ho.trans hv, hm⟩

/-! ## What it is read as -/

/-- The neighbours are read from the tables, the deck, the points and the groups. -/
theorem neighbour_congr {s t : State} (ht : t.tables = s.tables) (hd : t.deck = s.deck) (hp : t.points = s.points)
    (hg : t.groups = s.groups) : t.neighbour = s.neighbour := by
  cases s; cases t
  cases ht; cases hd; cases hp; cases hg
  rfl

section
variable {b : Fin 48} {s w : State}

theorem Finds.neighbour (h : Finds b s w) : w.neighbour = s.neighbour :=
  neighbour_congr h.tables h.deck h.points h.groups

theorem listOf_congr {s t : State} (h : t.trains = s.trains) : t.listOf = s.listOf := by
  funext q
  rw [State.listOf, State.listOf, h]

theorem offerOf_unlisted {s : State} {e : Side} {y : Side} {t : Fin 24} (h : b ∉ s.listOf t) : s.offerOf e b y t = none := by
  unfold State.offerOf
  dsimp only
  have hne (z : Side) : (⟨b, z⟩ : TrainBlock) ∉ Train.blocks (tget s.trains t) := fun hz => h (List.mem_map.2 ⟨_, hz, rfl⟩)
  rw [if_neg fun hz => hne y (List.mem_of_mem_head? (Option.mem_def.2 hz)), if_neg fun hz => hne y.other (List.mem_of_getLast? hz)]

theorem Finds.candidacies (h : Finds b s w) (hb : ∀ t, b ∉ s.listOf t) : w.candidacies b = s.candidacies b := by
  have hoffer (e : Side) (n : Fin 48) (y : Side) : w.offerOf e n y = s.offerOf e n y := by
    funext t
    rw [State.offerOf, State.offerOf, h.trains]
  have hat (e : Side) : w.candidaciesAt b e = s.candidaciesAt b e := by
    unfold State.candidaciesAt
    rw [h.neighbour]
    split
    · rfl
    · rename_i n y _
      rw [hoffer]
      by_cases hn : n = b
      · subst hn
        have hnone : (indices 24).filterMap (s.offerOf e n y) = [] :=
          List.filterMap_eq_nil_iff.2 fun t _ => offerOf_unlisted (hb t)
        rw [hnone, ite_self, ite_self]
      · rw [State.occupiedOrHeld, State.occupiedOrHeld, h.channels n hn]
  rw [State.candidacies, State.candidacies, hat, hat]

theorem Finds.offered {s : State} {dt : Nat} (h : Finds b (s.later dt) w) :
    (indices 24).flatMap (w.adoptionsOf b) = s.offeredTo dt b := by
  have hn : w.neighbour = s.neighbour := h.neighbour
  have hage : w.ageOf = (s.later dt).ageOf := by
    funext x
    simp only [State.ageOf, State.ms, h.clock]
  unfold State.offeredTo
  refine List.flatMap_congr fun t _ => ?_
  have ht : tget w.trains t = tget s.trains t := by rw [h.trains]; rfl
  have hp : w.params = s.params := h.params
  unfold State.adoptionsOf
  rw [ht]
  cases tget s.trains t with
  | lost n seen speed overlong =>
    dsimp only
    rw [hage, hp, hn]
    refine if_congr Iff.rfl (congrArg _ ?_) rfl
    rw [List.filterMap_eq_flatMap_toList]
    refine List.flatMap_congr fun e _ => ?_
    cases s.neighbour b e with
    | none => rfl
    | some x =>
      by_cases hx : x.1 = seen.block
      · simp [hx]
      · simp [hx]
  | _ => rfl

end

/-! ## The exec -/

theorem goodSample_of {s : State} {b : Fin 48} {d : BlockDef} {value : Byte} (hm : s.mode ≠ .config)
    (hd : tget s.tables.blocks b = some d) :
    s.goodSample (BitVec.ofNat 7 b.val) value (recordCheck false (BitVec.ofNat 7 b.val) value) = some (b, d) := by
  have hb : (BitVec.ofNat 7 b.val).toNat = b.val := by
    rw [BitVec.toNat_ofNat]
    exact Nat.mod_eq_of_lt (by omega)
  rw [State.goodSample, if_neg (by simp [hm]), hb, index?_val]
  simp [State.blockDef, hd]

/-- A sample that makes the block OCCUPIED: the Train Register takes the change from what it finds, and what comes after it
follows. -/
theorem sample_registers {s : State} {dt : Nat} {b : Fin 48} {d : BlockDef} {value : Byte} (hm : s.mode ≠ .config)
    (hd : tget s.tables.blocks b = some d) (ho : s.becomesOccupied b d value) :
    ∃ w u, exec (sampleOf dt b value) s = .next u ∧ Finds b (s.later dt) w ∧ Follows (w.registerOccupied b) u := by
  obtain ⟨hocc, hheld, hlevel⟩ := ho
  have hc : ((s.later dt).channelTakes b d value.toNat).occupied = true := by
    refine sample_occupied hocc hheld (hlevel.imp_left fun h => ?_)
    rw [h.1]
    exact ⟨rfl, h.2⟩
  have hx : exec (sampleOf dt b value) s = .next ((s.later dt).takeSample b d value.toNat).settle := by
    show execLevelSample dt _ value _ s = _
    unfold execLevelSample
    dsimp only
    rw [goodSample_of (s := s.advance dt) hm hd]
    rfl
  have hf := sensed_finds hc
  rw [takeSample_occupies (s := s.later dt) hocc hc] at hx
  generalize (s.later dt).sensed b d value.toNat = w at hx hf
  refine ⟨w, _, hx, hf, ?_⟩
  unfold State.occupancyChanged
  dsimp only
  rw [if_pos hf.occupied]
  exact ((((handClear_follows _ _ _).trans (routesTakeOccupied_follows _ _)).trans (approachTakes_follows _ _)).trans
    (setCuesFor_follows _ _)).trans (settle_follows _)

end Sys2Proof.Machine
end

section
/-! SUPPORT. What the Train Register makes of a block that becomes OCCUPIED (O31): growth, adoption, or a stray block. -/

namespace Sys2Proof.Machine

theorem Follows.trains {s t : State} (h : Follows s t) : t.trains = s.trains := (congrArg State.trains h.steady :)

theorem Follows.blockFlags {s t : State} (h : Follows s t) : t.blockFlags = s.blockFlags := (congrArg State.blockFlags h.steady :)

/-- The block flags with the stray reason of one block given. -/
def State.flagsStray (s : State) (b : Fin 48) (r : StrayReason) : Tab BlockFlags 48 :=
  tset s.blockFlags b { tget s.blockFlags b with stray := some r }

theorem becomeStray_eqs (s : State) (b : Fin 48) (r : StrayReason) : (s.becomeStray b r).trains = s.trains ∧
    (s.becomeStray b r).blockFlags = s.flagsStray b r ∧ .block b ∈ (s.becomeStray b r).link.reports :=
  ⟨rfl, rfl, mem_mark_self _ _⟩

theorem growTrain_full {s : State} {b : Fin 48} {c : Candidacy} {n : Nat} {l : List TrainBlock} {speed : Option Nat}
    {overlong : Bool} (h : tget s.trains c.slot = .active n l speed overlong) (hl : 8 ≤ l.length) :
    s.growTrain b c = ((s.becomeStray b .overlong).putTrain c.slot (.active n l speed true)).mark (.train c.slot) := by
  unfold State.growTrain
  rw [h]
  exact if_pos hl

theorem growTrain_room {s : State} {b : Fin 48} {c : Candidacy} {n : Nat} {l : List TrainBlock} {speed : Option Nat}
    {overlong : Bool} (h : tget s.trains c.slot = .active n l speed overlong) (hl : l.length < 8) :
    s.growTrain b c = ((s.putTrain c.slot (.active n (⟨b, c.across.other⟩ :: if c.atHead then l else reversed l) speed overlong)).mark
      (.train c.slot)).mark (.block b) := by
  unfold State.growTrain
  rw [h]
  exact if_neg (Nat.not_le.2 hl)

theorem adopt_eq {s : State} {b : Fin 48} {t : Fin 24} {front : Side} {n : Nat} {seen : LastSeen} {speed : Option Nat}
    {overlong : Bool} (h : tget s.trains t = .lost n seen speed overlong) :
    s.adopt b t front = ((s.putTrain t (.active n [⟨b, front⟩] speed overlong)).mark (.train t)).mark (.block b) := by
  unfold State.adopt
  rw [h]

/-- A block in no list and not stray is sought a train. -/
theorem registerOccupied_seeks {s : State} {b : Fin 48} (hf : tget s.blockFlags b = ⟨none, false⟩) (hb : ∀ t, b ∉ s.listOf t) :
    s.registerOccupied b = s.seekTrain b := by
  unfold State.registerOccupied
  rw [hf, holder_eq_none.2 hb, if_neg (by decide), if_neg (by decide)]

section
variable {b : Fin 48} {s w : State} {dt : Nat}

theorem Finds.seeks (h : Finds b (s.later dt) w) (hf : tget s.blockFlags b = ⟨none, false⟩) (hb : ∀ t, b ∉ s.listOf t) :
    w.registerOccupied b = w.seekTrain b ∧ w.candidacies b = s.candidacies b := by
  have hx : w.blockFlags = s.blockFlags := h.blockFlags
  have hl : w.listOf = s.listOf := listOf_congr h.trains
  refine ⟨registerOccupied_seeks (by rw [hx]; exact hf) fun t => by rw [hl]; exact hb t, ?_⟩
  exact h.candidacies (s := s.later dt) hb

/-- The block has become stray, its train records left as `trains`. -/
theorem Finds.strayed (h : Finds b (s.later dt) w) {u v : State} {r : StrayReason} (hu : Follows v u)
    (hv : v.blockFlags = w.flagsStray b r) (hm : .block b ∈ v.link.reports) :
    u.trains = v.trains ∧ u.blockFlags = tset s.blockFlags b { tget s.blockFlags b with stray := some r } ∧
      u.isClear b = false ∧ .block b ∈ u.link.reports := by
  have hflags : u.blockFlags = tset s.blockFlags b { tget s.blockFlags b with stray := some r } := by
    have hx : w.blockFlags = s.blockFlags := h.blockFlags
    rw [hu.blockFlags, hv, State.flagsStray, hx]
  refine ⟨hu.trains, hflags, ?_, hu.marks _ hm⟩
  rw [State.isClear, hflags, tget_tset_self]
  simp

end

theorem singleCandidacyGrows : Sys2Proof.Claims.singleCandidacyGrows := by
  intro s dt b d value x n l speed overlong hm hd ho hh hlevel hf hb hc ht hl
  obtain ⟨w, u, hx, hw, hu⟩ := sample_registers hm hd ⟨ho, hh, hlevel⟩
  obtain ⟨hseek, hcand⟩ := hw.seeks hf hb
  have htrains : w.trains = s.trains := hw.trains
  have hflags : w.blockFlags = s.blockFlags := hw.blockFlags
  have hgrow : w.registerOccupied b = w.growTrain b x := by
    rw [hseek, State.seekTrain, hcand, hc]
  rw [hgrow, growTrain_room (by rw [htrains]; exact ht) hl] at hu
  refine ⟨u, hx, hu.trains.trans ?_, hu.blockFlags.trans hflags, hu.marks _ ?_, hu.marks _ (mem_mark_self _ _)⟩
  · rw [← htrains]
    rfl
  · exact (mark_follows _ _).marks _ (mem_mark_self _ _)

theorem otherBlocksAreSoughtATrain : Sys2Proof.Claims.otherBlocksAreSoughtATrain := by
  intro s dt b d value hm hd ho strayed offered
  obtain ⟨w, u, hx, hw, hu⟩ := sample_registers hm hd ho
  have htrains : w.trains = s.trains := hw.trains
  have hflags : w.blockFlags = s.blockFlags := hw.blockFlags
  refine ⟨fun hbr => ?_, fun hf hb => ?_⟩
  · have hreg : w.registerOccupied b = (w.updFlags b fun f => { f with bridged := false }).mark (.block b) := by
      unfold State.registerOccupied
      rw [hflags]
      exact if_pos hbr
    rw [hreg] at hu
    refine ⟨u, hx, hu.trains.trans htrains, hu.blockFlags.trans ?_, hu.marks _ (mem_mark_self _ _)⟩
    rw [← hflags]
    rfl
  · obtain ⟨hseek, hcand⟩ := hw.seeks hf hb
    have stray {r : StrayReason} (hr : w.seekTrain b = w.becomeStray b r) : strayed r s.trains [] := by
      obtain ⟨h1, h2, h3⟩ := becomeStray_eqs w b r
      rw [hseek, hr] at hu
      obtain ⟨k1, k2, k3, k4⟩ := hw.strayed hu h2 h3
      exact ⟨u, hx, k1.trans (h1.trans htrains), k2, k3, k4, by simp⟩
    refine ⟨fun x n l speed overlong hc ht hl => ?_, fun x y l hc => stray (by rw [State.seekTrain, hcand, hc]), fun hc => ?_⟩
    · have hgrow : w.seekTrain b = w.growTrain b x := by rw [State.seekTrain, hcand, hc]
      obtain ⟨h1, h2, h3⟩ := becomeStray_eqs w b .overlong
      rw [hseek, hgrow, growTrain_full (by rw [htrains]; exact ht) hl] at hu
      obtain ⟨k1, k2, k3, k4⟩ := hw.strayed hu h2 ((mark_follows _ _).marks _ h3)
      refine ⟨u, hx, k1.trans ?_, k2, k3, k4, fun y hy => ?_⟩
      · rw [← htrains]
        rfl
      · rw [List.mem_singleton.1 hy]
        exact hu.marks _ (mem_mark_self _ _)
    · have hlost : w.seekTrain b = w.seekLost b := by rw [State.seekTrain, hcand, hc]
      have hoff : (indices 24).flatMap (w.adoptionsOf b) = offered := hw.offered
      refine ⟨fun hno => stray ?_, fun t front n seen speed overlong hone ht => ?_, fun x y l hmany => stray ?_⟩
      · rw [hlost, State.seekLost, hoff, hno]
      · have hadopt : w.seekTrain b = w.adopt b t front := by rw [hlost, State.seekLost, hoff, hone]
        rw [hseek, hadopt, adopt_eq (by rw [htrains]; exact ht)] at hu
        refine ⟨u, hx, hu.trains.trans ?_, hu.blockFlags.trans hflags, hu.marks _ ?_, hu.marks _ (mem_mark_self _ _)⟩
        · rw [← htrains]
          rfl
        · exact (mark_follows _ _).marks _ (mem_mark_self _ _)
      · rw [hlost, State.seekLost, hoff, hmany]

/-- Settles O31: the neighbour and the candidacies are read off the model, and what the Train Register makes of a block that
becomes OCCUPIED stands to the end of the event, since all that comes after it follows (`sample_registers`). -/
theorem trainGrowsOntoTheBlock : Obligations.TrainGrowsOntoTheBlock :=
  ⟨neighbourIsFound, candidaciesAreOffered, singleCandidacyGrows, otherBlocksAreSoughtATrain⟩

end Sys2Proof.Machine
end

section
/-! SUPPORT. START_RUN's checks (O19): the first failure in check order. -/

namespace Sys2Proof.Machine

/-! ## The first entry that fails -/

/-- In a list in ascending order of a key, the first element that passes a test is the one of least key. -/
theorem find?_map_eq_some {α : Type} {key : α → Nat} {f : α → Bool} {l : List α} (h : l.Pairwise fun a b => key a < key b)
    {i : Nat} : (l.find? f).map key = some i ↔
      (∃ a ∈ l, key a = i ∧ f a = true) ∧ ∀ j < i, ¬ ∃ a ∈ l, key a = j ∧ f a = true := by
  induction l with
  | nil => simp
  | cons b l ih =>
    obtain ⟨hb, hl⟩ := List.pairwise_cons.1 h
    rw [List.find?_cons]
    cases hf : f b with
    | true =>
      simp only [Option.map_some, Option.some.injEq]
      constructor
      · rintro rfl
        refine ⟨⟨b, by simp, rfl, hf⟩, ?_⟩
        rintro j hj ⟨a, ha, rfl, -⟩
        rcases List.mem_cons.1 ha with rfl | ha
        · exact lt_irrefl _ hj
        · exact lt_asymm hj (hb a ha)
      · rintro ⟨⟨a, ha, rfl, -⟩, hno⟩
        rcases List.mem_cons.1 ha with rfl | ha
        · rfl
        · exact absurd ⟨b, by simp, rfl, hf⟩ (hno (key b) (hb a ha))
    | false =>
      rw [ih hl]
      simp [hf]

theorem find?_map_eq_none {α : Type} {key : α → Nat} {f : α → Bool} {l : List α} :
    (l.find? f).map key = none ↔ ∀ j, ¬ ∃ a ∈ l, key a = j ∧ f a = true := by
  rw [Option.map_eq_none_iff, List.find?_eq_none]
  exact ⟨fun h j ⟨a, ha, _, hf⟩ => h a ha hf, fun h a ha hf => h _ ⟨a, ha, rfl, hf⟩⟩

theorem indices_ascend (n : Nat) : (indices n).Pairwise fun a b => a.val < b.val :=
  List.pairwise_lt_finRange n

/-- The first entry of a table that fails (R15). -/
def Tables.firstOf (t : Tables) : CheckTable → Option Nat
  | .block => ((indices 48).find? fun i => !t.blockOk i).map (·.val)
  | .point => ((indices 64).find? fun i => !t.pointOk i).map (·.val)
  | .signal => ((indices 32).find? fun i => !t.signalOk i).map (·.val)
  | .route => ((indices 64).find? fun i => !t.routeOk i).map (·.val)
  | .turntable => if t.turntableOk then none else some 0
  | .road => ((indices 24).find? fun i => !t.roadOk i).map (·.val)
  | .trap => ((indices 4).find? fun i => !t.trapOk i).map (·.val)
  | .panel => ((indices 24).find? fun i => !t.moduleOk i).map (·.val)
  | .key => ((indices 64).find? fun i => !t.keyOk i).map (·.val)
  | .led => (t.leds.find? fun x => !t.ledOk x).map (·.1)
  | .showing => ((indices 8).find? fun i => !t.showOk i).map (·.val)
  | .cue => ((indices 16).find? fun i => !t.cueOk i).map (·.val)

theorem exists_index {n : Nat} {ok : Fin n → Bool} {i : Nat} :
    (∃ h : i < n, ok ⟨i, h⟩ = false) ↔ ∃ a ∈ indices n, a.val = i ∧ (!ok a) = true := by
  constructor
  · rintro ⟨h, hi⟩
    exact ⟨⟨i, h⟩, mem_indices _, rfl, by simp [hi]⟩
  · rintro ⟨a, -, rfl, ha⟩
    exact ⟨a.isLt, by simpa using ha⟩

theorem exists_led {t : Tables} {i : Nat} :
    (∃ d, (i, d) ∈ t.leds ∧ t.ledOk (i, d) = false) ↔ ∃ a ∈ t.leds, a.1 = i ∧ (!t.ledOk a) = true := by
  constructor
  · rintro ⟨d, hd, hi⟩
    exact ⟨(i, d), hd, rfl, by simp [hi]⟩
  · rintro ⟨a, ha, rfl, hf⟩
    exact ⟨a.2, ha, by simpa using hf⟩

/-- No entry of a table fails just where it has no first failure. -/
theorem firstOf_eq_none {t : Tables} {x : CheckTable} : t.firstOf x = none ↔ ∀ i, ¬ t.fails x i := by
  cases x with
  | turntable => cases h : t.turntableOk <;> simp [Tables.firstOf, Tables.fails, h]
  | led => simp only [Tables.firstOf, Tables.fails, find?_map_eq_none, exists_led]
  | _ => simp only [Tables.firstOf, Tables.fails, find?_map_eq_none, exists_index]

/-- The first failure of a table is its failing entry of least index. -/
theorem firstOf_eq_some {t : Tables} {x : CheckTable} (h : x = .led → t.ledsOrdered) {i : Nat} :
    t.firstOf x = some i ↔ t.fails x i ∧ ∀ j < i, ¬ t.fails x j := by
  cases x with
  | turntable =>
    cases h : t.turntableOk with
    | true => simp [Tables.firstOf, Tables.fails, h]
    | false =>
      simp only [Tables.firstOf, Tables.fails, h, Bool.false_eq_true, if_false, Option.some.injEq, and_true]
      constructor
      · rintro rfl
        exact ⟨rfl, fun j hj => absurd hj (Nat.not_lt_zero j)⟩
      · rintro ⟨rfl, -⟩
        rfl
  | led => simp only [Tables.firstOf, Tables.fails, find?_map_eq_some (h rfl), exists_led]
  | _ => simp only [Tables.firstOf, Tables.fails, find?_map_eq_some (indices_ascend _), exists_index]

/-! ## The check order -/

theorem firstBad_eq (x : CheckTable) (n : Nat) (ok : Fin n → Bool) :
    firstBad x n ok = (((indices n).find? fun i => !ok i).map (·.val)).map fun i => (x, i) := by
  rw [firstBad, Option.map_map]
  rfl

/-- The tables are checked in order: the first failure is that of the first table that has one. -/
theorem firstFailure_eq (t : Tables) :
    t.firstFailure = checkTablesInOrder.findSome? fun x => (t.firstOf x).map fun i => (x, i) := by
  have hled : ((t.leds.find? fun x => !t.ledOk x).map fun x => (CheckTable.led, x.1)) =
      (t.firstOf .led).map fun i => (CheckTable.led, i) := by
    rw [Tables.firstOf, Option.map_map]
    rfl
  have hdeck : (if t.turntableOk then none else some (CheckTable.turntable, 0)) =
      (t.firstOf .turntable).map fun i => (CheckTable.turntable, i) := by
    rw [Tables.firstOf]
    split <;> rfl
  have hcons (x : CheckTable) (l : List CheckTable) (f : CheckTable → Option (CheckTable × Nat)) :
      (x :: l).findSome? f = (f x).or (l.findSome? f) := by
    rw [List.findSome?_cons]
    cases f x <;> rfl
  rw [Tables.firstFailure, hled, hdeck]
  simp only [firstBad_eq, checkTablesInOrder, hcons, List.findSome?_nil, Option.or_none]
  rfl

theorem place_ascends : checkTablesInOrder.Pairwise fun x y => x.place < y.place := by decide

theorem mem_checkTablesInOrder (x : CheckTable) : x ∈ checkTablesInOrder := by cases x <;> decide

theorem firstFailure_eq_some {t : Tables} {x : CheckTable} {i : Nat} : t.firstFailure = some (x, i) ↔
    t.firstOf x = some i ∧ ∀ y, CheckTable.place y < CheckTable.place x → t.firstOf y = none := by
  rw [firstFailure_eq, List.findSome?_eq_some_iff]
  simp only [Option.map_eq_some_iff, Option.map_eq_none_iff]
  constructor
  · rintro ⟨before, y, after, hl, ⟨j, hj, hji⟩, hno⟩
    cases hji
    refine ⟨hj, fun y hy => hno y ?_⟩
    have hasc := place_ascends
    rw [hl, List.pairwise_append] at hasc
    obtain ⟨-, hafter, -⟩ := hasc
    have hmem := mem_checkTablesInOrder y
    rw [hl, List.mem_append, List.mem_cons] at hmem
    rcases hmem with hb | rfl | ha
    · exact hb
    · exact absurd hy (lt_irrefl _)
    · exact absurd hy (lt_asymm ((List.pairwise_cons.1 hafter).1 y ha))
  · rintro ⟨hi, hno⟩
    obtain ⟨before, after, hl⟩ := List.append_of_mem (mem_checkTablesInOrder x)
    refine ⟨before, x, after, hl, ⟨i, hi, rfl⟩, fun y hy => hno y ?_⟩
    have hasc := place_ascends
    rw [hl, List.pairwise_append] at hasc
    obtain ⟨-, -, hbefore⟩ := hasc
    exact hbefore y hy x List.mem_cons_self

theorem firstFailure_eq_none {t : Tables} : t.firstFailure = none ↔ ∀ x, t.firstOf x = none := by
  rw [firstFailure_eq, List.findSome?_eq_none_iff]
  simp only [Option.map_eq_none_iff]
  exact ⟨fun h x => h x (mem_checkTablesInOrder x), fun h x _ => h x⟩

/-! ## START_RUN refused (R15) -/

theorem not_fails_iff {n : Nat} {ok : Fin n → Bool} : (∀ i, ¬ ∃ h : i < n, ok ⟨i, h⟩ = false) ↔ ∀ a, ok a = true := by
  refine ⟨fun h a => ?_, fun h i ⟨hi, hf⟩ => by rw [h] at hf; cases hf⟩
  have := h a.val
  simpa using this

theorem firstFailure_eq_none_iff (t : Tables) : t.firstFailure = none ↔
    (∀ b, t.blockOk b = true) ∧ (∀ p, t.pointOk p = true) ∧ (∀ g, t.signalOk g = true) ∧ (∀ r, t.routeOk r = true) ∧
      t.turntableOk = true ∧ (∀ q, t.roadOk q = true) ∧ (∀ x, t.trapOk x = true) ∧ (∀ m, t.moduleOk m = true) ∧
      (∀ k, t.keyOk k = true) ∧ (∀ x ∈ t.leds, t.ledOk x = true) ∧ (∀ i, t.showOk i = true) ∧ ∀ c, t.cueOk c = true := by
  have hdeck : (∀ i, ¬ t.fails .turntable i) ↔ t.turntableOk = true := by simp [Tables.fails]
  have hled : (∀ i, ¬ t.fails .led i) ↔ ∀ x ∈ t.leds, t.ledOk x = true := by
    simp only [Tables.fails, exists_led]
    exact ⟨fun h x hx => (Bool.not_eq_false _).mp fun hf => h x.1 ⟨x, hx, rfl, by simpa using hf⟩,
      fun h i ⟨x, hx, _, hf⟩ => by simp [h x hx] at hf⟩
  simp only [firstFailure_eq_none, firstOf_eq_none]
  rw [← hdeck, ← hled]
  simp only [← not_fails_iff]
  exact ⟨fun h => ⟨h .block, h .point, h .signal, h .route, h .turntable, h .road, h .trap, h .panel, h .key, h .led, h .showing,
    h .cue⟩, fun ⟨h1, h2, h3, h4, h5, h6, h7, h8, h9, h10, h11, h12⟩ x => by cases x <;> assumption⟩

theorem firstOf_block {t : Tables} {b : Fin 48} (hb : t.blockOk b = false) (h : ∀ a, a.val < b.val → t.blockOk a = true) :
    t.firstOf .block = some b.val :=
  (firstOf_eq_some (by simp)).2 ⟨⟨b.isLt, hb⟩, fun j hj ⟨hlt, hf⟩ => by rw [h ⟨j, hlt⟩ hj] at hf; cases hf⟩

theorem firstOf_route {t : Tables} {r : Fin 64} (hr : t.routeOk r = false) (h : ∀ q, q.val < r.val → t.routeOk q = true) :
    t.firstOf .route = some r.val :=
  (firstOf_eq_some (by simp)).2 ⟨⟨r.isLt, hr⟩, fun j hj ⟨hlt, hf⟩ => by rw [h ⟨j, hlt⟩ hj] at hf; cases hf⟩

theorem startRunNamesTheFirstFailure : Sys2Proof.Claims.startRunNamesTheFirstFailure := by
  refine ⟨fun s dt tag hs => ⟨fun hm => request_refused s dt tag _ _ hs _ (if_pos hm), fun x i hm hf => ?_⟩,
    firstFailure_eq_none_iff, fun t b hb h => firstFailure_eq_some.2 ⟨firstOf_block hb h, fun y hy => by cases hy⟩,
    fun t r hb hp hg hr h => firstFailure_eq_some.2 ⟨firstOf_route hr h, fun y hy => ?_⟩, fun t x i hl => ?_⟩
  · have ht : takeStartRun () (s.frameLost dt) = (s.frameLost dt, .invalid x i) := by
      unfold takeStartRun
      rw [if_neg (by exact not_not.2 hm), show (s.frameLost dt).tables.firstFailure = some (x, i) from hf]
    refine (request_heard s dt tag _ _ hs).trans ?_
    rw [ht, pushReply_eq_replied _ tag _ rfl]
    rfl
  · rw [firstOf_eq_none]
    cases y with
    | block => exact not_fails_iff.2 hb
    | point => exact not_fails_iff.2 hp
    | signal => exact not_fails_iff.2 hg
    | _ => simp [CheckTable.place] at hy
  · rw [firstFailure_eq_some, firstOf_eq_some fun _ => hl]
    simp only [firstOf_eq_none]
    constructor
    · rintro ⟨⟨hf, hleast⟩, hbefore⟩
      refine ⟨hf, ?_⟩
      rintro y j (hy | ⟨rfl, hj⟩)
      · exact hbefore y hy j
      · exact hleast j hj
    · rintro ⟨hf, hno⟩
      exact ⟨⟨hf, fun j hj => hno x j (.inr ⟨rfl, hj⟩)⟩, fun y hy j => hno y j (.inl hy)⟩

end Sys2Proof.Machine
end

section
/-! SUPPORT. The checks of blocks, points and signals (O19, R16). -/

namespace Sys2Proof.Machine

/-- A link names what is defined. -/
def Tables.names (t : Tables) (l : Link) : Prop :=
  (∀ b y, l = .blockEnd b y → (tget t.blocks b).isSome = true) ∧ ∀ p g, l = .pointLeg p g → (tget t.points p).isSome = true

/-- A link that names what is defined is returned. -/
def Tables.returns (t : Tables) (l back : Link) : Prop :=
  (∀ b y d, l = .blockEnd b y → tget t.blocks b = some d → d.link y = back) ∧
    ∀ p g d, l = .pointLeg p g → tget t.points p = some d → d.link g = back

theorem linkDefined_iff {t : Tables} {l : Link} : t.linkDefined l = true ↔ t.names l := by
  cases l <;> simp [Tables.linkDefined, Tables.names]

theorem returned_iff {t : Tables} {l back : Link} : t.linkDefined l = true ∧ t.returned l back = true ↔
    t.names l ∧ t.returns l back := by
  rw [linkDefined_iff]
  refine and_congr_right fun hn => ?_
  cases l with
  | noLink => simp [Tables.returned, Tables.returns]
  | blockEnd b y =>
    obtain ⟨d, hd⟩ := Option.isSome_iff_exists.1 (hn.1 b y rfl)
    refine ⟨fun h => ⟨fun _ _ x hl hx => ?_, fun _ _ _ hl => by cases hl⟩, fun h => ?_⟩
    · cases hl
      cases hd.symm.trans hx
      simpa [Tables.returned, hd] using h
    · simp [Tables.returned, hd, h.1 b y d rfl hd]
  | pointLeg p g =>
    obtain ⟨d, hd⟩ := Option.isSome_iff_exists.1 (hn.2 p g rfl)
    refine ⟨fun h => ⟨fun _ _ _ hl => (by cases hl), fun _ _ x hl hx => ?_⟩, fun h => ?_⟩
    · cases hl
      cases hd.symm.trans hx
      simpa [Tables.returned, hd] using h
    · simp [Tables.returned, hd, h.2 p g d rfl hd]

theorem forall_side {P : Side → Prop} : (∀ y, P y) ↔ P .e0 ∧ P .e1 :=
  ⟨fun h => ⟨h _, h _⟩, fun ⟨h0, h1⟩ y => by cases y <;> assumption⟩

theorem forall_leg {P : Leg → Prop} : (∀ g, P g) ↔ P .toe ∧ P .normal ∧ P .reverse :=
  ⟨fun h => ⟨h _, h _, h _⟩, fun ⟨h0, h1, h2⟩ g => by cases g <;> assumption⟩

theorem lower_isEmpty {n : Nat} {i : Fin n} {f : Fin n → Bool} : (lower i f).isEmpty = true ↔ ∀ q, q.val < i.val → f q = false := by
  simp [lower, List.isEmpty_iff, List.filter_eq_nil_iff]

theorem guardOk_iff {t : Tables} {b : Fin 48} {d : BlockDef} :
    t.guardOk b d = true ↔ ∀ g, d.kind = .stop g → ∃ x, tget t.signals g = some x ∧ x.block = b := by
  unfold Tables.guardOk
  cases d.kind with
  | stop g => cases hg : tget t.signals g <;> simp [hg]
  | _ => simp

theorem isDeck_eq_true {t : Tables} {b : Fin 48} : t.isDeck b = true ↔ ∃ d, tget t.blocks b = some d ∧ d.kind = .deck := by
  unfold Tables.isDeck
  cases tget t.blocks b <;> simp

theorem deckOk_iff {t : Tables} {b : Fin 48} {d : BlockDef} : t.deckOk b d = true ↔ (d.kind = .deck → (∀ y, d.link y = .noLink) ∧
    (∀ a x, a.val < b.val → tget t.blocks a = some x → x.kind ≠ .deck) ∧ ∃ x, t.turntable = some x ∧ x.deckBlock = b) := by
  have hfirst : (lower b t.isDeck).isEmpty = true ↔ ∀ a x, a.val < b.val → tget t.blocks a = some x → x.kind ≠ .deck := by
    rw [lower_isEmpty]
    constructor
    · intro h a x ha hx hk
      have := isDeck_eq_true.2 ⟨x, hx, hk⟩
      rw [h a ha] at this
      cases this
    · intro h a ha
      rw [← Bool.not_eq_true, isDeck_eq_true]
      rintro ⟨x, hx, hk⟩
      exact h a x ha hx hk
  unfold Tables.deckOk
  by_cases hk : d.kind = .deck
  · rw [if_pos hk, forall_side]
    simp only [Bool.and_eq_true, hfirst, beq_iff_eq, hk, true_imp_iff, BlockDef.link, and_assoc]
    cases t.turntable <;> simp
  · simp [hk]

/-- The checks of a defined block (R16). -/
theorem blockOk_iff {t : Tables} {b : Fin 48} {d : BlockDef} (h : tget t.blocks b = some d) : t.blockOk b = true ↔
    (∀ y, t.names (d.link y) ∧ d.link y ≠ .blockEnd b y ∧ t.returns (d.link y) (.blockEnd b y)) ∧
      (∀ g, d.kind = .stop g → ∃ x, tget t.signals g = some x ∧ x.block = b) ∧
      (d.kind = .deck → (∀ y, d.link y = .noLink) ∧
        (∀ a x, a.val < b.val → tget t.blocks a = some x → x.kind ≠ .deck) ∧ ∃ x, t.turntable = some x ∧ x.deckBlock = b) := by
  have hy (y : Side) : (t.names (d.link y) ∧ d.link y ≠ .blockEnd b y ∧ t.returns (d.link y) (.blockEnd b y)) ↔
      (t.linkDefined (d.link y) = true ∧ t.returned (d.link y) (.blockEnd b y) = true) ∧ d.link y ≠ .blockEnd b y := by
    rw [returned_iff]
    tauto
  rw [← guardOk_iff, ← deckOk_iff, forall_side, hy, hy]
  unfold Tables.blockOk
  rw [h]
  simp only [Bool.and_eq_true, bne_iff_ne, BlockDef.link]
  tauto

theorem legOk_iff {t : Tables} {p : Fin 64} {d : PointDef} {g : Leg} : t.legOk p d g = true ↔
    t.names (d.link g) ∧ t.returns (d.link g) (.pointLeg p g) ∧ d.link g ≠ .pointLeg p g := by
  rw [← and_assoc, ← returned_iff]
  simp [Tables.legOk]

/-- A point of a drive group stands with those of lower index: one more than they are. -/
theorem lower_length {n : Nat} {p : Fin n} {f : Fin n → Bool} (h : f p = true) :
    (lower p f).length + 1 = ((indices n).filter fun q => decide (q.val ≤ p.val) && f q).length := by
  have hperm : ((indices n).filter fun q => decide (q.val ≤ p.val) && f q).Perm (p :: lower p f) := by
    refine (List.perm_ext_iff_of_nodup ((indices_nodup n).filter _) (List.nodup_cons.2
      ⟨by simp, (indices_nodup n).filter _⟩)).2 fun q => ?_
    simp only [List.mem_filter, List.mem_cons, mem_indices, true_and, Bool.and_eq_true, decide_eq_true_eq]
    constructor
    · rintro ⟨hle, hf⟩
      rcases hle.lt_or_eq with hlt | heq
      · exact .inr ⟨hlt, hf⟩
      · exact .inl (Fin.ext heq)
    · rintro (rfl | ⟨hlt, hf⟩)
      · exact ⟨le_refl _, h⟩
      · exact ⟨hlt.le, hf⟩
  rw [hperm.length_eq, List.length_cons]

theorem inGroup_eq (t : Tables) (g : Fin 8) (p : Fin 64) : t.inGroup g p = ((tget t.points p).map (·.group) == some g) := by
  unfold Tables.inGroup
  cases tget t.points p <;> simp

/-- The checks of a defined point (R16). -/
theorem pointOk_iff {t : Tables} {p : Fin 64} {d : PointDef} (h : tget t.points p = some d) : t.pointOk p = true ↔
    (∀ g, t.names (d.link g) ∧ t.returns (d.link g) (.pointLeg p g) ∧ d.link g ≠ .pointLeg p g) ∧
      ((indices 64).filter fun q => decide (q.val ≤ p.val) && (tget t.points q).map (·.group) == some d.group).length ≤ 16 := by
  have hgroup : t.inGroup d.group p = true := by simp [inGroup_eq, h]
  have hroom := lower_length (f := t.inGroup d.group) hgroup
  simp only [inGroup_eq] at hroom
  rw [← hroom, forall_leg, ← legOk_iff, ← legOk_iff, ← legOk_iff]
  unfold Tables.pointOk
  rw [h]
  simp only [Bool.and_eq_true, decide_eq_true_eq, and_assoc]
  have hin : t.inGroup d.group = fun q => (tget t.points q).map (·.group) == some d.group := funext (inGroup_eq t d.group)
  rw [hin]
  rfl

theorem moduleIs_iff {t : Tables} {m : Fin 24} {x : ModuleType} :
    t.moduleIs m x = true ↔ (tget t.modules m).map (·.type) = some x := by
  simp [Tables.moduleIs]

/-- The checks of a defined signal (R16). -/
theorem signalOk_iff {t : Tables} {g : Fin 32} {d : SignalDef} (h : tget t.signals g = some d) : t.signalOk g = true ↔
    (tget t.blocks d.block).isSome = true ∧ (tget t.modules d.lampModule).map (·.type) = some .lamp ∧
      (∀ q e, q ≠ g → tget t.signals q = some e → ¬ (e.block = d.block ∧ e.stands = d.stands)) ∧
      ∀ q e, q.val < g.val → tget t.signals q = some e → ¬ (e.lampModule = d.lampModule ∧ e.firstOutput = d.firstOutput) := by
  unfold Tables.signalOk
  rw [h]
  dsimp only
  rw [Bool.and_eq_true, Bool.and_eq_true, Bool.and_eq_true, moduleIs_iff, lower_isEmpty, List.all_eq_true, and_assoc, and_assoc]
  refine and_congr_right fun _ => and_congr_right fun _ => and_congr ?_ ?_
  · refine ⟨fun hq q e hne he hx => ?_, fun hq q _ => ?_⟩
    · have := hq q (mem_indices q)
      simp [he, hne, hx] at this
    · by_cases hqg : q = g
      · simp [hqg]
      · cases he : tget t.signals q with
        | none => simp
        | some e =>
          have := hq q e hqg he
          simpa [hqg, imp_iff_not_or] using this
  · refine ⟨fun hq q e hlt he hx => ?_, fun hq q hlt => ?_⟩
    · have := hq q hlt
      simp [he, hx] at this
    · cases he : tget t.signals q with
      | none => rfl
      | some e => simpa using hq q e hlt he

theorem trackIsChecked : Sys2Proof.Claims.trackIsChecked := by
  intro t named returned
  refine ⟨fun b h => ?_, fun b d h => blockOk_iff h, fun p h => ?_, fun p d h => pointOk_iff h, fun g h => ?_,
    fun g d h => signalOk_iff h⟩
  · simp [Tables.blockOk, h]
  · simp [Tables.pointOk, h]
  · simp [Tables.signalOk, h]

end Sys2Proof.Machine
end

section
/-! SUPPORT. The checks of a route (O19, R17). -/

namespace Sys2Proof.Machine

theorem distinct_iff {α : Type} [DecidableEq α] {l : List α} : distinct l = true ↔ l.Nodup := by
  induction l with
  | nil => simp [distinct]
  | cons a l ih => simp [distinct, ih]

/-! ## The walks -/

/-- The point list of a route names no point twice. -/
def RouteDef.pointsApart (d : RouteDef) : Prop := (d.points.map (·.point)).Nodup

theorem find?_point_eq_some {d : RouteDef} (h : d.pointsApart) {p : Fin 64} {q : PointReq} :
    (d.points.find? fun q => q.point == p) = some q ↔ q ∈ d.points ∧ q.point = p := by
  refine ⟨fun hq => ⟨List.mem_of_find?_eq_some hq, by simpa using List.find?_some hq⟩, fun ⟨hmem, hp⟩ => ?_⟩
  cases hf : d.points.find? fun q => q.point == p with
  | none => exact absurd hp (by simpa using List.find?_eq_none.1 hf q hmem)
  | some r =>
    have hr : r.point = p := by simpa using List.find?_some hf
    rw [List.inj_on_of_nodup_map h (List.mem_of_find?_eq_some hf) hmem (hr.trans hp.symm)]

theorem walkLink_eq_some {t : Tables} {d : RouteDef} (h : d.pointsApart) {n : Nat} {k : Link} {b : Fin 48} {y : Side}
    {l : List (Fin 64)} : t.walkLink d n k = some (b, y, l) ↔ l.length ≤ n ∧ LinkLeads t d k l b y := by
  induction n generalizing k l with
  | zero =>
    cases k with
    | noLink => exact ⟨fun hw => by simp [Tables.walkLink] at hw, fun ⟨_, hl⟩ => by cases hl⟩
    | blockEnd c e =>
      refine ⟨fun hw => ?_, fun ⟨_, hl⟩ => by cases hl; rfl⟩
      simp only [Tables.walkLink, Option.some.injEq, Prod.mk.injEq] at hw
      obtain ⟨rfl, rfl, rfl⟩ := hw
      exact ⟨le_refl _, .block _ _⟩
    | pointLeg p g =>
      refine ⟨fun hw => by simp [Tables.walkLink] at hw, fun ⟨hn, hl⟩ => ?_⟩
      cases hl
      simp at hn
  | succ n ih =>
    cases k with
    | noLink => exact ⟨fun hw => by simp [Tables.walkLink] at hw, fun ⟨_, hl⟩ => by cases hl⟩
    | blockEnd c e =>
      refine ⟨fun hw => ?_, fun ⟨_, hl⟩ => by cases hl; rfl⟩
      simp only [Tables.walkLink, Option.some.injEq, Prod.mk.injEq] at hw
      obtain ⟨rfl, rfl, rfl⟩ := hw
      exact ⟨Nat.zero_le _, .block _ _⟩
    | pointLeg p g =>
      have h1 : t.walkLink d (n + 1) (.pointLeg p g) = some (b, y, l) ↔
          ∃ x q out l', tget t.points p = some x ∧ (d.points.find? fun q => q.point == p) = some q ∧
            Lie.through q.lie g = some out ∧ t.walkLink d n (x.link out) = some (b, y, l') ∧ l = p :: l' := by
        simp only [Tables.walkLink, Option.bind_eq_bind, Option.bind_eq_some_iff, Option.pure_def, Option.some.injEq,
          Prod.mk.injEq]
        constructor
        · rintro ⟨x, hx, q, hq, out, ho, ⟨b', y', l'⟩, hw, rfl, rfl, rfl⟩
          exact ⟨x, q, out, l', hx, hq, ho, hw, rfl⟩
        · rintro ⟨x, q, out, l', hx, hq, ho, hw, rfl⟩
          exact ⟨x, hx, q, hq, out, ho, (b, y, l'), hw, rfl, rfl, rfl⟩
      rw [h1]
      constructor
      · rintro ⟨x, q, out, l', hx, hq, ho, hw, rfl⟩
        obtain ⟨hmem, hp⟩ := (find?_point_eq_some h).1 hq
        obtain ⟨hn, hl⟩ := ih.1 hw
        exact ⟨by simpa using hn, .point hx hmem hp (through_eq_some.1 ho) hl⟩
      · rintro ⟨hn, _ | ⟨hx, hmem, hp, hpass, hl⟩⟩
        exact ⟨_, _, _, _, hx, (find?_point_eq_some h).2 ⟨hmem, hp⟩, through_eq_some.2 hpass,
          ih.2 ⟨by simpa using hn, hl⟩, rfl⟩

theorem walkFrom_eq_some {t : Tables} {d : RouteDef} (h : d.pointsApart) {a b : Fin 48} {e y : Side} {l : List (Fin 64)} :
    t.walkFrom d a e = some (b, y, l) ↔ t.walks d a e l b y := by
  unfold Tables.walkFrom Tables.walks
  cases ha : tget t.blocks a with
  | none => simp
  | some x =>
    simp only [Option.some.injEq, exists_eq_left']
    by_cases hd : t.turntable.map (·.deckBlock) = some a
    · rw [if_pos hd]
      simp only [Option.map_eq_some_iff, Option.bind_eq_some_iff, Prod.mk.injEq, hd, true_and, ne_eq, not_true_eq_false,
        false_and, or_false]
      constructor
      · rintro ⟨⟨b', y'⟩, ⟨q, hq, hf⟩, rfl, rfl, rfl⟩
        exact ⟨rfl, q, hq, hf⟩
      · rintro ⟨rfl, q, hq, hf⟩
        exact ⟨(b, y), ⟨q, hq, hf⟩, rfl, rfl, rfl⟩
    · rw [if_neg hd]
      simp only [hd, false_and, false_or, ne_eq, not_false_eq_true, true_and]
      cases t.pitRoad a e with
      | none =>
        simp only [walkLink_eq_some h, reduceCtorEq, false_and, exists_false, false_or, true_and]
        rfl
      | some r =>
        simp only [Option.map_eq_some_iff, Option.bind_eq_some_iff, Prod.mk.injEq, Option.some.injEq, reduceCtorEq, false_and,
          or_false]
        constructor
        · rintro ⟨⟨b', y'⟩, ⟨q, hq, hf⟩, rfl, rfl, rfl⟩
          exact ⟨r, q, rfl, hq, rfl, hf⟩
        · rintro ⟨_, q, rfl, hq, rfl, hf⟩
          exact ⟨(b, y), ⟨q, hq, hf⟩, rfl, rfl, rfl⟩

theorem walkAlong_eq_some {t : Tables} {d : RouteDef} (h : d.pointsApart) {bs : List (Fin 48)} {a : Fin 48} {e : Side}
    {passed : List (Fin 64)} {sides : List Side} : t.walkAlong d a e bs = some (passed, sides) ↔ WalksAlong t d a e bs passed sides := by
  induction bs generalizing a e passed sides with
  | nil =>
    refine ⟨fun hw => ?_, fun hw => by cases hw; rfl⟩
    simp only [Tables.walkAlong, Option.some.injEq, Prod.mk.injEq] at hw
    obtain ⟨rfl, rfl⟩ := hw
    exact .nil a e
  | cons b rest ih =>
    have h1 : t.walkAlong d a e (b :: rest) = some (passed, sides) ↔ ∃ y l qs ys, t.walkFrom d a e = some (b, y, l) ∧
        t.walkAlong d b y.other rest = some (qs, ys) ∧ passed = l ++ qs ∧ sides = y :: ys := by
      simp only [Tables.walkAlong, Option.bind_eq_bind, Option.bind_eq_some_iff]
      constructor
      · rintro ⟨⟨b', y, l⟩, hw, hr⟩
        split at hr
        · rename_i hb
          subst hb
          obtain ⟨⟨qs, ys⟩, hq, hx⟩ := Option.bind_eq_some_iff.1 hr
          cases hx
          exact ⟨y, l, qs, ys, hw, hq, rfl, rfl⟩
        · cases hr
      · rintro ⟨y, l, qs, ys, hw, hq, rfl, rfl⟩
        refine ⟨(b, y, l), hw, ?_⟩
        simp [hq]
    rw [h1]
    constructor
    · rintro ⟨y, l, qs, ys, hw, hq, rfl, rfl⟩
      exact .cons ((walkFrom_eq_some h).1 hw) (ih.1 hq)
    · rintro (_ | ⟨hw, hq⟩)
      exact ⟨_, _, _, _, (walkFrom_eq_some h).2 hw, ih.2 hq, rfl, rfl⟩

/-! ## The turntable requirement -/

/-- The blocks before and after a place of a path. -/
def RouteDef.besides (d : RouteDef) (k : Nat) : List (Fin 48) :=
  (if k = 0 then [] else (d.path[k - 1]?).toList) ++ (d.path[k + 1]?).toList

/-- Block `b` is beyond the other end of the deck from road `q` (R8). -/
def Tables.faces (t : Tables) (q : Fin 24) (b : Fin 48) : Prop :=
  ∃ o x, t.opposite q = some o ∧ tget t.roads o = some x ∧ x.block = b

theorem facing_iff {t : Tables} {q : Fin 24} {b : Fin 48} :
    ((t.opposite q).bind fun o => (tget t.roads o).map (·.block)) = some b ↔ t.faces q b := by
  simp [Tables.faces, Option.bind_eq_some_iff]

/-- The turntable requirement of a route fits its path (R17). -/
def Tables.requirementFits (t : Tables) (d : RouteDef) : Prop :=
  (d.turntable = none → ∀ tt, t.turntable = some tt → tt.deckBlock ∉ d.path ++ d.overlap) ∧
    ∀ q, d.turntable = some q → ∃ tt road k, t.turntable = some tt ∧ tget t.roads q.road = some road ∧
      d.path[k]? = some tt.deckBlock ∧ tt.deckBlock ∉ d.overlap ∧
      ∀ beside, beside = d.besides k → road.block ∈ beside ∧ ∀ b ∈ beside, b = road.block ∨ t.faces q.road b

/-- The place of a block in a path that names no block twice. -/
theorem idxOf_eq_of_getElem? {l : List (Fin 48)} (h : l.Nodup) {k : Nat} {b : Fin 48} (hk : l[k]? = some b) : l.idxOf b = k := by
  obtain ⟨hlt, hb⟩ := List.getElem?_eq_some_iff.1 hk
  rw [← hb]
  exact h.idxOf_getElem k hlt

theorem routeDeckOk_iff {t : Tables} {d : RouteDef} (h : d.path.Nodup) : t.routeDeckOk d = true ↔ t.requirementFits d := by
  unfold Tables.routeDeckOk Tables.requirementFits
  cases htt : t.turntable with
  | none => cases hq : d.turntable <;> simp
  | some tt =>
    cases hq : d.turntable with
    | none => simp
    | some q =>
      simp only [reduceCtorEq, false_imp_iff, Option.some.injEq, forall_eq', true_and, exists_and_left, exists_eq_left',
        forall_eq]
      cases hr : tget t.roads q.road with
      | none => simp
      | some road =>
        have hbeside (k : Nat) : ((d.besides k).contains road.block && (d.besides k).all fun b => b == road.block ||
            ((t.opposite q.road).bind fun o => (tget t.roads o).map (·.block)) == some b) = true ↔
              road.block ∈ d.besides k ∧ ∀ b ∈ d.besides k, b = road.block ∨ t.faces q.road b := by
          simp only [Bool.and_eq_true, List.contains_iff_mem, List.all_eq_true, Bool.or_eq_true, beq_iff_eq, facing_iff]
        have hfits : (d.path.contains tt.deckBlock && !d.overlap.contains tt.deckBlock &&
            (d.besides (d.path.idxOf tt.deckBlock)).contains road.block &&
            (d.besides (d.path.idxOf tt.deckBlock)).all fun b => b == road.block ||
              ((t.opposite q.road).bind fun o => (tget t.roads o).map (·.block)) == some b) = true ↔
            tt.deckBlock ∈ d.path ∧ tt.deckBlock ∉ d.overlap ∧ road.block ∈ d.besides (d.path.idxOf tt.deckBlock) ∧
              ∀ b ∈ d.besides (d.path.idxOf tt.deckBlock), b = road.block ∨ t.faces q.road b := by
          rw [Bool.and_assoc, Bool.and_eq_true, hbeside]
          simp [and_assoc]
        refine hfits.trans ?_
        simp only [Option.some.injEq, exists_eq_left']
        constructor
        · rintro ⟨hp, ho, hb⟩
          exact ⟨_, List.getElem?_idxOf hp, ho, hb⟩
        · rintro ⟨k, hk, ho, hb⟩
          rw [idxOf_eq_of_getElem? h hk]
          exact ⟨List.mem_of_getElem? hk, ho, hb⟩

/-! ## The route -/

/-- The walks join a route up (R17): past every point of its point list, to the end at which its exit signal stands. -/
def Tables.joinsUp (t : Tables) (d : RouteDef) (g : SignalDef) : Prop :=
  ∃ passed sides, WalksAlong t d g.block g.stands (d.path ++ d.overlap) passed sides ∧ (∀ x ∈ d.points, x.point ∈ passed) ∧
    ∀ x, d.exit = some x → ∃ e, tget t.signals x = some e ∧ d.path.getLast? = some e.block ∧
      sides[d.path.length - 1]? = some e.stands.other

theorem other_eq_iff {x y : Side} : x.other = y ↔ x = y.other := by cases x <;> cases y <;> decide

theorem routeJoins_iff {t : Tables} {d : RouteDef} {g : SignalDef} (h : d.pointsApart) : t.routeJoins d g = true ↔ t.joinsUp d g := by
  have hexit (sides : List Side) : (match d.exit with
      | none => true
      | some x =>
        match tget t.signals x with
        | none => false
        | some ex => d.path.getLast? == some ex.block && (sides[d.path.length - 1]?).map Side.other == some ex.stands) = true ↔
      ∀ x, d.exit = some x → ∃ e, tget t.signals x = some e ∧ d.path.getLast? = some e.block ∧
        sides[d.path.length - 1]? = some e.stands.other := by
    cases d.exit with
    | none => simp
    | some x =>
      cases hx : tget t.signals x with
      | none => simp [hx]
      | some ex => simp [hx, other_eq_iff]
  unfold Tables.routeJoins Tables.joinsUp
  simp only [← walkAlong_eq_some h]
  cases hw : t.walkAlong d g.block g.stands (d.path ++ d.overlap) with
  | none => simp
  | some x =>
    obtain ⟨passed, sides⟩ := x
    simp only [Option.some.injEq, Prod.mk.injEq]
    rw [Bool.and_eq_true]
    constructor
    · rintro ⟨hp, he⟩
      exact ⟨passed, sides, ⟨rfl, rfl⟩, by simpa using hp, (hexit sides).1 he⟩
    · rintro ⟨_, _, ⟨rfl, rfl⟩, hp, he⟩
      exact ⟨by simpa using hp, (hexit sides).2 he⟩

/-- The checks of a defined route (R17). -/
theorem routeOk_iff {t : Tables} {r : Fin 64} {d : RouteDef} (h : tget t.routes r = some d) :
    t.routeOk r = true ↔ ∃ g, tget t.signals d.entrance = some g ∧
      (∀ x, d.exit = some x → (tget t.signals x).isSome = true) ∧
      (∀ b ∈ d.path ++ d.overlap, (tget t.blocks b).isSome = true) ∧ (d.path ++ d.overlap).Nodup ∧ g.block ∉ d.path ++ d.overlap ∧
      (∀ p ∈ d.points.map (·.point) ++ d.flank.map (·.point), (tget t.points p).isSome = true) ∧
      (d.points.map (·.point) ++ d.flank.map (·.point)).Nodup ∧ t.requirementFits d ∧
      (∀ a, d.approach = some a → (tget t.traps a.trap).isSome = true) ∧ t.joinsUp d g := by
  have hexit : (match d.exit with
      | some x => (tget t.signals x).isSome
      | none => true) = true ↔ ∀ x, d.exit = some x → (tget t.signals x).isSome = true := by
    cases d.exit <;> simp
  have happroach : (match d.approach with
      | some a => (tget t.traps a.trap).isSome
      | none => true) = true ↔ ∀ a, d.approach = some a → (tget t.traps a.trap).isSome = true := by
    cases d.approach <;> simp
  unfold Tables.routeOk
  rw [h]
  dsimp only
  cases tget t.signals d.entrance with
  | none => simp
  | some g =>
    simp only [Option.some.injEq, exists_eq_left', Bool.and_eq_true, distinct_iff, and_assoc]
    refine and_congr hexit (and_congr List.all_eq_true (and_congr_right fun hblocks => and_congr (by simp) (and_congr
      List.all_eq_true (and_congr_right fun hpoints => ?_))))
    have hpath : d.path.Nodup := hblocks.of_append_left
    have happart : d.pointsApart := hpoints.of_append_left
    exact and_congr (routeDeckOk_iff hpath) (and_congr happroach (routeJoins_iff happart))

theorem routesAreChecked : Sys2Proof.Claims.routesAreChecked := by
  intro t r
  refine ⟨fun h => ?_, fun d h => routeOk_iff h⟩
  simp [Tables.routeOk, h]

end Sys2Proof.Machine
end

section
/-! SUPPORT. The checks of the turntable, roads, traps, modules, keys, LEDs, shows and cues (O19, R18, R19). -/

namespace Sys2Proof.Machine

/-- No defined entry of lower index fits a test on entries. -/
theorem lower_entries_isEmpty {n : Nat} {α : Type} {t : Tab (Option α) n} {i : Fin n} {f : Fin n → Bool} {P : α → Prop}
    (hnone : ∀ o, tget t o = none → f o = false) (hsome : ∀ o e, tget t o = some e → (f o = true ↔ P e)) :
    (lower i f).isEmpty = true ↔ ∀ o e, o.val < i.val → tget t o = some e → ¬ P e := by
  rw [lower_isEmpty]
  constructor
  · intro h o e ho he hp
    rw [← hsome o e he, h o ho] at hp
    cases hp
  · intro h o ho
    cases he : tget t o with
    | none => exact hnone o he
    | some e => exact Bool.eq_false_iff.2 fun hf => h o e ho he ((hsome o e he).1 hf)

theorem turntableOk_iff {t : Tables} : t.turntableOk = true ↔
    ∀ x, t.turntable = some x → (tget t.blocks x.deckBlock).map (·.kind) = some .deck := by
  unfold Tables.turntableOk
  cases t.turntable with
  | none => simp
  | some x => simp [isDeck_eq_true]

theorem roadOk_iff {t : Tables} {q : Fin 24} : t.roadOk q = true ↔ ∀ d, tget t.roads q = some d →
    ∃ tt b, t.turntable = some tt ∧ tget t.blocks d.block = some b ∧ d.position ≤ tt.r - 1 ∧
      (tt.barrier = true → d.position ≠ 0) ∧ b.kind ≠ .deck ∧ (b.link0 = .noLink ∨ b.link1 = .noLink) ∧
      ∀ o e, o.val < q.val → tget t.roads o = some e → e.position ≠ d.position ∧ e.block ≠ d.block := by
  unfold Tables.roadOk
  cases tget t.roads q with
  | none => simp
  | some d =>
    simp only [Option.some.injEq, forall_eq', ← not_or, ne_eq]
    cases t.turntable with
    | none => simp
    | some tt =>
      cases tget t.blocks d.block with
      | none => simp
      | some b =>
        simp only [Bool.and_eq_true, Option.some.injEq, exists_and_left, exists_eq_left', and_assoc]
        exact and_congr (by simp) (and_congr (by simp [imp_iff_not_or]) (and_congr (by simp) (and_congr (by simp)
          (lower_entries_isEmpty (t := t.roads) (fun o h => by simp [h]) fun o e h => by simp [h]))))

theorem trapOk_iff {t : Tables} {x : Fin 4} : t.trapOk x = true ↔
    ∀ d, tget t.traps x = some d → (tget t.blocks d.block).isSome = true := by
  unfold Tables.trapOk
  cases tget t.traps x <;> simp

theorem moduleOk_iff {t : Tables} {m : Fin 24} : t.moduleOk m = true ↔ ∀ d, tget t.modules m = some d →
    ∀ o e, o.val < m.val → tget t.modules o = some e → e.address ≠ d.address ∧ ¬ (e.type = .text ∧ d.type = .text) := by
  unfold Tables.moduleOk
  cases tget t.modules m with
  | none => simp
  | some d =>
    simp only [Option.some.injEq, forall_eq', ← not_or, ne_eq]
    exact lower_entries_isEmpty (t := t.modules) (fun o h => by simp [h]) fun o e h => by simp [h]

theorem showNamed_iff {t : Tables} {i : Fin 8} : t.showNamed i = true ↔ tget t.shows i ≠ [] := by
  simp [Tables.showNamed]

theorem keyOk_iff {t : Tables} {k : Fin 64} : t.keyOk k = true ↔ ∀ d, tget t.keys k = some d →
    (tget t.modules d.panel).map (·.type) = some .keys ∧
      (∀ o e, o.val < k.val → tget t.keys o = some e → ¬ (e.panel = d.panel ∧ e.key = d.key)) ∧
      (∀ i, d.action = .startShow i → tget t.shows i ≠ []) ∧ ∀ r, d.action = .visitorRoute r → (tget t.routes r).isSome = true := by
  unfold Tables.keyOk
  cases tget t.keys k with
  | none => simp
  | some d =>
    simp only [Option.some.injEq, forall_eq', Bool.and_eq_true, moduleIs_iff, and_assoc]
    refine and_congr_right fun _ => and_congr
      (lower_entries_isEmpty (t := t.keys) (fun o h => by simp [h]) fun o e h => by simp [h]) ?_
    cases d.action <;> simp [showNamed_iff]

theorem ledOk_iff {t : Tables} {n : Nat} {m : Fin 24} {x : LedDef} (h : n / 64 = m.val) : t.ledOk (n, x) = true ↔
    (tget t.modules m).map (·.type) = some .mimic ∧
      (∀ b, x = .blockOcc b ∨ x = .blockRes b → (tget t.blocks b).isSome = true) ∧
      (∀ p, x = .pointN p ∨ x = .pointR p → (tget t.points p).isSome = true) ∧
      (∀ g, x = .signalProceed g → (tget t.signals g).isSome = true) ∧
      (∀ q, x = .road q → (tget t.roads q).isSome = true) ∧ ∀ i, x = .showing i → tget t.shows i ≠ [] := by
  unfold Tables.ledOk
  dsimp only
  rw [h, index?_val, Bool.and_eq_true]
  refine and_congr moduleIs_iff ?_
  cases x <;> simp [showNamed_iff]

theorem stepOk_iff {t : Tables} {x : Step} : t.stepOk x = true ↔
    (∀ r, x = .route r ∨ x = .cancel r ∨ (∃ w n, x = .waitRoute r w n) → (tget t.routes r).isSome = true) ∧
      ∀ q e, x = .turn q e → (tget t.roads q).isSome = true ∧ t.turntable.isSome = true := by
  cases x <;> simp [Tables.stepOk]

theorem showOk_iff {t : Tables} {i : Fin 8} : t.showOk i = true ↔ tget t.shows i = [] ∨ ((tget t.shows i).length ≤ 24 ∧
    (tget t.shows i).getLast? = some .finish ∧ ∀ x ∈ tget t.shows i,
      (∀ r, x = .route r ∨ x = .cancel r ∨ (∃ w n, x = .waitRoute r w n) → (tget t.routes r).isSome = true) ∧
        ∀ q e, x = .turn q e → (tget t.roads q).isSome = true ∧ t.turntable.isSome = true) := by
  unfold Tables.showOk
  dsimp only
  rw [Bool.or_eq_true, List.isEmpty_iff, Bool.and_eq_true, Bool.and_eq_true, List.all_eq_true, decide_eq_true_eq, beq_iff_eq,
    and_assoc]
  simp only [stepOk_iff]
  rfl

theorem cueOk_iff {t : Tables} {c : Fin 16} : t.cueOk c = true ↔ ∀ x, tget t.cues c = x →
    (∀ b, x = .blockOccupied b ∨ x = .blockCleared b → (tget t.blocks b).isSome = true) ∧
      (∀ y, x = .trapResult y → (tget t.traps y).isSome = true) ∧ (x = .turntableAligned → t.turntable.isSome = true) ∧
      (∀ r, x = .routeEntered r ∨ x = .routeFreed r → (tget t.routes r).isSome = true) ∧
      ∀ m k, x = .key m k → (tget t.modules m).map (·.type) = some .keys := by
  unfold Tables.cueOk
  simp only [forall_eq']
  cases tget t.cues c <;> simp [moduleIs_iff]

theorem otherTablesAreChecked : Sys2Proof.Claims.otherTablesAreChecked := by
  intro t typed block point route
  exact ⟨turntableOk_iff, fun _ => roadOk_iff, fun _ => trapOk_iff, fun _ => moduleOk_iff, fun _ => keyOk_iff,
    fun _ _ _ h => ledOk_iff h, fun _ => showOk_iff, fun _ => cueOk_iff⟩

/-- Settles O19: the tables are searched in check order (`firstFailure_eq_some`), and each check is what the specification asks,
the walks of a route among them (`walkAlong_eq_some`). -/
theorem startRunChecksTheTables : Obligations.StartRunChecksTheTables :=
  ⟨startRunNamesTheFirstFailure, trackIsChecked, routesAreChecked, otherTablesAreChecked⟩

end Sys2Proof.Machine
end

section
/-! SUPPORT. The requests and the timers of the Feed Switch (O24): a feed follows or settles on its demand by one change of its
state (`feedFollow_eq`, `feedSettle_eq`), which leaves the calm part and every other feed. -/

namespace Sys2Proof.Machine

/-! ## A change of one feed's state -/

theorem setFeedState_calm (s : State) (b : Fin 48) (x : FeedState) : (s.setFeedState b x).calm = s.calm :=
  (setFeedState_calmly s b x).1

theorem setFeedState_self (s : State) (b : Fin 48) : s.setFeedState b (tget s.feeds b).state = s := if_pos rfl

theorem setFeedState_feed_ne (s : State) {a b : Fin 48} (x : FeedState) (h : a ≠ b) :
    tget (s.setFeedState b x).feeds a = tget s.feeds a := by rw [setFeedState_feeds, if_neg h.symm]

theorem setFeedState_state (s : State) (b : Fin 48) (x : FeedState) : (tget (s.setFeedState b x).feeds b).state = x := by
  rw [setFeedState_feeds, if_pos rfl]

/-- A feed that changes its state is marked (R35). -/
theorem mem_setFeedState {s : State} {b : Fin 48} {x : FeedState} (h : (tget s.feeds b).state ≠ x) :
    .block b ∈ (s.setFeedState b x).link.reports := by
  unfold State.setFeedState
  rw [if_neg h]
  exact mem_mark_self _ _

/-- The state that a feed takes as its demand changes (R37). -/
def Feed.followed (f : Feed) (demand entering : Bool) : FeedState :=
  match f.state with
  | .on => if demand then .on else .off
  | .off => if demand = true ∧ f.restart = none ∧ entering = false then .on else .off
  | x => x

theorem feedFollow_eq (s : State) (b : Fin 48) :
    s.feedFollow b = s.setFeedState b ((tget s.feeds b).followed (s.feedDemand b) s.work.entering) := by
  have stays {x : FeedState} (h : (tget s.feeds b).state = x) : s.setFeedState b x = s := h ▸ setFeedState_self s b
  unfold State.feedFollow Feed.followed
  cases h : (tget s.feeds b).state with
  | on =>
    dsimp only
    split
    · exact (stays h).symm
    · rfl
  | off =>
    simp only [Bool.and_eq_true, Option.isNone_iff_eq_none, Bool.not_eq_true', and_assoc]
    split
    · rfl
    · exact (stays h).symm
  | _ => exact (stays h).symm

theorem feedSettle_eq (s : State) (b : Fin 48) : s.feedSettle b =
    s.setFeedState b (if s.feedDemand b = true ∧ (tget s.feeds b).restart = none then .on else .off) := by
  unfold State.feedSettle
  simp only [Bool.and_eq_true, Option.isNone_iff_eq_none]

/-- A part whose calm part is that of one in HUNT is in HUNT. -/
theorem rx_of_calm {s t : State} (h : t.calm = s.calm) : t.link.rx = s.link.rx := (congrArg (fun u : State => u.link.rx) h :)

/-! ## ISOLATE_FEED (R41) -/

/-- The isolated flag of a feed takes a value, and the block is marked. -/
def State.isolated (s : State) (b : Fin 48) (on : Bool) : State :=
  (s.updFeed b fun f => { f with isolated := on }).mark (.block b)

theorem isolated_feed_ne (s : State) {a b : Fin 48} (on : Bool) (h : a ≠ b) :
    tget (s.isolated b on).feeds a = tget s.feeds a := tget_tupd_ne _ h.symm _

theorem isolated_feed (s : State) (b : Fin 48) (on : Bool) :
    tget (s.isolated b on).feeds b = { tget s.feeds b with isolated := on } := tget_tupd_self _ _ _

theorem isolate_same (s : State) (b : Fin 48) : s.isolate b (tget s.feeds b).isolated = s := if_pos rfl

theorem isolate_eq {s : State} {b : Fin 48} {on : Bool} (h : on ≠ (tget s.feeds b).isolated) :
    s.isolate b on = (s.isolated b on).setFeedState b
      (({ tget s.feeds b with isolated := on } : Feed).followed ((s.isolated b on).feedDemand b) s.work.entering) := by
  rw [← isolated_feed s b on]
  exact (if_neg (Ne.symm h)).trans (feedFollow_eq (s.isolated b on) b)

theorem takeIsolateFeed_eq {s : State} {b : Fin 48} (hm : s.mode ≠ .config) (on : Bool) :
    takeIsolateFeed ⟨b, .value on⟩ s =
      if (s.blockDef b).isSome then (s.isolate b on, Reply.done) else s.refuse .notDefined := by
  unfold takeIsolateFeed
  rw [if_neg hm, index?_val]
  rfl

/-! ## RESTORE_FEED (R42) -/

theorem takeRestoreFeed_eq {s : State} {b : Fin 48} (hm : s.mode ≠ .config) :
    takeRestoreFeed b s = if (s.blockDef b).isSome then (s.restore b, Reply.done) else s.refuse .notDefined := by
  unfold takeRestoreFeed
  rw [if_neg hm, index?_val]

/-- The trip log of a feed is emptied. -/
def State.logEmptied (s : State) (b : Fin 48) : State := s.updFeed b fun f => { f with log := [] }

theorem logEmptied_feed_ne (s : State) {a b : Fin 48} (h : a ≠ b) :
    tget (s.logEmptied b).feeds a = tget s.feeds a := tget_tupd_ne _ h.symm _

theorem logEmptied_feed (s : State) (b : Fin 48) :
    tget (s.logEmptied b).feeds b = { tget s.feeds b with log := [] } := tget_tupd_self _ _ _

/-- An update of a feed that keeps its isolated flag keeps its demand. -/
theorem updFeed_demand (s : State) (b c : Fin 48) (f : Feed → Feed) (h : ∀ x, (f x).isolated = x.isolated) :
    (s.updFeed b f).feedDemand c = s.feedDemand c :=
  feedDemand_congr rfl rfl (by simp only [State.updFeed_feeds, tget_tupd]; split <;> simp [h]) (fun _ _ _ _ => rfl) fun _ _ _ => rfl

theorem restore_run {s : State} {b : Fin 48} (hl : (tget s.feeds b).state = .latched) (hm : s.mode = .run) :
    s.restore b = ((s.logEmptied b).setFeedState b
      (if s.feedDemand b = true ∧ (tget s.feeds b).restart = none then .on else .off)).settlePanel := by
  have hd : (s.logEmptied b).feedDemand b = s.feedDemand b := updFeed_demand s b b _ (by intro _; rfl)
  have h := feedSettle_eq (s.logEmptied b) b
  rw [hd, logEmptied_feed] at h
  unfold State.restore
  rw [if_pos hl, if_pos hm]
  exact congrArg State.settlePanel h

/-! ## The replies -/

theorem exec_isolateFeed {s : State} {dt : Nat} {tag : Byte} {b : Fin 48} (hs : s.hears tag) (hm : s.mode ≠ .config)
    (hd : (tget s.tables.blocks b).isSome = true) (on : Bool) :
    exec (.isolateFeed dt tag (.fields ⟨b, .value on⟩)) s = .next (((s.frameLost dt).isolate b on).pushReply tag .done) := by
  have ht : takeIsolateFeed ⟨b, .value on⟩ (s.frameLost dt) = ((s.frameLost dt).isolate b on, Reply.done) :=
    (takeIsolateFeed_eq (s := s.frameLost dt) hm on).trans (if_pos hd)
  exact (request_heard s dt tag _ _ hs).trans (by rw [ht])

theorem exec_restoreFeed {s : State} {dt : Nat} {tag : Byte} {b : Fin 48} (hs : s.hears tag) (hm : s.mode ≠ .config)
    (hd : (tget s.tables.blocks b).isSome = true) :
    exec (.restoreFeed dt tag (.fields b)) s = .next (((s.frameLost dt).restore b).pushReply tag .done) := by
  have ht : takeRestoreFeed b (s.frameLost dt) = ((s.frameLost dt).restore b, Reply.done) :=
    (takeRestoreFeed_eq (s := s.frameLost dt) hm).trans (if_pos hd)
  exact (request_heard s dt tag _ _ hs).trans (by rw [ht])

/-- A reply queued after a change of one feed's state. -/
theorem pushReply_feedState {v w : State} {b : Fin 48} {x : FeedState} (hc : w.calm = v.calm)
    (hf : w.feeds = (v.setFeedState b x).feeds) (hrx : v.link.rx = .hunt) (tag : Byte) (r : Reply) :
    (w.pushReply tag r).calm = (v.replied tag r).calm ∧ (∀ a, a ≠ b → tget (w.pushReply tag r).feeds a = tget v.feeds a) ∧
      (tget (w.pushReply tag r).feeds b).state = x := by
  have hp : (w.pushReply tag r).feeds = (v.setFeedState b x).feeds := hf
  rw [hp, pushReply_calm w tag r ((rx_of_calm hc).trans hrx), hc]
  exact ⟨rfl, fun a ha => setFeedState_feed_ne v x ha, setFeedState_state v b x⟩

theorem isolateFeed_changes {s : State} {dt : Nat} {tag : Byte} {b : Fin 48} {on : Bool} (hs : s.hears tag)
    (hm : s.mode ≠ .config) (hd : (tget s.tables.blocks b).isSome = true) (hon : on ≠ (tget s.feeds b).isolated) :
    let v := (s.frameLost dt).isolated b on
    ∃ t, exec (.isolateFeed dt tag (.fields ⟨b, .value on⟩)) s = .next t ∧ t.calm = (v.replied tag .done).calm ∧
      .block b ∈ t.link.reports ∧ (∀ a, a ≠ b → tget t.feeds a = tget s.feeds a) ∧
      (tget t.feeds b).state = ({ tget s.feeds b with isolated := on } : Feed).followed (v.feedDemand b) s.work.entering := by
  intro v
  have hx := isolate_eq (s := s.frameLost dt) (b := b) hon
  have hv : v = (s.frameLost dt).isolated b on := rfl
  have hmark : .block b ∈ v.link.reports := mem_mark_self _ _
  have hrx : v.link.rx = .hunt := rfl
  have hne (a : Fin 48) (ha : a ≠ b) : tget v.feeds a = tget s.feeds a := isolated_feed_ne _ on ha
  rw [exec_isolateFeed hs hm hd, hx, ← hv]
  clear_value v
  obtain ⟨hc, hf, hb⟩ := pushReply_feedState (setFeedState_calm v b _) rfl hrx tag Reply.done
  refine ⟨_, rfl, hc, ?_, fun a ha => (hf a ha).trans (hne a ha), hb⟩
  rw [pushReply_reports]
  exact setFeedState_marks v b _ _ hmark

theorem restoreFeed_restores {s : State} {dt : Nat} {tag : Byte} {b : Fin 48} (hs : s.hears tag) (hm : s.mode = .run)
    (hd : (tget s.tables.blocks b).isSome = true) (hl : (tget s.feeds b).state = .latched) :
    ∃ t, exec (.restoreFeed dt tag (.fields b)) s = .next t ∧
      t.calm = (((s.frameLost dt).logEmptied b).replied tag .done).calm ∧ .block b ∈ t.link.reports ∧
      (∀ a, a ≠ b → tget t.feeds a = tget s.feeds a) ∧
      (tget t.feeds b).state = if s.feedDemand b = true ∧ (tget s.feeds b).restart = none then .on else .off := by
  have hx := restore_run (s := s.frameLost dt) hl hm
  have hdem : (s.frameLost dt).feedDemand b = s.feedDemand b := rfl
  have hfeed : tget (s.frameLost dt).feeds b = tget s.feeds b := rfl
  have hne (a : Fin 48) (ha : a ≠ b) : tget ((s.frameLost dt).logEmptied b).feeds a = tget s.feeds a := logEmptied_feed_ne _ ha
  have hlatched : (tget ((s.frameLost dt).logEmptied b).feeds b).state = .latched := by rw [logEmptied_feed]; exact hl
  have hrx : ((s.frameLost dt).logEmptied b).link.rx = .hunt := rfl
  rw [exec_restoreFeed hs (by rw [hm]; decide) hd, hx, hdem, hfeed]
  generalize (s.frameLost dt).logEmptied b = v at *
  obtain ⟨hc, hf, hb⟩ := pushReply_feedState ((settlePanel_calmly _).1.trans (setFeedState_calm v b _)) rfl hrx tag Reply.done
  refine ⟨_, rfl, hc, ?_, fun a ha => (hf a ha).trans (hne a ha), hb⟩
  rw [pushReply_reports]
  refine mem_setFeedState (s := v) ?_
  rw [hlatched]
  split <;> decide

theorem restore_halt {s : State} {b : Fin 48} (hl : (tget s.feeds b).state = .latched) (hm : s.mode.isHalt = true) :
    s.restore b = s.updFeed b fun f => { f with deferred := true } := by
  refine (if_pos hl).trans (if_neg fun h => ?_)
  rw [h] at hm
  cases hm

theorem feedRequests : Sys2Proof.Claims.feedRequests := by
  intro s dt tag hs isolate restore
  refine ⟨fun hm n on => ⟨request_refused s dt tag _ _ hs _ (if_pos hm), request_refused s dt tag _ _ hs _ (if_pos hm)⟩,
    fun hm => ?_⟩
  have hm' : (s.frameLost dt).mode ≠ .config := hm
  refine ⟨fun n on hn => ⟨request_refused s dt tag _ _ hs _ ?_, request_refused s dt tag _ _ hs _ ?_⟩, fun b =>
    ⟨fun hd on => ?_, fun hd => ⟨?_, fun on hon => ?_, fun hl => ?_, fun hl => ⟨fun hh => ?_, fun hr => ?_⟩⟩⟩⟩
  · unfold takeIsolateFeed
    rw [if_neg hm', index?_none n hn]
  · unfold takeRestoreFeed
    rw [if_neg hm', index?_none n hn]
  · have hno : ¬ ((s.frameLost dt).blockDef b).isSome = true := by
      simp [State.blockDef, show (s.frameLost dt).tables = s.tables from rfl, hd]
    exact ⟨request_refused s dt tag _ _ hs _ ((takeIsolateFeed_eq hm' on).trans (if_neg hno)),
      request_refused s dt tag _ _ hs _ ((takeRestoreFeed_eq hm').trans (if_neg hno))⟩
  · refine (exec_isolateFeed hs hm hd _).trans (congrArg _ ?_)
    rw [show (s.frameLost dt).isolate b (tget s.feeds b).isolated = s.frameLost dt from isolate_same _ b]
    exact pushReply_frameTaken s dt tag _
  · intro u
    obtain ⟨t, he, hc, hmark, hne, hb⟩ := isolateFeed_changes (dt := dt) hs hm hd hon
    refine ⟨t, he, hc.trans rfl, hmark, hne, hb.trans ?_⟩
    unfold Feed.followed
    cases (tget s.feeds b).state <;> rfl
  · refine (exec_restoreFeed hs hm hd).trans (congrArg _ ?_)
    rw [show (s.frameLost dt).restore b = s.frameLost dt from if_neg hl]
    exact pushReply_frameTaken s dt tag _
  · rw [show exec (restore b) s = _ from exec_restoreFeed hs hm hd, restore_halt (s := s.frameLost dt) hl hh]
    exact congrArg _ (pushReply_eq_replied _ _ _ rfl)
  · obtain ⟨t, he, hc, hrest⟩ := restoreFeed_restores (dt := dt) hs hr hd hl
    exact ⟨t, he, hc.trans rfl, hrest⟩

/-! ## The cool timer and the restart (R40, R43) -/

/-- The cool timer of a feed is over. -/
def State.cooled (s : State) (b : Fin 48) : State := s.updFeed b fun f => { f with cool := none }

/-- The restart of a feed has fallen due. -/
def State.restartMet (s : State) (b : Fin 48) : State := s.updFeed b fun f => { f with restart := none }

theorem exec_feedCoolExpiry {s : State} {dt : Nat} {b : Fin 48} {e : Nat} (h : (tget s.feeds b).state = .cooling)
    (hc : (tget s.feeds b).cool = some e) : exec (.feedCoolExpiry dt b) s =
      .next ((((s.advance dt).advanceTo e).cooled b).feedSettle b).settlePanel := by
  show execFeedCoolExpiry dt b s = _
  unfold execFeedCoolExpiry
  simp only [State.advance_feeds, h, hc]
  rfl

theorem exec_restartDue {s : State} {dt : Nat} {b : Fin 48} {e : Nat} (h : (tget s.feeds b).restart = some e) :
    exec (.restartDue dt b) s = .next ((((s.advance dt).advanceTo e).restartMet b).feedFollow b) := by
  show execRestartDue dt b s = _
  unfold execRestartDue
  simp only [State.advance_feeds, h]
  rfl

theorem feedTimers : Sys2Proof.Claims.feedTimers := by
  intro s dt b f
  refine ⟨fun h => ?_, fun e hst hcool => ?_, fun h => ?_, fun e hres => ?_⟩
  · show execFeedCoolExpiry dt b s = _
    unfold execFeedCoolExpiry
    dsimp only
    split
    · rename_i h1 h2
      exact absurd h1 (h.resolve_right fun h3 => by rw [State.advance_feeds] at h2; rw [h3] at h2; cases h2)
    · rfl
  · intro u
    rw [exec_feedCoolExpiry hst hcool, feedSettle_eq]
    have hd : (((s.advance dt).advanceTo e).cooled b).feedDemand b = s.feedDemand b :=
      updFeed_demand ((s.advance dt).advanceTo e) b b _ (by intro _; rfl)
    have hfeed : tget (((s.advance dt).advanceTo e).cooled b).feeds b = { f with cool := none } := tget_tupd_self _ _ _
    have hne (a : Fin 48) (ha : a ≠ b) : tget (((s.advance dt).advanceTo e).cooled b).feeds a = tget s.feeds a :=
      tget_tupd_ne _ ha.symm _
    have hu : ((s.advance dt).advanceTo e).cooled b = u := rfl
    rw [hd, hfeed, hu]
    rw [hu] at hfeed hne
    clear_value u
    refine ⟨_, rfl, (settlePanel_calmly _).1.trans (setFeedState_calm _ _ _), ?_,
      fun a ha => (setFeedState_feed_ne u _ ha).trans (hne a ha), setFeedState_state u b _⟩
    refine mem_setFeedState (s := u) ?_
    rw [hfeed, show ({ f with cool := none } : Feed).state = .cooling from hst]
    split <;> decide
  · show execRestartDue dt b s = _
    unfold execRestartDue
    simp only [State.advance_feeds, show (tget s.feeds b).restart = none from h]
    rfl
  · intro u
    rw [exec_restartDue hres, feedFollow_eq]
    have hd : (((s.advance dt).advanceTo e).restartMet b).feedDemand b = s.feedDemand b :=
      updFeed_demand ((s.advance dt).advanceTo e) b b _ (by intro _; rfl)
    have hfeed : tget (((s.advance dt).advanceTo e).restartMet b).feeds b = { f with restart := none } := tget_tupd_self _ _ _
    have hne (a : Fin 48) (ha : a ≠ b) : tget (((s.advance dt).advanceTo e).restartMet b).feeds a = tget s.feeds a :=
      tget_tupd_ne _ ha.symm _
    have hw : (((s.advance dt).advanceTo e).restartMet b).work = s.work := rfl
    have hu : ((s.advance dt).advanceTo e).restartMet b = u := rfl
    rw [hd, hfeed, hw, hu]
    rw [hu] at hne
    clear_value u
    refine ⟨_, rfl, setFeedState_calm _ _ _, fun a ha => (setFeedState_feed_ne u _ ha).trans (hne a ha),
      (setFeedState_state u b _).trans ?_⟩
    unfold Feed.followed
    cases f.state <;> simp

/-- Settles O24: each request and timer changes its feed's record and then its state by its demand, once (`feedFollow_eq`,
`feedSettle_eq`). -/
theorem feedsObeyRequestsAndTimers : Obligations.FeedsObeyRequestsAndTimers := ⟨feedRequests, feedTimers⟩

end Sys2Proof.Machine
end

section
/-! SUPPORT. Sense records without effect, and staleness (O27). With no route holding elements a change of a point's proof or
failed flag is handed on to none (`watchProof_still`, `routesTakeFailed_still`). -/

namespace Sys2Proof.Machine

/-! ## Records that are discarded or ignored (R25, R26) -/

theorem levelSample_ignored {s : State} {dt : Nat} {index : BitVec 7} {value : Byte} {check : BitVec 4}
    (h : s.goodSample index value check = none) : exec (.levelSample dt index value check) s = .next (s.later dt) := by
  show execLevelSample dt index value check s = _
  unfold execLevelSample
  dsimp only
  rw [show (s.advance dt).goodSample index value check = none from h]
  rfl

theorem contactReading_ignored {s : State} {dt : Nat} {index : BitVec 7} {value : Byte} {check : BitVec 4}
    (h : s.goodReading index value check = none) : exec (.contactReading dt index value check) s = .next (s.later dt) := by
  show execContactReading dt index value check s = _
  unfold execContactReading
  dsimp only
  rw [show (s.advance dt).goodReading index value check = none from h]
  rfl

theorem goodSample_bad {s : State} {index : BitVec 7} {value : Byte} {check : BitVec 4}
    (h : check ≠ recordCheck false index value ∨ s.mode = .config ∨ 48 ≤ index.toNat) :
    s.goodSample index value check = none := by
  unfold State.goodSample
  rcases h with h | h | h
  · exact if_pos (.inl h.symm)
  · exact if_pos (.inr h)
  · rw [index?_none _ h]
    exact ite_self _

theorem goodSample_undefined {s : State} {index : BitVec 7} {value : Byte} {check : BitVec 4} {b : Fin 48}
    (hb : index.toNat = b.val) (hd : tget s.tables.blocks b = none) : s.goodSample index value check = none := by
  unfold State.goodSample
  rw [hb, index?_val]
  dsimp only
  rw [State.blockDef, hd]
  exact ite_self _

theorem goodReading_bad {s : State} {index : BitVec 7} {value : Byte} {check : BitVec 4}
    (h : check ≠ recordCheck true index value ∨ s.mode = .config ∨ 64 ≤ index.toNat) :
    s.goodReading index value check = none := by
  unfold State.goodReading
  rcases h with h | h | h
  · exact if_pos (.inl h.symm)
  · exact if_pos (.inr h)
  · rw [index?_none _ h]
    exact ite_self _

theorem goodReading_undefined {s : State} {index : BitVec 7} {value : Byte} {check : BitVec 4} {p : Fin 64}
    (hp : index.toNat = p.val) (hd : tget s.tables.points p = none) : s.goodReading index value check = none := by
  unfold State.goodReading
  rw [hp, index?_val]
  dsimp only
  rw [State.pointDef, hd]
  exact ite_self _

/-! ## Points while no route holds elements -/

theorem routesTakeProof_still {s : State} (h : ∀ r, (tget s.routes r).holds = false) (p : Fin 64) : s.routesTakeProof p = s :=
  List.foldl_fixed' (fun r => by rw [h r]; rfl) _

theorem routesTakeFailed_still {s : State} (h : ∀ r, (tget s.routes r).holds = false) (p : Fin 64) :
    s.routesTakeFailed p = s := by
  refine List.foldl_fixed' (fun r => ?_) _
  have hr := h r
  cases hx : tget s.routes r with
  | setting x m => rw [hx] at hr; cases hr
  | _ => rfl

/-- A change watched for a point's proof leaves, but for a mark, what it comes to. -/
theorem watchProof_still {s : State} {p : Fin 64} {f : State → State} (h : ∀ r, (tget (f s).routes r).holds = false) :
    (s.watchProof p f).calm = (f s).calm ∧ ∀ y ∈ (f s).link.reports, y ∈ (s.watchProof p f).link.reports := by
  unfold State.watchProof
  dsimp only
  split
  · exact ⟨rfl, fun _ hy => hy⟩
  · rw [routesTakeProof_still (s := (f s).mark (.point p)) h]
    exact ⟨rfl, (mark_follows _ _).marks⟩

/-- A command that ends its event with no route and no show waiting. -/
theorem comesTo_settled {s w u : State} {c : Instr} {marks : List Subject} (hx : exec c s = .next w.settle)
    (hc : w.calm = u.calm) (hq : u.queue = []) (hw : u.work = Work.none) (hm : ∀ y ∈ marks, y ∈ w.link.reports) :
    s.comesTo c u marks := by
  have hq' : w.queue = [] := (congrArg State.queue hc :).trans hq
  have hw' : w.work.wake = none := (congrArg (fun t : State => t.work.wake) hc :).trans (congrArg Work.wake hw :)
  exact ⟨_, hx, (settle_calm w (.inr hq') hw').trans hc, fun y hy => (settle_follows w).marks y (hm y hy)⟩

/-! ## Staleness (R32, R34) -/

theorem channelGoesStale_eq (s : State) (b : Fin 48) : s.channelGoesStale b = { s with
    channels := tset s.channels b { tget s.channels b with stale := true, count := 0, timer := none }
    link := { s.link with
      reports := if (tget s.channels b).stale = true ∨ .block b ∈ s.link.reports then s.link.reports
        else s.link.reports ++ [.block b] } } := by
  unfold State.channelGoesStale
  dsimp only
  by_cases hst : (tget s.channels b).stale = true
  · rw [if_pos hst, if_pos (.inl hst)]
    rfl
  · rw [if_neg hst]
    simp only [hst, Bool.false_eq_true, false_or]
    rfl

/-- A contact that becomes stale, before its proof is looked at: the point's disagreement count goes with the staleness (R34,
R75). -/
def State.staleContact (s : State) (p : Fin 64) : State :=
  { s with
    contacts := tset s.contacts p { tget s.contacts p with stale := true, timer := none }
    points := if (tget s.contacts p).stale then s.points else tset s.points p { tget s.points p with disagree := 0 } }

theorem contactGoesStale_calm {s : State} (h : ∀ r, (tget s.routes r).holds = false) (p : Fin 64) :
    (s.contactGoesStale p).calm = (s.staleContact p).calm ∧
      ∀ y ∈ if (tget s.contacts p).stale then [] else [Subject.point p], y ∈ (s.contactGoesStale p).link.reports := by
  unfold State.contactGoesStale State.staleContact
  dsimp only
  by_cases hst : (tget s.contacts p).stale = true
  · simp only [if_pos hst]
    exact ⟨(watchProof_still (f := fun s => s.updContact p fun c => { c with stale := true, timer := none }) h).1, by simp⟩
  · simp only [if_neg hst]
    obtain ⟨hc, hm⟩ := watchProof_still (p := p) (f := fun s => ((s.updContact p fun c =>
      { c with stale := true, timer := none }).updPoint p fun x => { x with disagree := 0 }).mark (.point p)) h
    exact ⟨hc, fun y hy => hm y (by rw [List.mem_singleton.1 hy]; exact mem_mark_self _ _)⟩

/-- Settles O27: a record that is not good and an expiry without its timer come to `State.later`, and staleness changes one
record and, of a contact, its point's count. -/
theorem badRecordsAndStaleness : Obligations.BadRecordsAndStaleness := by
  unfold Obligations.BadRecordsAndStaleness
  intro s dt
  refine ⟨fun index value check => ⟨fun h => levelSample_ignored (goodSample_bad h),
    fun b hb hd => levelSample_ignored (goodSample_undefined hb hd), fun h => contactReading_ignored (goodReading_bad h),
    fun p hp hd => contactReading_ignored (goodReading_undefined hp hd)⟩, fun b h => ?_, fun b e h => ?_, fun p h => ?_,
    fun p e hs h => ?_⟩
  · show execChannelStale dt b s = _
    unfold execChannelStale
    simp only [State.advance_channels, h]
    rfl
  · show execChannelStale dt b s = _
    unfold execChannelStale
    simp only [State.advance_channels, h]
    exact congrArg _ (channelGoesStale_eq ((s.advance dt).advanceTo e) b)
  · show execContactStale dt p s = _
    unfold execContactStale
    simp only [State.advance_contacts, h]
    rfl
  · obtain ⟨⟨hq, -, hw⟩, hfree⟩ := hs
    have hx : exec (.contactStale dt p) s = .next (((s.advance dt).advanceTo e).contactGoesStale p).settle := by
      show execContactStale dt p s = _
      unfold execContactStale
      simp only [State.advance_contacts, h]
    obtain ⟨hc, hm⟩ := contactGoesStale_calm (s := (s.advance dt).advanceTo e) hfree p
    exact comesTo_settled hx hc hq hw hm

end Sys2Proof.Machine
end

section
/-! SUPPORT. A good contact reading while no route holds elements (O28): what is recorded, what an arrival makes of a point at
rest, and what it makes of the move of a point that is MOVING. -/

namespace Sys2Proof.Machine

/-! ## A contact, a point and a group alone -/

/-- The part with one contact, one point and one drive group as given. -/
def State.atPoint (s : State) (p : Fin 64) (c : Contact) (x : PointRec) (g : Fin 8) (h : GroupRec) : State :=
  { s with contacts := tset s.contacts p c, points := tset s.points p x, groups := tset s.groups g h }

/-- `t` is `s` but for one contact, one point and one drive group, with the calm part's freedom, and these subjects are marked. -/
structure PointStands (s : State) (p : Fin 64) (c : Contact) (x : PointRec) (g : Fin 8) (h : GroupRec) (marks : List Subject)
    (t : State) : Prop where
  calm : t.calm = (s.atPoint p c x g h).calm
  marks : ∀ y ∈ marks, y ∈ t.link.reports

section
variable {s t : State} {p : Fin 64} {c : Contact} {x : PointRec} {g : Fin 8} {h : GroupRec} {marks : List Subject}

theorem PointStands.point (k : PointStands s p c x g h marks t) : tget t.points p = x := by
  have hp : t.points = tset s.points p x := (congrArg State.points k.calm :)
  rw [hp, tget_tset_self]

theorem PointStands.group (k : PointStands s p c x g h marks t) : tget t.groups g = h := by
  have hg : t.groups = tset s.groups g h := (congrArg State.groups k.calm :)
  rw [hg, tget_tset_self]

theorem PointStands.groups (k : PointStands s p c x g h marks t) : t.groups = tset s.groups g h :=
  (congrArg State.groups k.calm :)

theorem PointStands.tables (k : PointStands s p c x g h marks t) : t.tables = s.tables := (congrArg State.tables k.calm :)

theorem PointStands.clock (k : PointStands s p c x g h marks t) : t.clock = s.clock := (congrArg State.clock k.calm :)

theorem PointStands.routes (k : PointStands s p c x g h marks t) : t.routes = s.routes := (congrArg State.routes k.calm :)

theorem PointStands.updPoint (k : PointStands s p c x g h marks t) {f : PointRec → PointRec} {y : PointRec} (hy : f x = y) :
    PointStands s p c y g h marks (t.updPoint p f) where
  calm := (congrArg (fun u : State => u.updPoint p f) k.calm).trans
    (congrArg (fun z => ({ (s.atPoint p c x g h).calm with points := z } : State)) (hy ▸ tupd_tset s.points p x f))
  marks := k.marks

theorem PointStands.updGroup (k : PointStands s p c x g h marks t) {f : GroupRec → GroupRec} {y : GroupRec} (hy : f h = y) :
    PointStands s p c x g y marks (t.updGroup g f) where
  calm := (congrArg (fun u : State => u.updGroup g f) k.calm).trans
    (congrArg (fun z => ({ (s.atPoint p c x g h).calm with groups := z } : State)) (hy ▸ tupd_tset s.groups g h f))
  marks := k.marks

theorem PointStands.dropMet (k : PointStands s p c x g h marks t) (l : Lie) :
    PointStands s p c x g { h with queue := h.queue.filter fun e => !(e == (p, l)) } marks (t.dropMet g p l) :=
  PointStands.updGroup k rfl

theorem PointStands.mark (k : PointStands s p c x g h marks t) (y : Subject) :
    PointStands s p c x g h (y :: marks) (t.mark y) where
  calm := k.calm
  marks z hz := (mem_joinTail _ _ _).2 ((List.mem_cons.1 hz).symm.imp_left (k.marks z))

/-- The point is marked and the panel follows. -/
theorem PointStands.showPoint (k : PointStands s p c x g h marks t) :
    PointStands s p c x g h [.point p] ((t.mark (.point p)).settlePanel) where
  calm := (settlePanel_calmly _).1.trans k.calm
  marks y hy := by
    rw [List.mem_singleton.1 hy]
    exact mem_mark_self _ _

theorem PointStands.callExamine (k : PointStands s p c x g h marks t) : PointStands s p c x g h marks t.callExamine :=
  ⟨k.calm, k.marks⟩

/-- No route holds elements. -/
abbrev State.unheld (s : State) : Prop := ∀ r, (tget s.routes r).holds = false

theorem PointStands.unheld (k : PointStands s p c x g h marks t) (free : s.unheld) : t.unheld := by
  unfold State.unheld
  rw [k.routes]
  exact free

theorem PointStands.watchProof {f : State → State} (k : PointStands s p c x g h marks (f t)) (free : s.unheld) (q : Fin 64) :
    PointStands s p c x g h marks (t.watchProof q f) := by
  obtain ⟨hc, hm⟩ := watchProof_still (s := t) (p := q) (f := f) (k.unheld free)
  exact ⟨hc.trans k.calm, fun y hy => hm y (k.marks y hy)⟩

theorem PointStands.routesTakeFailed (k : PointStands s p c x g h marks t) (free : s.unheld) (q : Fin 64) :
    PointStands s p c x g h marks (t.routesTakeFailed q) := by
  rw [routesTakeFailed_still (k.unheld free)]
  exact k

end

/-! ## The reading recorded (R34, R66) -/

/-- A point's record after a reading that ends a staleness of its contact (R75). -/
def State.freshPoint (s : State) (p : Fin 64) : PointRec :=
  { tget s.points p with disagree := if (tget s.contacts p).stale then 0 else (tget s.points p).disagree }

/-- What a reading that is only recorded marks (R66). -/
def State.readingMarks (s : State) (p : Fin 64) (v : Reading) : List Subject :=
  if (tget s.contacts p).stale = true ∨ (tget s.contacts p).reading ≠ v then [.point p] else []

/-- A contact that has just given a good reading (R34). -/
def State.freshContact (s : State) (v : Reading) : Contact := ⟨v, false, some (s.after Config.staleMs)⟩

/-- A reading recorded, before its mark and the look at the point's proof. -/
def State.recorded (s : State) (p : Fin 64) (v : Reading) : State :=
  let u := s.updContact p fun _ => s.freshContact v
  if (tget s.contacts p).stale then u.updPoint p fun x => { x with disagree := 0 } else u

/-- A reading recorded and marked where it shows a change (R66). -/
def State.shownReading (s : State) (p : Fin 64) (v : Reading) : State :=
  if (tget s.contacts p).stale = true ∨ (tget s.contacts p).reading ≠ v then (s.recorded p v).mark (.point p)
  else s.recorded p v

theorem takeReading_eq (s : State) (p : Fin 64) (v : Reading) :
    s.takeReading p v = s.watchProof p fun w => w.shownReading p v := rfl

theorem recorded_stands (s : State) (p : Fin 64) (v : Reading) (g : Fin 8) :
    PointStands s p (s.freshContact v) (s.freshPoint p) g (tget s.groups g) [] (s.recorded p v) := by
  refine ⟨?_, by simp⟩
  unfold State.recorded State.atPoint State.freshPoint
  rw [tset_tget]
  split
  · rfl
  · rw [tset_tget]
    rfl

theorem takeReading_stands {s : State} (free : s.unheld) (p : Fin 64) (v : Reading) (g : Fin 8) :
    PointStands s p (s.freshContact v) (s.freshPoint p) g (tget s.groups g) (s.readingMarks p v) (s.takeReading p v) := by
  have k : PointStands s p (s.freshContact v) (s.freshPoint p) g (tget s.groups g) (s.readingMarks p v)
      (s.shownReading p v) := by
    unfold State.readingMarks State.shownReading
    split
    · exact (recorded_stands s p v g).mark _
    · exact recorded_stands s p v g
  rw [takeReading_eq]
  exact PointStands.watchProof (t := s) (f := fun w => w.shownReading p v) k free p

/-! ## An arrival at a point at rest (R75, R76) -/

section
variable {s t : State} {p : Fin 64} {c : Contact} {x : PointRec} {g : Fin 8} {h : GroupRec} {marks : List Subject}

theorem PointStands.takeAsFound (k : PointStands s p c x g h marks t) (free : s.unheld) {v : Reading} {l : Lie}
    (hv : v = Lie.reading l) : PointStands s p c { x with lie := some l, asFound := false } g
      { h with queue := h.queue.filter fun e => !(e == (p, l)) } [.point p] (t.takeAsFound p g v) := by
  have hl : v.lie = some l := by rw [hv]; cases l <;> rfl
  unfold State.takeAsFound
  rw [hl]
  have hlie : PointStands s p c { x with lie := some l, asFound := false } g h marks
      (t.updPoint p fun x => { x with lie := some l, asFound := false }) := k.updPoint rfl
  exact PointStands.watchProof (t := t) (f := fun u => (((u.updPoint p fun x =>
    { x with lie := some l, asFound := false }).dropMet g p l).mark (.point p)).settlePanel) (hlie.dropMet l).showPoint free p

theorem PointStands.failAtRest (k : PointStands s p c x g h marks t) (free : s.unheld) :
    PointStands s p c { x with failed := true, lie := none, disagree := 0 } g h [.point p] (t.failAtRest p) := by
  refine PointStands.routesTakeFailed (PointStands.watchProof (f := fun u => ((u.updPoint p fun x =>
    { x with failed := true, lie := none, disagree := 0 }).mark (.point p)).settlePanel) ?_ free p) free p
  exact PointStands.showPoint (PointStands.updPoint k rfl)

theorem PointStands.watchAgrees (k : PointStands s p c x g h marks t) {l : Lie} {v : Reading} (hv : v = Lie.reading l) :
    PointStands s p c { x with disagree := 0 } g h marks (t.watchArrival p l v) := by
  unfold State.watchArrival
  rw [if_pos hv]
  exact k.updPoint rfl

theorem PointStands.watchDisagrees (k : PointStands s p c x g h marks t) {l : Lie} {v : Reading} (hv : v ≠ Lie.reading l)
    (hn : x.disagree + 1 < 3) :
    PointStands s p c { x with disagree := x.disagree + 1 } g h marks (t.watchArrival p l v) := by
  unfold State.watchArrival
  rw [if_neg hv, k.point, if_pos hn]
  exact k.updPoint rfl

theorem PointStands.watchFails (k : PointStands s p c x g h marks t) (free : s.unheld) {l : Lie} {v : Reading}
    (hv : v ≠ Lie.reading l) (hn : 3 ≤ x.disagree + 1) :
    PointStands s p c { x with failed := true, lie := none, disagree := 0 } g h [.point p] (t.watchArrival p l v) := by
  unfold State.watchArrival
  rw [if_neg hv, k.point, if_neg (Nat.not_lt.2 hn)]
  exact k.failAtRest free

/-- An arrival at a point that takes its lie as found. -/
theorem PointStands.arrival_asFound (k : PointStands s p c x g h marks t) (hx : x.asFound = true) (v : Reading) :
    t.arrivalAtRest p g v = t.takeAsFound p g v := by
  unfold State.arrivalAtRest
  rw [k.point, if_pos hx]

/-- An arrival at a point that is watched. -/
theorem PointStands.arrival_watched (k : PointStands s p c x g h marks t) (hx : x.asFound = false) {l : Lie}
    (hl : x.lie = some l) (hf : x.failed = false) (v : Reading) : t.arrivalAtRest p g v = t.watchArrival p l v := by
  unfold State.arrivalAtRest
  simp only [k.point, hx, hl, hf, Bool.false_eq_true, if_false]

/-- An arrival at a point that neither takes its lie as found nor is watched. -/
theorem PointStands.arrival_none (k : PointStands s p c x g h marks t) (hx : x.asFound = false)
    (hl : x.lie = none ∨ x.failed = true) (v : Reading) : t.arrivalAtRest p g v = t := by
  unfold State.arrivalAtRest
  simp only [k.point, hx, Bool.false_eq_true, if_false]
  split
  · rename_i l hl'
    exact if_pos (hl.resolve_left (by rw [hl']; simp))
  · rfl

end

/-! ## The arrival -/

theorem contactArrives_none {s : State} {p : Fin 64} {d : PointDef} {v : Reading} (h : d.feedback = .none) :
    s.contactArrives p d v = s.takeReading p v := by
  unfold State.contactArrives
  rw [h]

theorem contactArrives_rest {s : State} {p : Fin 64} {d : PointDef} {v : Reading} (h : d.feedback ≠ .none)
    (hm : (s.takeReading p v).movingTarget p = none) :
    s.contactArrives p d v = (s.takeReading p v).arrivalAtRest p d.group v := by
  unfold State.contactArrives
  dsimp only
  rw [hm]
  cases hf : d.feedback with
  | none => exact absurd hf h
  | _ => rfl

theorem contactArrives_moving {s : State} {p : Fin 64} {d : PointDef} {v : Reading} {l : Lie} (h : d.feedback ≠ .none)
    (hm : (s.takeReading p v).movingTarget p = some l) :
    s.contactArrives p d v = (s.takeReading p v).arrivalMoving d.group d.feedback l v := by
  unfold State.contactArrives
  dsimp only
  rw [hm]
  cases hf : d.feedback with
  | none => exact absurd hf h
  | _ => rfl

theorem movingTarget_congr {s t : State} (ht : t.tables = s.tables) (hg : t.groups = s.groups) :
    t.movingTarget = s.movingTarget := by
  funext p
  simp only [State.movingTarget, State.pointDef, ht, hg]

theorem takeReading_movingTarget {s : State} (free : s.unheld) (p : Fin 64) (v : Reading) :
    (s.takeReading p v).movingTarget = s.movingTarget := by
  have k := takeReading_stands free p v 0
  exact movingTarget_congr k.tables (k.groups.trans (tset_tget _ _))

theorem goodReading_of {s : State} {p : Fin 64} {d : PointDef} {value : Byte} (hm : s.mode ≠ .config)
    (hd : tget s.tables.points p = some d) :
    s.goodReading (BitVec.ofNat 7 p.val) value (recordCheck true (BitVec.ofNat 7 p.val) value) = some (p, d) := by
  have hp : (BitVec.ofNat 7 p.val).toNat = p.val := by
    rw [BitVec.toNat_ofNat]
    exact Nat.mod_eq_of_lt (by omega)
  rw [State.goodReading, if_neg (by simp [hm]), hp, index?_val]
  simp [State.pointDef, hd]

/-- A good reading whose arrival comes to a given contact, point and group. -/
theorem reading_comesTo {s : State} {dt : Nat} {p : Fin 64} {d : PointDef} {value : Byte} (hs : s.still) (hm : s.mode ≠ .config)
    (hd : tget s.tables.points p = some d) {c : Contact} {x : PointRec} {g : Fin 8} {h : GroupRec} {marks : List Subject}
    (k : PointStands (s.later dt) p c x g h marks ((s.later dt).contactArrives p d (readContact value))) :
    s.comesTo (.contactReading dt (BitVec.ofNat 7 p.val) value (recordCheck true (BitVec.ofNat 7 p.val) value))
      ((s.later dt).atPoint p c x g h) marks := by
  obtain ⟨⟨hq, -, hw⟩, -⟩ := hs
  refine comesTo_settled (w := (s.later dt).contactArrives p d (readContact value)) ?_ k.calm hq hw k.marks
  show execContactReading dt _ value _ s = _
  unfold execContactReading
  dsimp only
  rw [goodReading_of (s := s.advance dt) hm hd]
  rfl

theorem contactAtRest : Sys2Proof.Claims.contactAtRest := by
  intro s dt p d value hs hm hd c v x g u marks
  have free : (s.later dt).unheld := hs.2
  have k : PointStands (s.later dt) p ((s.later dt).freshContact v) x d.group g marks ((s.later dt).takeReading p v) :=
    takeReading_stands free p v d.group
  refine ⟨fun hf => reading_comesTo hs hm hd ?_, fun hf hrest => ?_⟩
  · rw [contactArrives_none hf]
    exact k
  · have hr : ((s.later dt).takeReading p v).movingTarget p = none :=
      (congrFun (takeReading_movingTarget free p v) p).trans hrest
    have harr : (s.later dt).contactArrives p d (readContact value) = ((s.later dt).takeReading p v).arrivalAtRest p d.group v :=
      contactArrives_rest hf hr
    refine ⟨fun hx hv => reading_comesTo hs hm hd ?_, fun l hx hv => reading_comesTo hs hm hd ?_,
      fun hx hl => reading_comesTo hs hm hd ?_, fun l hx hl hfail => ⟨fun hv => reading_comesTo hs hm hd ?_,
        fun hv hn => reading_comesTo hs hm hd ?_, fun hv hn => reading_comesTo hs hm hd ?_⟩⟩
    all_goals rw [harr]
    · rw [k.arrival_asFound hx, hv]
      rw [hv] at k
      exact k
    · rw [k.arrival_asFound hx]
      exact k.takeAsFound free hv
    · rw [k.arrival_none hx hl]
      exact k
    · rw [k.arrival_watched hx hl hfail]
      exact k.watchAgrees hv
    · rw [k.arrival_watched hx hl hfail]
      exact k.watchDisagrees hv hn
    · rw [k.arrival_watched hx hl hfail]
      exact k.watchFails free hv hn

/-! ## An arrival at a point that is MOVING (R72, R73) -/

section
variable {s t : State} {p : Fin 64} {c : Contact} {x : PointRec} {g : Fin 8} {h : GroupRec} {marks : List Subject}

/-- A move decided as having come to its target (R70). -/
theorem PointStands.decideIsSet (k : PointStands s p c x g h marks t) (free : s.unheld) {m : Move} (hm : h.current = some m)
    (hp : m.point = p) : PointStands s p c { x with lie := some m.target, failed := false } g
      { h with outcome := some .isSet, queue := h.queue.filter fun e => !(e == (p, m.target)) } [.point p]
      (t.decideMove g .isSet) := by
  subst hp
  have hcur : (tget t.groups g).current = some m := by rw [k.group]; exact hm
  have hset : PointStands s m.point c x g { h with outcome := some .isSet } marks
      (t.updGroup g fun y => { y with outcome := some .isSet }) := k.updGroup rfl
  have hlie : PointStands s m.point c { x with lie := some m.target, failed := false } g { h with outcome := some .isSet } marks
      ((t.updGroup g fun y => { y with outcome := some .isSet }).updPoint m.point fun y =>
        { y with lie := some m.target, failed := false }) := hset.updPoint rfl
  have hwatch := PointStands.watchProof (t := t) (f := fun u => ((((u.updGroup g fun y =>
    { y with outcome := some .isSet }).updPoint m.point fun y => { y with lie := some m.target, failed := false }).dropMet g
      m.point m.target).mark (.point m.point)).settlePanel) (hlie.dropMet m.target).showPoint free m.point
  unfold State.decideMove
  rw [hcur]
  exact hwatch.callExamine

/-- A RECOVERY whose time runs on lasts (R74). -/
theorem PointStands.recoveryLasts (k : PointStands s p c x g h marks t) (ht : h.phaseTimer ≠ none) : t.testRecovery g = t := by
  unfold State.testRecovery
  dsimp only
  rw [k.group]
  exact if_neg fun hx => ht hx.2.1

/-- A RECOVERY whose time is over ends with its decided move, and with an empty queue no move begins (R69, R74). -/
theorem PointStands.recoveryEnds (k : PointStands s p c x g h marks t) (hp : h.phase = .recovery) (ht : h.phaseTimer = none)
    (ho : h.outcome.isSome = true) (hq : h.queue = []) :
    PointStands s p c x g { h with phase := .idle, current := none, outcome := none, windowTimer := none } marks
      (t.testRecovery g) := by
  have k' : PointStands s p c x g { h with phase := .idle, current := none, outcome := none, windowTimer := none } marks
      (t.updGroup g fun y => { y with phase := .idle, current := none, outcome := none, windowTimer := none }) := k.updGroup rfl
  have hstart := startMove_none (g := g) (.inl (by rw [k'.group]; exact hq))
  unfold State.testRecovery
  dsimp only
  rw [k.group, if_pos ⟨hp, ht, ho⟩, hstart]
  exact k'

/-- RECOVERY begins (R71 to R73), and with a recovery time of its own it lasts. -/
theorem PointStands.enterRecovery (k : PointStands s p c x g h marks t) (hr : 0 < (tget s.tables.groups g).recovery) (w : Timer) :
    PointStands s p c x g { h with
      phase := .recovery, current := h.current.map fun m => { m with phaseAt := s.clock.us }
      phaseTimer := some (s.after (tget s.tables.groups g).recovery), windowTimer := w } marks (t.enterRecovery g w) := by
  have hstart : t.startTimer (t.profile g).recovery = some (s.after (tget s.tables.groups g).recovery) := by
    rw [State.startTimer, State.profile, k.tables, if_neg (Nat.pos_iff_ne_zero.1 hr), State.after, State.after, k.clock]
  have k' : PointStands s p c x g { h with
      phase := .recovery, current := h.current.map fun m => { m with phaseAt := s.clock.us }
      phaseTimer := some (s.after (tget s.tables.groups g).recovery), windowTimer := w } marks (t.updGroup g fun y => { y with
        phase := .recovery, current := y.current.map fun m => { m with phaseAt := t.clock.us }
        phaseTimer := t.startTimer (t.profile g).recovery, windowTimer := w }) := k.updGroup (by rw [hstart, k.clock])
  unfold State.enterRecovery
  rw [k'.recoveryLasts (by simp)]
  exact k'

/-- A HOLD pulse held on past its time ends as its contact reads the target (R72). -/
theorem PointStands.holdEnds (k : PointStands s p c x g h marks t) (free : s.unheld) {m : Move} (hm : h.current = some m)
    (hp : m.point = p) (hq : h.queue = []) (hr : 0 < (tget s.tables.groups g).recovery) (hph : h.phase = .pulse)
    (ht : h.phaseTimer = none) :
    PointStands s p c { x with lie := some m.target, failed := false } g { h with
      phase := .recovery, current := some { m with phaseAt := s.clock.us }, outcome := some .isSet
      phaseTimer := some (s.after (tget s.tables.groups g).recovery), windowTimer := none } [.point p]
      (t.arrivalMoving g .hold m.target (Lie.reading m.target)) := by
  have k' := (k.decideIsSet free hm hp).enterRecovery hr none
  simp only [hm, hq, List.filter_nil, Option.map_some] at k'
  unfold State.arrivalMoving
  simp only [k.group, hph, ht, ne_eq, not_true_eq_false, if_false, if_true]
  rw [← hq] at k'
  exact k'

/-- A CONFIRM move in RECOVERY is decided as its contact reads the target (R73). -/
theorem PointStands.confirmDecided (k : PointStands s p c x g h marks t) (free : s.unheld) {m : Move} (hm : h.current = some m)
    (hp : m.point = p) (hq : h.queue = []) (hph : h.phase = .recovery) :
    PointStands s p c { x with lie := some m.target, failed := false } g
      (if h.phaseTimer = none then { h with phase := .idle, current := none, outcome := none, windowTimer := none }
        else { h with outcome := some .isSet, windowTimer := none }) [.point p]
      (t.arrivalMoving g .confirm m.target (Lie.reading m.target)) := by
  have kw : PointStands s p c x g { h with windowTimer := none } marks (t.updGroup g fun y => { y with windowTimer := none }) :=
    k.updGroup rfl
  have k' := kw.decideIsSet free hm hp
  have harr : t.arrivalMoving g .confirm m.target (Lie.reading m.target) =
      ((t.updGroup g fun y => { y with windowTimer := none }).decideMove g .isSet).testRecovery g := by
    unfold State.arrivalMoving
    simp only [k.group, hph, ne_eq, not_true_eq_false, if_false]
  rw [harr]
  split
  · rename_i ht
    have ke := k'.recoveryEnds hph ht rfl (by simp [hq])
    simp only [hq, List.filter_nil] at ke
    rw [← hq] at ke
    exact ke
  · rename_i ht
    rw [k'.recoveryLasts ht]
    simp only [hq, List.filter_nil] at k'
    rw [← hq] at k'
    exact k'

/-- Every other arrival at a point that is MOVING is only recorded (R72, R73). -/
theorem PointStands.arrival_recorded (k : PointStands s p c x g h marks t) {f : Feedback} {l : Lie} {v : Reading}
    (hv : v = Lie.reading l → ¬ (f = .hold ∧ h.phase = .pulse ∧ h.phaseTimer = none) ∧
      ¬ (f = .confirm ∧ h.phase = .recovery)) :
    t.arrivalMoving g f l v = t := by
  unfold State.arrivalMoving
  simp only [k.group]
  by_cases hl : v = Lie.reading l
  · obtain ⟨hhold, hconfirm⟩ := hv hl
    rw [if_neg (not_not.2 hl)]
    cases f with
    | none => rfl
    | hold =>
      cases hph : h.phase with
      | pulse => exact if_neg fun ht => hhold ⟨rfl, hph, ht⟩
      | _ => rfl
    | confirm =>
      cases hph : h.phase with
      | recovery => exact absurd ⟨rfl, hph⟩ hconfirm
      | _ => rfl
  · exact if_pos hl

end

theorem contactWhileMoving : Sys2Proof.Claims.contactWhileMoving := by
  intro s dt p d m value hs hm hd hcur hp hout hq hrec c v x g now u there recorded
  have free : (s.later dt).unheld := hs.2
  have k : PointStands (s.later dt) p ((s.later dt).freshContact v) x d.group g ((s.later dt).readingMarks p v)
      ((s.later dt).takeReading p v) := takeReading_stands free p v d.group
  have hmove : ((s.later dt).takeReading p v).movingTarget p = some m.target := by
    refine (congrFun (takeReading_movingTarget free p v) p).trans ?_
    exact movingTarget_eq_some.2 ⟨d, m, hd, hcur, hout, hp, rfl⟩
  have harr (hf : d.feedback ≠ .none) : (s.later dt).contactArrives p d (readContact value) =
      ((s.later dt).takeReading p v).arrivalMoving d.group d.feedback m.target v := contactArrives_moving hf hmove
  have isRecorded (hf : d.feedback ≠ .none) (hv : v = Lie.reading m.target →
      ¬ (d.feedback = .hold ∧ g.phase = .pulse ∧ g.phaseTimer = none) ∧ ¬ (d.feedback = .confirm ∧ g.phase = .recovery)) :
      recorded := by
    refine reading_comesTo hs hm hd ?_
    rw [harr hf, k.arrival_recorded hv]
    exact k
  have confirmed (hv : v = Lie.reading m.target) (hf : d.feedback = .confirm) (hph : g.phase = .recovery) :
      s.comesTo c (u there (if g.phaseTimer = none then
        { g with phase := .idle, current := none, outcome := none, windowTimer := none }
        else { g with outcome := some .isSet, windowTimer := none })) [.point p] := by
    refine reading_comesTo hs hm hd ?_
    rw [harr (by rw [hf]; decide), hf, hv]
    rw [hv] at k
    exact k.confirmDecided free hcur hp hq hph
  refine ⟨fun h => ?_, fun hv => ⟨fun hf => ⟨fun hph ht => ?_, fun h => ?_⟩,
    fun hf => ⟨fun hph ht => ?_, fun hph ht => ?_, fun hph => ?_⟩⟩⟩
  · by_cases hf : d.feedback = .none
    · refine reading_comesTo hs hm hd ?_
      rw [contactArrives_none hf]
      exact k
    · exact isRecorded hf fun hv => absurd hv (h.resolve_right hf)
  · refine reading_comesTo hs hm hd ?_
    rw [harr (by rw [hf]; decide), hf, hv]
    rw [hv] at k
    exact k.holdEnds free hcur hp hq hrec hph ht
  · refine isRecorded (by rw [hf]; decide) fun _ => ⟨fun hx => ?_, fun hx => by rw [hf] at hx; cases hx.1⟩
    exact h.elim (· hx.2.1) (· hx.2.2)
  · have := confirmed hv hf hph
    rwa [if_neg ht] at this
  · have := confirmed hv hf hph
    rwa [if_pos ht] at this
  · exact isRecorded (by rw [hf]; decide) fun _ => ⟨fun hx => (by rw [hf] at hx; cases hx.1), fun hx => hph hx.2⟩

/-- Settles O28: with no route holding elements a reading changes its contact, its point and that point's group alone
(`PointStands`), by the arrival's case. -/
theorem contactReadings : Obligations.ContactReadings := ⟨contactAtRest, contactWhileMoving⟩

end Sys2Proof.Machine
end

section
/-! SUPPORT. The dwell counts of occupancy (O26): what a sample makes of its channel stands to the end of the event, since all
that is handed on leaves the channel but for its hold, and leaves a feed that holds its channel (`DetectionStands`). -/

namespace Sys2Proof.Machine

/-! ## What a change of occupancy leaves of the Detection Unit -/

/-- `t` is `s` after changes that leave the channel of block `b`, but for the hold of a feed that holds no more, that leave its
feed where it holds the channel, and that keep the marks. -/
structure DetectionStands (b : Fin 48) (s t : State) : Prop where
  channel : tget t.channels b = tget s.channels b ∨
    ((tget s.feeds b).state.holds = false ∧ tget t.channels b = { tget s.channels b with held := false })
  feed : (tget s.feeds b).state.holds = true → tget t.feeds b = tget s.feeds b
  marks : ∀ y ∈ s.link.reports, y ∈ t.link.reports

theorem DetectionStands.trans {b : Fin 48} {s t u : State} (h : DetectionStands b s t) (k : DetectionStands b t u) :
    DetectionStands b s u where
  channel := by
    rcases h.channel with h1 | ⟨hf, h1⟩ <;> rcases k.channel with k1 | ⟨kf, k1⟩
    · exact .inl (k1.trans h1)
    · refine .inr ⟨?_, by rw [k1, h1]⟩
      by_contra hs
      rw [h.feed (by simpa using hs)] at kf
      exact hs kf
    · exact .inr ⟨hf, by rw [k1, h1]⟩
    · exact .inr ⟨hf, by rw [k1, h1]⟩
  feed hs := by
    have ht := h.feed hs
    exact (k.feed (by rw [ht]; exact hs)).trans ht
  marks y hy := k.marks y (h.marks y hy)

theorem Follows.detectionStands {s t : State} (h : Follows s t) (b : Fin 48) : DetectionStands b s t where
  channel := h.channel b
  feed hs := by
    have hst : ({ tget t.feeds b with state := .off } : Feed) = { tget s.feeds b with state := .off } := by
      have hf := congrArg (fun u : State => tget u.feeds b) h.steady
      simpa only [State.steady, tget_map] using hf
    have hstate := h.held b hs
    cases ht : tget t.feeds b
    cases hs' : tget s.feeds b
    simp only [ht, hs', Feed.mk.injEq, true_and] at hst hstate ⊢
    exact ⟨hstate, hst⟩
  marks := h.marks

/-- An operation that leaves the channels and the feeds. -/
theorem DetectionStands.of_frame {s t : State} (b : Fin 48) (hc : t.channels = s.channels) (hf : t.feeds = s.feeds)
    (hm : ∀ y ∈ s.link.reports, y ∈ t.link.reports) : DetectionStands b s t :=
  ⟨.inl (by rw [hc]), fun _ => by rw [hf], hm⟩

/-! ## What the Train Register leaves (R50 to R59) -/

/-- `t` has the channels, feeds, shows, cues and notes of `s`, and its marks and more. -/
structure Registers (s t : State) : Prop where
  channels : t.channels = s.channels
  feeds : t.feeds = s.feeds
  shows : t.shows = s.shows
  cues : t.cues = s.cues
  work : t.work = s.work
  marks : ∀ y ∈ s.link.reports, y ∈ t.link.reports

theorem Registers.refl (s : State) : Registers s s := ⟨rfl, rfl, rfl, rfl, rfl, fun _ h => h⟩

theorem Registers.trans {s t u : State} (h : Registers s t) (k : Registers t u) : Registers s u :=
  ⟨k.channels.trans h.channels, k.feeds.trans h.feeds, k.shows.trans h.shows, k.cues.trans h.cues, k.work.trans h.work,
    fun y hy => k.marks y (h.marks y hy)⟩

theorem mark_registers (s : State) (y : Subject) : Registers s (s.mark y) :=
  ⟨rfl, rfl, rfl, rfl, rfl, (mark_follows s y).marks⟩

theorem updFlags_registers (s : State) (b : Fin 48) (f : BlockFlags → BlockFlags) : Registers s (s.updFlags b f) :=
  ⟨rfl, rfl, rfl, rfl, rfl, fun _ h => h⟩

theorem putTrain_registers (s : State) (t : Fin 24) (x : Train) : Registers s (s.putTrain t x) :=
  ⟨rfl, rfl, rfl, rfl, rfl, fun _ h => h⟩

theorem settlePanel_registers (s : State) : Registers s s.settlePanel :=
  ⟨rfl, rfl, rfl, rfl, rfl, fun _ h => h⟩

theorem becomeStray_registers (s : State) (b : Fin 48) (r : StrayReason) : Registers s (s.becomeStray b r) :=
  ((updFlags_registers s b _).trans (mark_registers _ _)).trans (settlePanel_registers _)

theorem growTrain_registers (s : State) (b : Fin 48) (c : Candidacy) : Registers s (s.growTrain b c) := by
  unfold State.growTrain
  split
  · split
    · exact ((becomeStray_registers s b _).trans (putTrain_registers _ _ _)).trans (mark_registers _ _)
    · exact ((putTrain_registers s _ _).trans (mark_registers _ _)).trans (mark_registers _ _)
  · exact .refl s

theorem adopt_registers (s : State) (b : Fin 48) (t : Fin 24) (front : Side) : Registers s (s.adopt b t front) := by
  unfold State.adopt
  split
  · exact ((putTrain_registers s _ _).trans (mark_registers _ _)).trans (mark_registers _ _)
  · exact .refl s

theorem seekTrain_registers (s : State) (b : Fin 48) : Registers s (s.seekTrain b) := by
  unfold State.seekTrain State.seekLost
  split
  · split
    · exact becomeStray_registers s b _
    · exact adopt_registers s b _ _
    · exact becomeStray_registers s b _
  · exact growTrain_registers s b _
  · exact becomeStray_registers s b _

theorem registerOccupied_registers (s : State) (b : Fin 48) : Registers s (s.registerOccupied b) := by
  unfold State.registerOccupied
  split
  · exact (updFlags_registers s b _).trans (mark_registers _ _)
  · split
    · exact .refl s
    · exact seekTrain_registers s b

theorem leaveLists_registers (l : List (Fin 48)) (s : State) : Registers s (l.foldl State.leaveList s) := by
  induction l generalizing s with
  | nil => exact .refl s
  | cons b l ih => exact ((updFlags_registers s b _).trans (mark_registers _ _)).trans (ih _)

theorem blockLeaves_registers (s : State) (t : Fin 24) (n : Nat) (l : List TrainBlock) (speed : Option Nat) (overlong : Bool)
    (b : Fin 48) : Registers s (s.blockLeaves t n l speed overlong b) := by
  unfold State.blockLeaves
  split
  · exact ((leaveLists_registers _ s).trans (putTrain_registers _ _ _)).trans (mark_registers _ _)
  · split
    · exact ((leaveLists_registers _ s).trans (putTrain_registers _ _ _)).trans (mark_registers _ _)
    · exact (updFlags_registers s b _).trans (mark_registers _ _)

theorem registerCleared_registers (s : State) (b : Fin 48) : Registers s (s.registerCleared b) := by
  unfold State.registerCleared
  split
  · split
    · exact ((putTrain_registers s _ _).trans (mark_registers _ _)).trans (mark_registers _ _)
    · exact blockLeaves_registers s _ _ _ _ _ b
    · exact .refl s
  · split
    · exact ((updFlags_registers s b _).trans (mark_registers _ _)).trans (settlePanel_registers _)
    · exact .refl s

theorem Registers.detectionStands {s t : State} (h : Registers s t) (b : Fin 48) : DetectionStands b s t :=
  .of_frame b h.channels h.feeds h.marks

/-- A change of occupancy handed on (R33). -/
theorem occupancyChanged_stands (old : State) (b : Fin 48) (s : State) :
    DetectionStands b s (State.occupancyChanged old b s) := by
  unfold State.occupancyChanged
  dsimp only
  split
  · exact ((registerOccupied_registers s b).detectionStands b).trans (((((handClear_follows _ _ _).trans
      (routesTakeOccupied_follows _ _)).trans (approachTakes_follows _ _)).trans (setCuesFor_follows _ _)).detectionStands b)
  · exact ((registerCleared_registers s b).detectionStands b).trans ((((handClear_follows _ _ _).trans
      (approachTakes_follows _ _)).trans (setCuesFor_follows _ _)).detectionStands b)

/-! ## The sample -/

theorem exec_sampleOf {s : State} {dt : Nat} {b : Fin 48} {d : BlockDef} {value : Byte} (hm : s.mode ≠ .config)
    (hd : tget s.tables.blocks b = some d) :
    exec (sampleOf dt b value) s = .next ((s.later dt).takeSample b d value.toNat).settle := by
  show execLevelSample dt _ value _ s = _
  unfold execLevelSample
  dsimp only
  rw [goodSample_of (s := s.advance dt) hm hd]
  rfl

/-- A sample that is no overload of an ON feed, before what it changes is handed on. -/
def State.sampled (s : State) (b : Fin 48) (d : BlockDef) (n : Nat) : State :=
  s.updChannel b fun _ => s.channelTakes b d n

theorem takeOverload_off {s : State} {b : Fin 48} (h : (tget s.feeds b).state ≠ .on) (k : KillMode) :
    s.takeOverload b k = s := if_neg h

theorem takeSample_stands {s : State} {b : Fin 48} {d : BlockDef} {n : Nat} (h : ¬ (n = 255 ∧ (tget s.feeds b).state = .on)) :
    DetectionStands b (s.sampled b d n) (s.takeSample b d n) := by
  unfold State.takeSample
  extract_lets old c c' s1 s2 s3 s4
  have hs1 : s1 = s.sampled b d n := rfl
  have h2 : Registers s1 s2 := by
    simp only [s2]
    split
    · exact .refl _
    · exact settlePanel_registers _
  have h3 : Registers s2 s3 := by
    simp only [s3]
    split
    · exact mark_registers _ _
    · exact .refl _
  have h4 : s4 = s3 := by
    simp only [s4]
    split
    · rename_i hn
      refine takeOverload_off (fun hon => h ⟨hn, ?_⟩) _
      rw [h3.feeds, h2.feeds] at hon
      exact hon
    · rfl
  have h13 := (h2.trans h3).detectionStands b
  rw [h4, ← hs1]
  split
  · exact h13
  · exact h13.trans (occupancyChanged_stands _ _ _)

/-- What an ordinary sample makes of a channel that is not held stands to the end of the event. -/
theorem sample_channel {s : State} {dt : Nat} {b : Fin 48} {d : BlockDef} {value : Byte} (hm : s.mode ≠ .config)
    (hd : tget s.tables.blocks b = some d) (h : ¬ (value = 255 ∧ (tget s.feeds b).state = .on))
    (hh : (tget s.channels b).held = false) : ∃ t, exec (sampleOf dt b value) s = .next t ∧
      tget t.channels b = ((tget s.channels b).fresh (s.clock.us + dt + 500000)).ordinary d value.toNat := by
  have hn : ¬ (value.toNat = 255 ∧ (tget s.feeds b).state = .on) := fun hx => h ⟨BitVec.eq_of_toNat_eq hx.1, hx.2⟩
  have hk := (takeSample_stands (s := s.later dt) (d := d) hn).trans ((settle_follows _).detectionStands b)
  have hc : tget ((s.later dt).sampled b d value.toNat).channels b =
      ((tget s.channels b).fresh (s.clock.us + dt + 500000)).ordinary d value.toNat := by
    refine (tget_tupd_self _ _ _).trans ?_
    show (tget s.channels b).sample d (tget s.feeds b).state value.toNat (s.clock.us + dt + 500000) = _
    unfold Channel.sample
    dsimp only
    rw [if_neg hn, if_neg (by rw [show ((tget s.channels b).fresh _).held = false from hh]; decide)]
  have hheld : (((tget s.channels b).fresh (s.clock.us + dt + 500000)).ordinary d value.toNat).held = false := by
    have hfresh : ((tget s.channels b).fresh (s.clock.us + dt + 500000)).held = false := hh
    unfold Channel.ordinary
    split_ifs <;> exact hfresh
  refine ⟨_, exec_sampleOf hm hd, ?_⟩
  rcases hk.channel with hk | ⟨-, hk⟩
  · exact hk.trans hc
  · rw [hk, hc, ← hheld]

/-- Settles O26: the sample's own effect is the channel's (`Channel.ordinary`), and it stands (`sample_channel`). -/
theorem dwellCountsSamples : Obligations.DwellCountsSamples := by
  unfold Obligations.DwellCountsSamples
  intro s dt b d value hm hd h hh c level from' after releaseLevel
  obtain ⟨t, hx, hc⟩ := sample_channel (dt := dt) hm hd h hh
  have hrelease : d.releaseLevel = releaseLevel := by
    simp only [BlockDef.releaseLevel, releaseLevel]
    split <;> omega
  have hfresh : c.fresh (s.clock.us + dt + 500000) = after c.occupied from' := by
    simp only [Channel.fresh, after, from']
    rw [show c.held = false from hh]
  have ht : tget t.channels b = (after c.occupied from').ordinary d level := by rw [hc, ← hfresh]
  refine ⟨t, hx, fun ho => ?_, fun ho => ?_⟩
  all_goals
    rw [ht, ho]
    unfold Channel.ordinary
    rw [hrelease]
    refine ⟨fun hl hn => ?_, fun hl hn => ?_, fun hl => ?_⟩
  · rw [if_neg (by simp), if_pos hl, if_neg (Nat.not_le.2 hn)]
  · rw [if_neg (by simp), if_pos hl, if_pos hn]
  · rw [if_neg (by simp), if_neg (Nat.not_le.2 hl)]
  · rw [if_pos rfl, if_pos hl, if_neg (Nat.not_le.2 hn)]
  · rw [if_pos rfl, if_pos hl, if_pos hn]
  · rw [if_pos rfl, if_neg (Nat.not_lt.2 hl)]

end Sys2Proof.Machine
end

section
/-! SUPPORT. Cues while no show runs (R192, R196): nothing that a change of occupancy brings on starts a show or clears a cue. -/

namespace Sys2Proof.Machine

/-- No show runs, and none is to go on. -/
def State.idleShow (s : State) : Prop := s.runningShow = none ∧ s.work.wake = none

/-- `t` is `s` after an operation that, while no show runs, starts none and clears no cue. -/
def CuesGrow (s t : State) : Prop := s.idleShow → t.idleShow ∧ ∀ k, tget s.cues k = true → tget t.cues k = true

theorem CuesGrow.refl (s : State) : CuesGrow s s := fun h => ⟨h, fun _ hk => hk⟩

theorem CuesGrow.trans {s t u : State} (h : CuesGrow s t) (k : CuesGrow t u) : CuesGrow s u := fun hs => by
  obtain ⟨ht, hc⟩ := h hs
  obtain ⟨hu, hc'⟩ := k ht
  exact ⟨hu, fun c hx => hc' c (hc c hx)⟩

theorem CuesGrow.ite {p : Prop} [Decidable p] {s t u : State} (ht : p → CuesGrow s t) (hu : ¬ p → CuesGrow s u) :
    CuesGrow s (if p then t else u) := by
  split
  · exact ht ‹_›
  · exact hu ‹_›

theorem CuesGrow.foldl {α : Type} (f : State → α → State) (h : ∀ s a, CuesGrow s (f s a)) (l : List α) (s : State) :
    CuesGrow s (l.foldl f s) := by
  induction l generalizing s with
  | nil => exact .refl s
  | cons a l ih => exact (h s a).trans (ih _)

theorem runningShow_congr {s t : State} (h : t.shows = s.shows) : t.runningShow = s.runningShow := by
  unfold State.runningShow
  rw [h]

/-- An operation that leaves the shows, the note of a wake and the cues. -/
theorem CuesGrow.of_frame {s t : State} (hs : t.shows = s.shows) (hw : t.work.wake = s.work.wake) (hc : t.cues = s.cues) :
    CuesGrow s t := fun h => ⟨⟨(runningShow_congr hs).trans h.1, hw.trans h.2⟩, fun k hk => by rw [hc]; exact hk⟩

theorem CuesGrow.of_calm {s t : State} (h : t.calm = s.calm) : CuesGrow s t :=
  .of_frame (congrArg State.shows h :) (congrArg (fun u : State => u.work.wake) h :) (congrArg State.cues h :)

theorem settlePanel_cuesGrow (s : State) : CuesGrow s s.settlePanel := .of_calm (settlePanel_calmly s).1

theorem callExamine_cuesGrow (s : State) : CuesGrow s s.callExamine := .of_frame rfl rfl rfl

/-! ## Cues and waits -/

theorem setCueFlag_cues {s : State} (h : s.runningShow = none) (c k : Fin 16) :
    tget (s.setCueFlag c).cues k = if c = k then true else tget s.cues k := by
  rw [setCueFlag_noShow s c h]
  unfold State.putCue
  split
  · rename_i hc
    split
    · rename_i e
      rw [← e, hc]
    · rfl
  · exact tget_tset s.cues c k true

theorem setCueFlag_cuesGrow (s : State) (c : Fin 16) : CuesGrow s (s.setCueFlag c) := fun h => by
  refine ⟨?_, fun k hk => ?_⟩
  · rw [setCueFlag_noShow s c h.1]
    unfold State.putCue
    split
    · exact h
    · exact h
  · rw [setCueFlag_cues h.1, hk, ite_self]

theorem setCuesFor_cuesGrow (s : State) (x : Selector) : CuesGrow s (s.setCuesFor x) :=
  .foldl _ (fun _ _ => .ite (fun _ => setCueFlag_cuesGrow _ _) fun _ => .refl _) _ s

/-- Every cue with a selector is set (R196). -/
theorem setCuesFor_sets {s : State} (h : s.idleShow) {x : Selector} {k : Fin 16} (hk : tget s.tables.cues k = x) :
    tget (s.setCuesFor x).cues k = true := by
  have step (t : State) (c : Fin 16) : CuesGrow t (if tget t.tables.cues c = x then t.setCueFlag c else t) :=
    .ite (fun _ => setCueFlag_cuesGrow _ _) fun _ => .refl _
  have tables (t : State) (c : Fin 16) : (if tget t.tables.cues c = x then t.setCueFlag c else t).tables = t.tables :=
    (Serves.ite (s := t) (fun _ => setCueFlag_serves t c) fun _ => Serves.refl t).tables
  suffices ∀ (l : List (Fin 16)) (t : State), t.idleShow → t.tables = s.tables → k ∈ l →
      tget (l.foldl (fun t c => if tget t.tables.cues c = x then t.setCueFlag c else t) t).cues k = true from
    this _ s h rfl (mem_indices k)
  intro l
  induction l with
  | nil => exact fun t _ _ hm => absurd hm (by simp)
  | cons c l ih =>
    intro t ht htab hm
    rw [List.foldl_cons]
    by_cases hc : c = k
    · refine (CuesGrow.foldl _ step l _ (step t c ht).1).2 k ?_
      rw [hc, htab, if_pos hk, setCueFlag_cues ht.1, if_pos rfl]
    · exact ih _ (step t c ht).1 ((tables t c).trans htab) ((List.mem_cons.1 hm).resolve_left (Ne.symm hc))

theorem noteRoute_cuesGrow (s : State) (r : Fin 64) (x : RouteRec) : CuesGrow s (s.noteRoute r x) := fun h => by
  rw [noteRoute_noShow s r x h.1]
  exact CuesGrow.refl s h

theorem noteDeck_cuesGrow (s : State) : CuesGrow s s.noteDeck := fun h => by
  rw [noteDeck_noShow s h.1]
  exact CuesGrow.refl s h

/-! ## Routes -/

theorem putSignal_cuesGrow (s : State) (g : Fin 32) (f : SignalRec → SignalRec) : CuesGrow s (s.putSignal g f) :=
  .ite (fun _ => .refl s) fun _ => .of_frame rfl rfl rfl

theorem aspectTakesRoute_cuesGrow (s : State) (r : Fin 64) (d : RouteDef) (old new : RouteRec) :
    CuesGrow s (s.aspectTakesRoute r d old new) :=
  have h := aspectTakesRoute_moveStands s r d old new
  .of_frame h.shows (congrArg Work.wake h.work) h.cues

theorem setRoute_cuesGrow (s : State) (r : Fin 64) (x : RouteRec) : CuesGrow s (s.setRoute r x) := by
  unfold State.setRoute
  extract_lets old s1 s2 s3
  have h1 : CuesGrow s s1 := .of_frame rfl rfl rfl
  have h2 : CuesGrow s1 s2 := by
    simp only [s2]
    split
    · exact aspectTakesRoute_cuesGrow _ _ _ _ _
    · exact .refl _
  have h3 : CuesGrow s2 s3 := by
    simp only [s3]
    split
    · exact setCuesFor_cuesGrow _ _
    · exact .ite (fun _ => .refl _) fun _ => setCuesFor_cuesGrow _ _
    · exact .refl _
  exact ((h1.trans h2).trans h3).trans (noteRoute_cuesGrow _ _ _)

theorem touchRoute_cuesGrow (s : State) (r : Fin 64) (x : RouteRec) : CuesGrow s (s.touchRoute r x) := .of_frame rfl rfl rfl

theorem reserve_cuesGrow (s : State) (r : Fin 64) (b : Fin 48) : CuesGrow s (s.reserve r b) := .of_frame rfl rfl rfl

theorem unreserve_cuesGrow (s : State) (r : Fin 64) (b : Fin 48) : CuesGrow s (s.unreserve r b) := by
  have h : CuesGrow s ((s.putReserver b none).mark (.block b)) := .of_frame rfl rfl rfl
  exact .ite (fun _ => (h.trans (settlePanel_cuesGrow _)).trans (callExamine_cuesGrow _)) fun _ => .refl s

theorem lock_cuesGrow (s : State) (p : Fin 64) : CuesGrow s (s.lock p) := .of_frame rfl rfl rfl

theorem unlock_cuesGrow (s : State) (p : Fin 64) : CuesGrow s (s.unlock p) := .of_frame rfl rfl rfl

theorem freeHolding_cuesGrow (s : State) (r : Fin 64) (e : FreeReason) : CuesGrow s (s.freeHolding r e) :=
  (((setRoute_cuesGrow s r _).trans (.foldl _ (fun t b => unreserve_cuesGrow t r b) _ _)).trans
    (.foldl _ (fun t (x : Fin 64 × Lie) => unlock_cuesGrow t x.1) _ _)).trans (callExamine_cuesGrow _)

theorem testProof_cuesGrow (s : State) (r : Fin 64) : CuesGrow s (s.testProof r) := by
  unfold State.testProof
  split
  · exact .ite (fun _ => setRoute_cuesGrow _ _ _) fun _ => .refl _
  · exact .ite (fun _ => .refl _) fun _ => touchRoute_cuesGrow _ _ _
  · exact .refl _

theorem routesTakeDeck_cuesGrow (s : State) : CuesGrow s s.routesTakeDeck :=
  .foldl _ (fun _ _ => .ite (fun _ => testProof_cuesGrow _ _) fun _ => .refl _) _ s

theorem testReleased_cuesGrow (s : State) (r : Fin 64) : CuesGrow s (s.testReleased r) := by
  unfold State.testReleased
  split
  · exact .ite (fun _ => (setRoute_cuesGrow _ _ _).trans (callExamine_cuesGrow _)) fun _ => .refl _
  · exact .refl _

theorem releaseBlock_cuesGrow (s : State) (r : Fin 64) (d : RouteDef) (danger : Bool) (t : OverlapTimer) (m : Marks)
    (k : Nat) (b : Fin 48) : CuesGrow s (s.releaseBlock r d danger t m k b) := by
  unfold State.releaseBlock
  extract_lets last t' s1 s2 s3
  have h3 : CuesGrow s s3 := ((touchRoute_cuesGrow s r _).trans (unreserve_cuesGrow _ _ _)).trans
    (.foldl _ (fun u (x : PointReq) => unlock_cuesGrow u x.point) _ _)
  exact .ite (fun _ => h3.trans (.foldl _ (fun u (x : FlankReq) => unlock_cuesGrow u x.point) _ _)) fun _ => h3

theorem releaseFrom_cuesGrow (r : Fin 64) (n k : Nat) (s : State) : CuesGrow s (State.releaseFrom r n k s) := by
  induction n generalizing k s with
  | zero => exact .refl s
  | succ n ih =>
    unfold State.releaseFrom
    split
    · split
      · exact .refl s
      · exact .ite (fun _ => (releaseBlock_cuesGrow _ _ _ _ _ _ _ _).trans (ih _ _)) fun _ => .refl s
    · exact .refl s

theorem testRelease_cuesGrow (s : State) (r : Fin 64) (k : Nat) : CuesGrow s (s.testRelease r k) :=
  (releaseFrom_cuesGrow r 8 k s).trans (testReleased_cuesGrow _ r)

theorem enterRoute_cuesGrow (s : State) (r : Fin 64) (d : RouteDef) : CuesGrow s (s.enterRoute r d) := by
  unfold State.enterRoute
  dsimp only
  split
  · exact setRoute_cuesGrow _ _ _
  · exact setRoute_cuesGrow _ _ _
  · exact .refl _

theorem overlapAtLast_cuesGrow (s : State) (r : Fin 64) (d : RouteDef) (b : Fin 48) : CuesGrow s (s.overlapAtLast r d b) := by
  unfold State.overlapAtLast
  split
  · exact .ite (fun _ => touchRoute_cuesGrow _ _ _) fun _ => .refl _
  · exact .refl _

theorem routeTakesOccupied_cuesGrow (b : Fin 48) (s : State) (r : Fin 64) : CuesGrow s (State.routeTakesOccupied b s r) := by
  unfold State.routeTakesOccupied
  split
  · exact .refl _
  · split
    · exact .ite (fun _ => enterRoute_cuesGrow _ _ _) fun _ => .refl _
    · exact .ite (fun _ => enterRoute_cuesGrow _ _ _) fun _ => .refl _
    · split
      · exact (overlapAtLast_cuesGrow s r _ b).trans (.ite (fun _ => .refl _) fun _ => testRelease_cuesGrow _ _ _)
      · exact .refl _
    · exact .refl _

theorem routesTakeOccupied_cuesGrow (s : State) (b : Fin 48) : CuesGrow s (s.routesTakeOccupied b) :=
  .foldl _ (fun _ _ => routeTakesOccupied_cuesGrow _ _ _) _ s

theorem routesTakeClear_cuesGrow (s : State) (b : Fin 48) : CuesGrow s (s.routesTakeClear b) :=
  (CuesGrow.foldl _ (fun _ _ => by
    split
    · split
      · exact testRelease_cuesGrow _ _ _
      · exact .refl _
    · exact .refl _) _ s).trans (callExamine_cuesGrow _)

theorem handClear_cuesGrow (old : State) (bs : List (Fin 48)) (s : State) : CuesGrow s (State.handClear old bs s) :=
  .foldl _ (fun _ _ => .ite (fun _ => routesTakeClear_cuesGrow _ _) fun _ => .refl _) _ s

theorem approachTakes_cuesGrow (s : State) (b : Fin 48) : CuesGrow s (s.approachTakes b) :=
  .foldl _ (fun _ _ => by
    split
    · exact .ite (fun _ => putSignal_cuesGrow _ _ _) fun _ => .refl _
    · exact .refl _) _ s

/-! ## Points -/

theorem moveRequest_cuesGrow (s : State) (p : Fin 64) (l : Lie) : CuesGrow s (s.moveRequest p l) := by
  have starts (t : State) (g : Fin 8) : CuesGrow t (t.startMove g) := fun h => by
    obtain ⟨-, hs, hw, -, hc⟩ := startMove_quiet t g h.1
    exact CuesGrow.of_frame hs (congrArg Work.wake hw) hc h
  unfold State.moveRequest
  split
  · exact .refl _
  · extract_lets there s1
    have h1 : CuesGrow s s1 := by
      simp only [s1]
      split
      · exact .refl _
      · exact .of_frame rfl rfl rfl
      · exact .of_frame rfl rfl rfl
      · exact .ite (fun _ => .refl _) fun _ => .of_frame rfl rfl rfl
    exact h1.trans (starts _ _)

/-! ## The deck's start of a move -/

theorem updDeck_cuesGrow (s : State) (f : Deck → Deck) : CuesGrow s (s.updDeck f) := .of_frame rfl rfl rfl

theorem deckChanged_cuesGrow (s : State) : CuesGrow s s.deckChanged := by
  unfold State.deckChanged
  extract_lets s1 s2
  have h1 : CuesGrow s s1 := .of_frame rfl rfl rfl
  have h2 : CuesGrow s1 s2 := by
    simp only [s2]
    split
    · exact .of_calm (feedFollow_calmly _ _).1
    · exact .refl _
  exact ((h1.trans h2).trans (routesTakeDeck_cuesGrow _)).trans (noteDeck_cuesGrow _)

theorem enterSettling_cuesGrow (s : State) (t : TurntableDef) (m : MoveRec) : CuesGrow s (s.enterSettling t m) := by
  unfold State.enterSettling
  exact (updDeck_cuesGrow s _).trans (deckChanged_cuesGrow _)

theorem issueStep_cuesGrow (s : State) (t : TurntableDef) (m : MoveRec) (x : Nat) : CuesGrow s (s.issueStep t m x) := by
  unfold State.issueStep
  exact .of_frame rfl rfl rfl

theorem enterMoving_cuesGrow (s : State) (t : TurntableDef) (m : MoveRec) : CuesGrow s (s.enterMoving t m) := by
  unfold State.enterMoving
  refine CuesGrow.trans ?_ (deckChanged_cuesGrow _)
  split
  · exact .ite (fun _ => issueStep_cuesGrow _ _ _ _) fun _ => updDeck_cuesGrow _ _
  · exact issueStep_cuesGrow _ _ _ _
  · exact updDeck_cuesGrow _ _

theorem unlockDone_cuesGrow (s : State) (t : TurntableDef) (m : MoveRec) : CuesGrow s (s.unlockDone t m) := by
  unfold State.unlockDone
  exact (updDeck_cuesGrow s _).trans (.ite (fun _ => enterSettling_cuesGrow _ _ _) fun _ => enterMoving_cuesGrow _ _ _)

theorem enterUnlocking_cuesGrow (s : State) (t : TurntableDef) (m : MoveRec) : CuesGrow s (s.enterUnlocking t m) := by
  unfold State.enterUnlocking
  exact ((updDeck_cuesGrow s _).trans (deckChanged_cuesGrow _)).trans
    (.ite (fun _ => unlockDone_cuesGrow _ _ _) fun _ => .refl _)

theorem turnTo_cuesGrow (s : State) (o : TurnOrigin) (road : Fin 24) (e : DeckAsk) : CuesGrow s (s.turnTo o road e).1 := by
  unfold State.turnTo
  split
  · split
    · exact .refl _
    · split
      · exact .refl _
      · split
        · exact .refl _
        · split
          · exact .refl _
          · dsimp only; exact enterUnlocking_cuesGrow _ _ _
  · exact .refl _

theorem turnInternal_cuesGrow (s : State) (o : TurnOrigin) (road : Fin 24) (e : DeckAsk) :
    CuesGrow s (s.turnInternal o road e).1 := by
  unfold State.turnInternal
  split
  · exact turnTo_cuesGrow _ _ _ _
  · exact .refl _

/-! ## Taking routes -/

theorem askTurn_cuesGrow (s : State) (r : Fin 64) (d : RouteDef) : CuesGrow s (s.askTurn r d).1 := by
  unfold State.askTurn
  split
  · exact .refl _
  · rename_i q _
    split
    · exact .refl _
    · have h := turnInternal_cuesGrow s (.route r) q.road (DeckEnd.ask q.side)
      split <;> (rename_i e; rw [e] at h; exact h)

theorem takeRoute_cuesGrow (s : State) (r : Fin 64) : CuesGrow s (s.takeRoute r) := by
  unfold State.takeRoute
  split
  · exact .refl _
  · rename_i d _
    extract_lets s1 s2 s3 s4
    have h1 : CuesGrow s s1 := .of_frame rfl rfl rfl
    have h4 : CuesGrow s s4 :=
      ((h1.trans (.foldl _ (fun t b => reserve_cuesGrow t r b) _ _)).trans
        (.foldl _ (fun t (x : Fin 64 × Lie) => lock_cuesGrow t x.1) _ _)).trans
        (.foldl _ (fun t (x : Fin 64 × Lie) => moveRequest_cuesGrow t x.1 x.2) _ _)
    have h5 := h4.trans (askTurn_cuesGrow s4 r d)
    generalize s4.askTurn r d = x at h5
    obtain ⟨s5, asked, away⟩ := x
    exact .ite (fun _ => (h5.trans (setRoute_cuesGrow _ _ _)).trans (freeHolding_cuesGrow _ _ _)) fun _ =>
      (h5.trans (setRoute_cuesGrow _ _ _)).trans (testProof_cuesGrow _ _)

theorem examineQueue_cuesGrow (s : State) : CuesGrow s s.examineQueue := by
  unfold State.examineQueue
  have h (t : State) (r : Fin 64) : CuesGrow t (t.examineEntry r) :=
    .ite (fun _ => takeRoute_cuesGrow _ _) fun _ => .refl _
  have h0 : CuesGrow s (s.updWork fun w => { w with examine := false }) := .of_frame rfl rfl rfl
  exact h0.trans (.ite (fun _ => (CuesGrow.foldl _ h _ _).trans (.foldl _ h _ _)) fun _ => .refl _)

/-! ## The end of an event -/

theorem settleSignals_cuesGrow (s : State) : CuesGrow s s.settleSignals := .of_calm (settleSignals_calmly s).1

theorem comeToRest_cuesGrow (n : Nat) (s : State) : CuesGrow s (State.comeToRest n s) := by
  induction n generalizing s with
  | zero => exact settleSignals_cuesGrow s
  | succ n ih =>
    unfold State.comeToRest
    refine (settleSignals_cuesGrow s).trans (.ite (fun _ => (examineQueue_cuesGrow _).trans (ih _)) fun _ => fun h => ?_)
    rw [h.2]
    exact CuesGrow.refl _ h

theorem settle_cuesGrow (s : State) : CuesGrow s s.settle :=
  (comeToRest_cuesGrow _ s).trans (.of_calm (settlePanel_calmly _).1)

end Sys2Proof.Machine
end

section
/-! SUPPORT. An overload sample on an ON feed (O25): the trip changes one feed and one channel alone (`FeedStands`), both stand to
the end of the event, and signals that show their aspects draw no feed after them (`settle_shown`). -/

namespace Sys2Proof.Machine

/-! ## One feed and one channel alone -/

/-- The part with the feeds and the channels as given. -/
def State.withFeeds (s : State) (f : Tab Feed 48) (c : Tab Channel 48) : State := { s with feeds := f, channels := c }

/-- `t` is `s` but for the feed and the channel of block `b`, the marks and the panel. -/
structure FeedStands (s : State) (b : Fin 48) (f : Feed) (c : Channel) (t : State) : Prop where
  feeds : t.feeds = tset s.feeds b f
  channels : t.channels = tset s.channels b c
  rest : t.calm.withFeeds s.feeds s.channels = s.calm.withFeeds s.feeds s.channels
  signals : t.signals = s.signals
  work : t.work = s.work

section
variable {s t : State} {b : Fin 48} {f : Feed} {c : Channel}

theorem FeedStands.refl (s : State) (b : Fin 48) : FeedStands s b (tget s.feeds b) (tget s.channels b) s :=
  ⟨(tset_tget s.feeds b).symm, (tset_tget s.channels b).symm, rfl, rfl, rfl⟩

theorem FeedStands.calm (k : FeedStands s b f c t) : t.calm = (s.withFeeds (tset s.feeds b f) (tset s.channels b c)).calm := by
  have split (u : State) : u.calm = (u.calm.withFeeds s.feeds s.channels).withFeeds
      (u.feeds.map fun x => { x with state := .off }) (u.channels.map fun x => { x with held := false, count := 0 }) := rfl
  rw [split t, k.rest, k.feeds, k.channels]
  rfl

theorem FeedStands.feed (k : FeedStands s b f c t) : tget t.feeds b = f := by rw [k.feeds, tget_tset_self]

theorem FeedStands.channel (k : FeedStands s b f c t) : tget t.channels b = c := by rw [k.channels, tget_tset_self]

theorem FeedStands.clock (k : FeedStands s b f c t) : t.clock = s.clock := (congrArg State.clock k.rest :)

theorem FeedStands.params (k : FeedStands s b f c t) : t.params = s.params := (congrArg State.params k.rest :)

theorem FeedStands.mark (k : FeedStands s b f c t) (y : Subject) : FeedStands s b f c (t.mark y) :=
  ⟨k.feeds, k.channels, k.rest, k.signals, k.work⟩

theorem FeedStands.settlePanel (k : FeedStands s b f c t) : FeedStands s b f c t.settlePanel :=
  ⟨k.feeds, k.channels, (congrArg (fun u : State => u.withFeeds s.feeds s.channels) (settlePanel_calmly t).1).trans k.rest,
    k.signals, k.work⟩

theorem FeedStands.updFeed (k : FeedStands s b f c t) {φ : Feed → Feed} {f' : Feed} (hf : φ f = f') :
    FeedStands s b f' c (t.updFeed b φ) :=
  ⟨by rw [State.updFeed_feeds, k.feeds, tupd_tset, hf], k.channels, k.rest, k.signals, k.work⟩

theorem FeedStands.updChannel (k : FeedStands s b f c t) {φ : Channel → Channel} {c' : Channel} (hc : φ c = c') :
    FeedStands s b f c' (t.updChannel b φ) :=
  ⟨k.feeds, by rw [State.updChannel_channels, k.channels, tupd_tset, hc], k.rest, k.signals, k.work⟩

/-- The feed takes a state that holds its channel (R29). -/
theorem FeedStands.holds (k : FeedStands s b f c t) {x : FeedState} (hx : x.holds = true) (hf : f.state ≠ x) :
    FeedStands s b { f with state := x } { c with held := true, count := 0 } (t.setFeedState b x) := by
  have hf' : ¬ (tget t.feeds b).state = x := by rw [k.feed]; exact hf
  have k1 : FeedStands s b { f with state := x } c (t.updFeed b fun y => { y with state := x }) := k.updFeed rfl
  have k2 := (k1.mark (.block b)).updChannel
    (φ := fun y : Channel => if x.holds then { y with held := true, count := 0 } else { y with held := false })
    (c' := { c with held := true, count := 0 }) (by rw [hx]; rfl)
  unfold State.setFeedState
  rw [if_neg hf']
  exact k2.settlePanel

end

/-! ## The trip (R38, R39) -/

/-- The trip log of a feed that trips: its last five. -/
def State.trippedLog (s : State) (f : Feed) : List MsCount := (f.log ++ [s.ms]).drop (f.log.length + 1 - 5)

/-- The trips that the latch decision counts. -/
def State.countedTrips (s : State) (l : List MsCount) : Nat :=
  (l.filter fun x => decide (s.ageOf x ≤ 1000 * s.params.tripWindow)).length

/-- A feed after its trip and the latch decision. -/
def State.trippedFeed (s : State) (k : KillMode) (f : Feed) : Feed :=
  if k = .latch ∨ s.params.tripsToLatch ≤ s.countedTrips (s.trippedLog f) then
    { f with state := .latched, log := s.trippedLog f }
  else { f with state := .cooling, log := s.trippedLog f, cool := some (s.after s.params.coolTime) }

theorem trippedFeed_holds (s : State) (k : KillMode) (f : Feed) : (s.trippedFeed k f).state.holds = true := by
  unfold State.trippedFeed
  split <;> rfl

section
variable {s t : State} {b : Fin 48} {f : Feed} {c : Channel}

theorem FeedStands.latchDecision (k : FeedStands s b f c t) (hf : f.state = .tripped) (kill : KillMode) :
    FeedStands s b (if kill = .latch ∨ s.params.tripsToLatch ≤ s.countedTrips f.log then { f with state := .latched }
        else { f with state := .cooling, cool := some (s.after s.params.coolTime) })
      { c with held := true, count := 0 } (t.latchDecision b kill) := by
  have hcount : t.tripsCounted b = s.countedTrips f.log := by
    simp only [State.tripsCounted, State.countedTrips, State.ageOf, State.ms, k.feed, k.clock, k.params]
    rfl
  unfold State.latchDecision
  rw [hcount, k.params]
  split
  · exact k.holds rfl (by rw [hf]; decide)
  · have k1 := k.holds (x := .cooling) rfl (by rw [hf]; decide)
    refine k1.updFeed ?_
    rw [State.after, k.clock]
    rfl

theorem FeedStands.takeOverload (k : FeedStands s b f c t) (hf : f.state = .on) (kill : KillMode) :
    FeedStands s b (s.trippedFeed kill f) { c with held := true, count := 0 } (t.takeOverload b kill) ∧
      .block b ∈ (t.takeOverload b kill).link.reports := by
  have hon : (tget t.feeds b).state = .on := by rw [k.feed]; exact hf
  have k1 := k.holds (x := .tripped) rfl (by rw [hf]; decide)
  have hmark : .block b ∈ (t.setFeedState b .tripped).link.reports := mem_setFeedState (by rw [hon]; decide)
  have hlog : (f.log ++ [(t.setFeedState b .tripped).ms]).drop
      ((f.log ++ [(t.setFeedState b .tripped).ms]).length - Config.tripLogRoom) = s.trippedLog f := by
    simp [State.trippedLog, State.ms, k1.clock, Config.tripLogRoom]
  have k2 := k1.updFeed
    (φ := fun y => let l := y.log ++ [(t.setFeedState b .tripped).ms]
      { y with log := l.drop (l.length - Config.tripLogRoom) })
    (f' := { f with state := .tripped, log := s.trippedLog f })
    (congrArg (fun l => ({ f with state := .tripped, log := l } : Feed)) hlog)
  have k3 := k2.latchDecision rfl kill
  unfold State.takeOverload
  rw [if_pos hon]
  refine ⟨?_, (latchDecision_sensed b _ kill).marks _ hmark⟩
  unfold State.trippedFeed
  exact k3

end

/-! ## Signals that show their aspects draw no feed after them (R114, R121) -/

/-- What the aspects are derived from (R112, R113). -/
structure AspectsAs (s t : State) : Prop where
  mode : t.mode = s.mode
  tables : t.tables = s.tables
  signals : t.signals = s.signals
  routes : t.routes = s.routes
  trains : t.trains = s.trains
  blockFlags : t.blockFlags = s.blockFlags
  online : ∀ m, t.online m = s.online m
  occupied : ∀ b, t.occupied b = s.occupied b

theorem AspectsAs.aspectCase {s t : State} (h : AspectsAs s t) : t.aspectCase = s.aspectCase := by
  have hclear : t.isClear = s.isClear := by
    funext b
    simp only [State.isClear, State.holder, h.occupied, h.trains, h.blockFlags]
  funext g
  simp only [State.aspectCase, State.proceedRoute, State.signalDef, State.routeDef, h.mode, h.tables, h.signals, h.routes,
    h.online, hclear]

theorem AspectsAs.signalsShow {s t : State} (h : AspectsAs s t) (hs : s.signalsShow) : t.signalsShow := by
  have hderive (n : Nat) : t.deriveAspect n = s.deriveAspect n := by
    induction n with
    | zero => rfl
    | succ n ih =>
      funext g
      simp only [State.deriveAspect, h.aspectCase, ih]
  intro g
  rw [h.signals, hs g, State.settledAspect, State.settledAspect, hderive]

/-- `t` has the feeds, the channels and the aspects of `s`. -/
structure ShownAs (s t : State) : Prop where
  feeds : t.feeds = s.feeds
  channels : t.channels = s.channels
  aspects : ∀ g, (tget t.signals g).aspect = (tget s.signals g).aspect

/-- A signal that shows its aspect already shows it without a change of its feed. -/
theorem showSettled_shown {now s : State} (h : now.signalsShow) (hs : ShownAs now s) (g : Fin 32) :
    ShownAs now (now.showSettled s g) := by
  unfold State.showSettled
  split
  · have hold : (tget s.signals g).aspect = now.settledAspect g := (hs.aspects g).trans (h g)
    have hp := putSignal_showsOn s g (now.settledAspect g)
    unfold State.showAspect
    extract_lets old s1 s2
    have hs2 : s2 = s1 := if_pos hold
    rw [if_pos (congrArg Aspect.proceed hold), hs2]
    refine ⟨hp.feeds.trans hs.feeds, ?_, fun q => ?_⟩
    · refine Eq.trans ?_ hs.channels
      simp only [s1, State.putSignal]
      split <;> rfl
    · rw [hp.aspect q]
      split
      · rename_i e
        rw [← e, h g]
      · exact hs.aspects q
  · exact hs

theorem settleSignals_shown {s : State} (h : s.signalsShow) : ShownAs s s.settleSignals := by
  have chain (n : Nat) (t : State) (g : Fin 32) (ht : ShownAs s t) : ShownAs s (s.showChain n t g) := by
    induction n generalizing t g with
    | zero => exact showSettled_shown h ht g
    | succ n ih =>
      unfold State.showChain
      refine showSettled_shown h ?_ g
      split
      · exact ih t _ ht
      · exact ht
  suffices ∀ (l : List (Fin 32)) (t : State), ShownAs s t → ShownAs s (l.foldl (State.showChain s 32) t) from
    this _ s ⟨rfl, rfl, fun _ => rfl⟩
  intro l
  induction l with
  | nil => exact fun _ ht => ht
  | cons g l ih => exact fun t ht => ih _ (chain 32 t g ht)

/-- The end of an event that calls for nothing, with the signals showing their aspects, leaves every feed and channel. -/
theorem settle_shown {s : State} (hw : s.work = Work.none) (h : s.signalsShow) :
    s.settle.feeds = s.feeds ∧ s.settle.channels = s.channels := by
  have hrest (n : Nat) : State.comeToRest n s = s.settleSignals := by
    cases n with
    | zero => rfl
    | succ n =>
      unfold State.comeToRest
      dsimp only
      rw [(settleSignals_calmly s).2, hw]
      rfl
  have hs := settleSignals_shown h
  unfold State.settle
  rw [hrest]
  exact ⟨hs.feeds, hs.channels⟩

/-! ## The sample -/

/-- The channel of an ON feed after an overload sample (R28, R29). -/
def State.trippedChannel (s : State) : Channel := ⟨true, 0, true, false, some (s.after Config.staleMs)⟩

/-- An overload sample on an ON feed changes that feed and its channel, before a change of occupancy is handed on. -/
theorem takeSample_overload {s : State} {b : Fin 48} (d : BlockDef) (hf : (tget s.feeds b).state = .on) :
    ∃ w, FeedStands s b (s.trippedFeed d.kill (tget s.feeds b)) s.trippedChannel w ∧ .block b ∈ w.link.reports ∧
      s.takeSample b d 255 = if (tget s.channels b).occupied then w else State.occupancyChanged s b w := by
  unfold State.takeSample
  extract_lets old c c' s1 s2 s3 s4
  have hc' : c' = { c.fresh (s.after Config.staleMs) with occupied := true, count := 0 } := if_pos ⟨rfl, hf⟩
  have h1 : FeedStands s b (tget s.feeds b) c' s1 := (FeedStands.refl s b).updChannel rfl
  have h2 : FeedStands s b (tget s.feeds b) c' s2 := by
    simp only [s2]
    split
    · exact h1
    · exact h1.settlePanel
  have h3 : FeedStands s b (tget s.feeds b) c' s3 := by
    simp only [s3]
    split
    · exact h2.mark _
    · exact h2
  obtain ⟨h4, hmark⟩ := h3.takeOverload hf d.kill
  have hs4 : s4 = s3.takeOverload b d.kill := if_pos rfl
  refine ⟨s4, ?_, by rw [hs4]; exact hmark, ?_⟩
  · rw [hs4]
    rw [hc'] at h4
    exact h4
  · have ho : c'.occupied = true := by rw [hc']
    rw [ho]
    by_cases h : c.occupied = true
    · rw [if_pos h.symm, if_pos h]
    · rw [if_neg (Ne.symm h), if_neg h]

/-- A change of the feed and the channel that leaves the channel's reading leaves what the aspects are derived from. -/
theorem FeedStands.aspectsAs {s w : State} {b : Fin 48} {f : Feed} {c : Channel} (k : FeedStands s b f c w)
    (ho : c.occupied = (tget s.channels b).occupied) : AspectsAs s w where
  mode := (congrArg State.mode k.rest :)
  tables := (congrArg State.tables k.rest :)
  signals := k.signals
  routes := (congrArg State.routes k.rest :)
  trains := (congrArg State.trains k.rest :)
  blockFlags := (congrArg State.blockFlags k.rest :)
  online m := by
    have h : (tget w.calm.modules m).state = (tget s.calm.modules m).state :=
      (congrArg (fun u : State => (tget u.modules m).state) k.rest :)
    simp only [State.calm, tget_map] at h
    simp only [State.online, h]
  occupied a := by
    unfold State.occupied
    rw [k.channels]
    by_cases h : b = a
    · rw [← h, tget_tset_self, ho]
    · rw [tget_tset_ne _ h]

/-- The cues of a block that becomes OCCUPIED are set (R33, R196). -/
theorem occupancyChanged_setsCues {old w : State} {b : Fin 48} (h : w.idleShow) (ho : w.occupied b = true) {k : Fin 16}
    (hk : tget w.tables.cues k = .blockOccupied b) :
    (State.occupancyChanged old b w).idleShow ∧ tget (State.occupancyChanged old b w).cues k = true := by
  let v := ((State.handClear old (old.touched b) (w.registerOccupied b)).routesTakeOccupied b).approachTakes b
  have hr := registerOccupied_registers w b
  have hv : v.idleShow := ((((CuesGrow.of_frame hr.shows (congrArg Work.wake hr.work) hr.cues).trans
    (handClear_cuesGrow old (old.touched b) _)).trans (routesTakeOccupied_cuesGrow _ b)).trans (approachTakes_cuesGrow _ b) h).1
  have ht : v.tables = w.tables := ((((registerOccupied_serves w b).trans (handClear_serves old (old.touched b) _)).trans
    (routesTakeOccupied_serves _ b)).trans (approachTakes_serves _ b)).tables
  have he : State.occupancyChanged old b w = v.setCuesFor (.blockOccupied b) := if_pos ho
  rw [he]
  exact ⟨(setCuesFor_cuesGrow v _ hv).1, setCuesFor_sets hv (by rw [ht]; exact hk)⟩

/-- Settles O25: the sample trips the feed alone (`takeSample_overload`); the trip stands to the end of the event
(`DetectionStands`), which draws no feed after it while the signals show their aspects (`settle_shown`). -/
theorem overloadTripsTheFeed : Obligations.OverloadTripsTheFeed := by
  unfold Obligations.OverloadTripsTheFeed
  intro s dt b d hw hm hd hf now f log counted tripped u
  obtain ⟨w, hk, hmark, htake⟩ := takeSample_overload (s := now) d hf
  have hstands : DetectionStands b w (now.takeSample b d 255).settle := by
    refine DetectionStands.trans ?_ ((settle_follows _).detectionStands b)
    rw [htake]
    split
    · exact .of_frame b rfl rfl fun _ h => h
    · exact occupancyChanged_stands _ b w
  have hholds : (tget w.feeds b).state.holds = true := by
    rw [hk.feed]
    exact trippedFeed_holds now d.kill f
  have hwork : w.work = Work.none := hk.work.trans hw
  refine ⟨_, exec_sampleOf hm hd, (hstands.feed hholds).trans hk.feed, ?_, hstands.marks _ hmark, fun ho => ?_,
    fun ho hshow k hcue => ?_⟩
  · rcases hstands.channel with h | ⟨h, -⟩
    · exact (h.trans hk.channel).trans (tget_tset_self s.channels b _).symm
    · rw [hholds] at h
      exact absurd h (by decide)
  · have hocc : now.takeSample b d 255 = w := htake.trans (if_pos ho)
    show ((now.takeSample b d 255).settle.calm = _) ∧
      (_ → (now.takeSample b d 255).settle.feeds = _ ∧ (now.takeSample b d 255).settle.channels = _)
    rw [hocc]
    refine ⟨(settle_calm w (.inl (by rw [hwork]; rfl)) (by rw [hwork]; rfl)).trans hk.calm, fun hs => ?_⟩
    obtain ⟨hfeeds, hchannels⟩ := settle_shown hwork ((hk.aspectsAs ho.symm).signalsShow hs)
    exact ⟨hfeeds.trans hk.feeds, hchannels.trans hk.channels⟩
  · have hclear : now.takeSample b d 255 = State.occupancyChanged now b w :=
      htake.trans (if_neg (ne_true_of_eq_false ho))
    have hidle : w.idleShow := ⟨(runningShow_congr (congrArg State.shows hk.rest :)).trans hshow, by rw [hwork]; rfl⟩
    have htables : w.tables = s.tables := (congrArg State.tables hk.rest :)
    obtain ⟨hi, hset⟩ := occupancyChanged_setsCues (old := now) hidle
      (show (tget w.channels b).occupied = true by rw [hk.channel]; rfl) (by rw [htables]; exact hcue)
    show tget (now.takeSample b d 255).settle.cues k = true
    rw [hclear]
    exact (settle_cuesGrow _ hi).2 k hset

end Sys2Proof.Machine
end

section
/-! SUPPORT. What the part sends (O58): a field at a time, then the report of each subject, the frames, and the transmitter. -/

namespace Sys2Proof.Machine

/-! ## Fields that may be absent -/

section
variable (r : List ReportField)

theorem spelled_byteAbsent : spelled (byteField none :: r) = [0xFF] ++ spelled r := spelled_absent 1 r

theorem spelled_byteOf {α : Type} (f : α → Nat) (x : Option α) :
    spelled (byteField (x.map f) :: r) = maybe 1 (fun a => u8 (f a)) x ++ spelled r := by
  cases x with
  | none => exact spelled_byteAbsent r
  | some a => exact spelled_byte (f a) r

theorem spelled_word (x : Option Nat) : spelled ((2, x) :: r) = maybe 2 u16 x ++ spelled r := by
  cases x with
  | none => exact spelled_absent 2 r
  | some n => exact spelled_present 2 n r

theorem spelled_double (x : Option Nat) : spelled ((4, x) :: r) = maybe 4 u32 x ++ spelled r := by
  cases x with
  | none => exact spelled_absent 4 r
  | some n => exact spelled_present 4 n r

theorem spelled_timeOf {α : Type} (f : α → MsCount) (x : Option α) :
    spelled ((6, x.map fun a => (f a).toNat) :: r) = maybe 6 (fun a => msBytes (f a)) x ++ spelled r := by
  cases x with
  | none => exact spelled_absent 6 r
  | some a => exact spelled_present 6 _ r

theorem spelled_age (x : Option Nat) : spelled (ageField x :: r) = maybe 4 ageBytes x ++ spelled r := by
  cases x with
  | none => exact spelled_absent 4 r
  | some n => exact spelled_present 4 _ r

/-- A choice is spelled by the bytes that give each value its place. -/
theorem spelled_choice {α : Type} [BEq α] {f : α → List Byte} {l : List α} (h : ∀ a, f a = u8 (l.idxOf a)) (x : Option α) :
    spelled (choiceField l x :: r) = maybe 1 f x ++ spelled r := by
  cases x with
  | none => exact spelled_byteAbsent r
  | some a =>
    show _ = f a ++ spelled r
    rw [h a]
    exact spelled_byte _ r

theorem spelled_switch (x : Option Bool) : spelled (choiceField [false, true] x :: r) = maybe 1 flag x ++ spelled r :=
  spelled_choice r (by intro a; cases a <;> rfl) x

theorem spelled_side (x : Option Side) : spelled (choiceField [.e0, .e1] x :: r) = maybe 1 sideByte x ++ spelled r :=
  spelled_choice r (by intro a; cases a <;> rfl) x

theorem spelled_lie (x : Option Lie) : spelled (choiceField [.normal, .reverse] x :: r) = maybe 1 lieByte x ++ spelled r :=
  spelled_choice r (by intro a; cases a <;> rfl) x

theorem spelled_deckEnd (x : Option DeckEnd) : spelled (choiceField [.a, .b] x :: r) = maybe 1 deckEndByte x ++ spelled r :=
  spelled_choice r (by intro e; cases e <;> rfl) x

theorem spelled_stepDir (x : Option StepDir) :
    spelled (choiceField [.forward, .reverse] x :: r) = maybe 1 stepDirByte x ++ spelled r :=
  spelled_choice r (by intro a; cases a <;> rfl) x

end

theorem maybe_some {α : Type} (n : Nat) (f : α → List Byte) (a : α) : maybe n f (some a) = f a := rfl

/-! ## LAYOUT, BLOCK, POINT, SIGNAL and ROUTE -/

/-- A table's entries are read in the order of their indices. -/
theorem toList_eq_map_tget {α : Type} {n : Nat} (t : Tab α n) : t.toList = (indices n).map (tget t) := by
  refine List.ext_getElem (by simp [indices]) fun i h1 h2 => ?_
  simp [indices, tget]

theorem layoutFields_spelled (s : State) :
    s.fieldsOf .layout = spelled ((match s.mode with
      | .config => [byteField (some 0), byteField none]
      | .run => [byteField (some 1), byteField none]
      | .halt c => [byteField (some 2), choiceField [.host, .key] (some c)]) ++
        (indices 16).map fun k => flagField (tget s.cues k)) := by
  have hcues : s.cues.toList.flatMap flag = spelled ((indices 16).map fun k => flagField (tget s.cues k)) := by
    rw [spelled_map, toList_eq_map_tget, List.flatMap_map]
    simp
  rw [spelled_append, ← hcues]
  show s.layoutFields = _
  unfold State.layoutFields
  cases s.mode with
  | config => rfl
  | run => rfl
  | halt c => cases c <;> rfl

/-- The first slot that lists a block is the only one that does. -/
theorem holder_eq {s : State} {b : Fin 48} {holder : Option (Fin 24)} (h : ∀ t, holder = some t ↔ b ∈ s.listOf t) :
    s.holder b = holder := by
  cases hs : s.holder b with
  | none =>
    rw [holder_eq_none] at hs
    cases holder with
    | none => rfl
    | some t => exact absurd ((h t).1 rfl) (hs t)
  | some t =>
    have hany := List.find?_some hs
    simp only [List.any_eq_true, beq_iff_eq] at hany
    exact ((h t).2 (List.mem_map.2 hany)).symm

theorem blockFields_spelled (s : State) (b : Fin 48) : s.fieldsOf (.block b) = spelled
    [flagField (tget s.channels b).occupied, flagField (tget s.channels b).held, flagField (tget s.channels b).stale,
      choiceField [.on, .off, .tripped, .cooling, .latched] (some (tget s.feeds b).state), flagField (tget s.feeds b).isolated,
      flagField (tget s.blockFlags b).stray.isSome,
      choiceField [.noTrain, .ambiguous, .overlong, .removed] (tget s.blockFlags b).stray,
      flagField (tget s.blockFlags b).bridged, byteField ((s.holder b).map (·.val)),
      byteField ((tget s.reservers b).map (·.val))] := by
  have hfeed : ∀ x, feedByte x = u8 ([.on, .off, .tripped, .cooling, .latched].idxOf x) := by intro x; cases x <;> rfl
  have hstray : ∀ x, strayByte x = u8 ([.noTrain, .ambiguous, .overlong, .removed].idxOf x) := by intro x; cases x <;> rfl
  simp only [spelled_flag, spelled_choice _ hfeed, spelled_choice _ hstray, spelled_byteOf, maybe_some, spelled_nil,
    List.append_nil, ← List.append_assoc]
  rfl

/-- A lie that may be unknown. -/
theorem spelled_knownLie (x : Option Lie) (r : List ReportField) :
    spelled (choiceField [some .normal, some .reverse, none] (some x) :: r) =
      (match x with
        | some .normal => u8 0
        | some .reverse => u8 1
        | none => u8 2) ++ spelled r := by
  refine (spelled_byte _ r).trans (congrArg (· ++ spelled r) ?_)
  rcases x with _ | _ | _ <;> rfl

theorem motionByte_eq (s : State) (p : Fin 64) :
    s.motionByte p = u8 (if (s.movingTarget p).isSome then 2 else if (s.queuedTarget p).isSome then 1 else 0) := by
  unfold State.motionByte
  cases s.movingTarget p <;> cases s.queuedTarget p <;> rfl

theorem pointFields_spelled (s : State) (p : Fin 64) : s.fieldsOf (.point p) = spelled
    [choiceField [some .normal, some .reverse, none] (some (tget s.points p).lie),
      byteField (some (if (s.movingTarget p).isSome then 2 else if (s.queuedTarget p).isSome then 1 else 0)),
      choiceField [.normal, .reverse] (s.movingTarget p), choiceField [.normal, .reverse] (s.queuedTarget p),
      flagField (tget s.points p).failed, byteField (some (tget s.points p).locks),
      choiceField [.neither, .normal, .reverse] (some (tget s.contacts p).reading), flagField (tget s.contacts p).stale,
      choiceField [some .normal, some .reverse, none] (some (s.proof p))] := by
  have hreading : ∀ x, (match x with
      | Reading.neither => u8 0
      | .normal => u8 1
      | .reverse => u8 2) = u8 ([.neither, .normal, .reverse].idxOf x) := by intro x; cases x <;> rfl
  simp only [spelled_knownLie, spelled_byte, ← motionByte_eq, spelled_lie, spelled_flag, spelled_choice _ hreading, maybe_some,
    spelled_nil, List.append_nil, ← List.append_assoc]
  rfl

theorem signalFields_spelled (s : State) (g : Fin 32) : s.fieldsOf (.signal g) = spelled
    [choiceField [.dark, .danger, .caution, .prelim, .clear] (some (tget s.signals g).aspect),
      byteField ((tget s.signals g).control.map (·.val)), flagField (tget s.signals g).cleared,
      choiceField [false, true] (tget s.signals g).release, s.timerField (tget s.signals g).timer,
      byteField (some (tget s.signals g).overspeeds.toNat), (2, (tget s.signals g).lastOverspeed)] := by
  have haspect : ∀ x, (match x with
      | Aspect.dark => u8 0
      | .danger => u8 1
      | .caution => u8 2
      | .prelim => u8 3
      | .clear => u8 4) = u8 ([.dark, .danger, .caution, .prelim, .clear].idxOf x) := by intro x; cases x <;> rfl
  simp only [spelled_choice _ haspect, spelled_byteOf, spelled_flag, spelled_switch, spelled_timer, spelled_byte, spelled_word,
    maybe_some, spelled_nil, List.append_nil, ← List.append_assoc]
  rfl

theorem spelled_flags (l : List Bool) : spelled (l.map flagField) = l.flatMap flag := by
  rw [spelled_map]
  simp

/-- The fields of a ROUTE report: the state's code, and what the record carries in its state (R107). -/
def State.routeReport (s : State) (state : Nat) (reason : Option FreeReason) (asked : Option (RouteClass × MsCount))
    (proof : Option (Bool × Bool)) (marks : Option Marks) (danger : Bool) (t : Timer) : List ReportField :=
  [byteField (some state),
    choiceField [.none, .released, .cancelled, .forced, .expired, .pointFailed, .turntable, .halted] reason,
    choiceField [.host, .visitor] (asked.map (·.1)), ageField (asked.map fun x => s.ageOf x.2),
    choiceField [false, true] (proof.map (·.1)), choiceField [false, true] (proof.map (·.2)),
    byteField (some ((marks.map (·.path.length)).getD 0))] ++
  ((marks.map (·.path)).getD []).map flagField ++
  [choiceField [false, true] (marks.map (·.overlap)), byteField (if danger then some 1 else none), s.timerField t]

theorem routeReport_spelled (s : State) (state : Nat) (reason : Option FreeReason) (asked : Option (RouteClass × MsCount))
    (proof : Option (Bool × Bool)) (marks : Option Marks) (danger : Bool) (t : Timer) :
    spelled (s.routeReport state reason asked proof marks danger t) = u8 state ++ maybe 1 freeByte reason ++
      maybe 5 (fun a : RouteClass × MsCount =>
        (match a.1 with
          | .host => u8 0
          | .visitor => u8 1) ++ ageBytes (s.ageOf a.2)) asked ++
      maybe 2 (fun a : Bool × Bool => flag a.1 ++ flag a.2) proof ++ marksBytes marks ++
      maybe 1 (fun _ => u8 1) (if danger then some () else none) ++ s.timerBytes t := by
  have hreason : ∀ x, freeByte x =
      u8 ([.none, .released, .cancelled, .forced, .expired, .pointFailed, .turntable, .halted].idxOf x) := by
    intro x; cases x <;> rfl
  have hclass : ∀ x, (match x with
      | RouteClass.host => u8 0
      | .visitor => u8 1) = u8 ([.host, .visitor].idxOf x) := by intro x; cases x <;> rfl
  have hasked (l : List ReportField) : spelled (choiceField [.host, .visitor] (asked.map (·.1)) ::
      ageField (asked.map fun x => s.ageOf x.2) :: l) = maybe 5 (fun a : RouteClass × MsCount =>
        (match a.1 with
          | .host => u8 0
          | .visitor => u8 1) ++ ageBytes (s.ageOf a.2)) asked ++ spelled l := by
    rw [spelled_choice _ hclass, spelled_age]
    cases asked with
    | none => rfl
    | some a => exact (List.append_assoc _ _ _).symm
  have hproof (l : List ReportField) : spelled (choiceField [false, true] (proof.map (·.1)) ::
      choiceField [false, true] (proof.map (·.2)) :: l) =
        maybe 2 (fun a : Bool × Bool => flag a.1 ++ flag a.2) proof ++ spelled l := by
    rw [spelled_switch, spelled_switch]
    cases proof with
    | none => rfl
    | some a => exact (List.append_assoc _ _ _).symm
  have hmarks (l : List ReportField) : spelled (byteField (some ((marks.map (·.path.length)).getD 0)) ::
      (((marks.map (·.path)).getD []).map flagField ++ choiceField [false, true] (marks.map (·.overlap)) :: l)) =
        marksBytes marks ++ spelled l := by
    rw [spelled_byte, spelled_append, spelled_flags, spelled_switch]
    cases marks with
    | none => rfl
    | some m => simp [marksBytes, counted, maybe]
  have hdanger (l : List ReportField) : spelled (byteField (if danger then some 1 else none) :: l) =
      maybe 1 (fun _ => u8 1) (if danger then some () else none) ++ spelled l := by
    cases danger with
    | false => exact spelled_byteAbsent l
    | true => exact spelled_byte 1 l
  simp only [State.routeReport, List.cons_append, List.nil_append, List.append_assoc]
  rw [spelled_byte, spelled_choice _ hreason, hasked, hproof, hmarks, hdanger, spelled_timer, spelled_nil, List.append_nil]

/-- The report of a route by its record. -/
def State.routeReportOf (s : State) : RouteRec → List ReportField
  | .free x => s.routeReport 0 (some x) none none none false none
  | .queued k since => s.routeReport 1 none (some (k, since)) none none false none
  | .setting _ m => s.routeReport 2 none none none (some m) false none
  | .isSet x y m => s.routeReport 3 none none (some (x, y)) (some m) false none
  | .entered x (.running e) m => s.routeReport 4 none none none (some m) x (some e)
  | .entered x _ m => s.routeReport 4 none none none (some m) x none
  | .cancelling e m => s.routeReport 5 none none none (some m) false (some e)

theorem routeFields_spelled (s : State) (r : Fin 64) :
    s.fieldsOf (.route r) = spelled (s.routeReportOf (tget s.routes r)) := by
  show s.routeFields r = _
  unfold State.routeFields
  cases tget s.routes r with
  | free x => exact (routeReport_spelled s 0 (some x) none none none false none).symm
  | queued k since => exact (routeReport_spelled s 1 none (some (k, since)) none none false none).symm
  | setting x m => exact (routeReport_spelled s 2 none none none (some m) false none).symm
  | isSet x y m => exact (routeReport_spelled s 3 none none (some (x, y)) (some m) false none).symm
  | entered x timer m =>
    cases timer with
    | running e =>
      cases x with
      | false => exact (routeReport_spelled s 4 none none none (some m) false (some e)).symm
      | true => exact (routeReport_spelled s 4 none none none (some m) true (some e)).symm
    | _ =>
      cases x with
      | false => exact (routeReport_spelled s 4 none none none (some m) false none).symm
      | true => exact (routeReport_spelled s 4 none none none (some m) true none).symm
  | cancelling e m => exact (routeReport_spelled s 5 none none none (some m) false (some e)).symm

/-- The fields of LAYOUT, BLOCK, POINT, SIGNAL and ROUTE. -/
theorem trackReports_carryTheirFields : Sys2Proof.Claims.trackReportsCarryTheirFields := by
  intro s
  refine ⟨layoutFields_spelled s, fun b holder hb => ?_, fun p moving queued proof hm hq hp => ?_, signalFields_spelled s,
    fun r => ⟨fun x h => ?_, fun k since h => ?_, fun x m h => ?_, fun x y m h => ?_, fun x timer m h => ?_, fun e m h => ?_⟩⟩
  · rw [← holder_eq hb]
    exact blockFields_spelled s b
  · rw [← Option.ext fun l => movingTarget_eq_some.trans (hm l).symm,
      ← Option.ext fun l => queuedTarget_eq_some.trans (hq l).symm,
      ← Option.ext fun l => (proof_eq_some.trans provedIn_iff).trans (hp l).symm]
    exact pointFields_spelled s p
  case refine_7 =>
    refine (routeFields_spelled s r).trans ?_
    rw [h]
    cases timer <;> rfl
  all_goals exact (routeFields_spelled s r).trans (by rw [h]; rfl)

end Sys2Proof.Machine
end

section
/-! SUPPORT. The reports of trains, traps, modules, shows and keys (O58). -/

namespace Sys2Proof.Machine

/-! ## TRAIN -/

/-- The fields of a TRAIN report: the state's code, and what the record carries in its state (R64). -/
def trainReport (state : Nat) (number : Option Nat) (l : List TrainBlock) (speed : Option Nat) (seen : Option LastSeen)
    (overlong : Bool) : List ReportField :=
  [byteField (some state), (2, number), byteField (some l.length)] ++
    l.flatMap (fun x => [byteField (some x.block.val), choiceField [.e0, .e1] (some x.front)]) ++
    [(2, speed), byteField (seen.map (·.block.val)), choiceField [.e0, .e1] (seen.map (·.front)),
      (6, seen.map (·.time.toNat)), flagField overlong]

theorem trainReport_spelled (state : Nat) (number : Option Nat) (l : List TrainBlock) (speed : Option Nat)
    (seen : Option LastSeen) (overlong : Bool) : spelled (trainReport state number l speed seen overlong) =
      u8 state ++ maybe 2 u16 number ++ counted (fun x : TrainBlock => u8 x.block.val ++ sideByte x.front) l ++
        maybe 2 u16 speed ++ maybe 8 (fun x : LastSeen => u8 x.block.val ++ sideByte x.front ++ msBytes x.time) seen ++
        flag overlong := by
  have hlist : spelled (l.flatMap fun x => [byteField (some x.block.val), choiceField [.e0, .e1] (some x.front)]) =
      l.flatMap fun x => u8 x.block.val ++ sideByte x.front := by
    rw [spelled_flatMap]
    simp [spelled_side, maybe_some]
  have hseen (r : List ReportField) : spelled (byteField (seen.map (·.block.val)) ::
      choiceField [.e0, .e1] (seen.map (·.front)) :: (6, seen.map (·.time.toNat)) :: r) =
        maybe 8 (fun x : LastSeen => u8 x.block.val ++ sideByte x.front ++ msBytes x.time) seen ++ spelled r := by
    rw [spelled_byteOf, spelled_side, spelled_timeOf]
    cases seen with
    | none => rfl
    | some x => simp only [maybe_some, Option.map_some, List.append_assoc]
  simp only [trainReport, List.cons_append, List.nil_append, List.append_assoc]
  rw [spelled_byte, spelled_word, spelled_byte, spelled_append, hlist, spelled_word, hseen, spelled_flag, spelled_nil,
    List.append_nil]
  simp only [counted, List.append_assoc]

/-- The report of a train by its record. -/
def Train.report : Train → List ReportField
  | .free => trainReport 0 none [] none none false
  | .active n l speed overlong => trainReport 1 (some n) l speed none overlong
  | .lost n seen speed overlong => trainReport 2 (some n) [] speed (some seen) overlong

theorem trainFields_spelled (s : State) (t : Fin 24) : s.fieldsOf (.train t) = spelled (Train.report (tget s.trains t)) := by
  show s.trainFields t = _
  unfold State.trainFields
  cases tget s.trains t with
  | free => exact (trainReport_spelled 0 none [] none none false).symm
  | active n l speed overlong => exact (trainReport_spelled 1 (some n) l speed none overlong).symm
  | lost n seen speed overlong =>
    refine Eq.trans ?_ (trainReport_spelled 2 (some n) [] speed (some seen) overlong).symm
    simp only [counted, maybe_some, List.length_nil, List.flatMap_nil, List.append_nil, List.append_assoc]

/-! ## TRAP -/

/-- The fields of a TRAP report (R138). -/
def trapReport (x : TrapRec) (state : Nat) (lost : Option Bool) (since : Option Nat) : List ReportField :=
  [byteField (some state), choiceField [false, true] lost, ageField since, (2, x.last.map (·.speed)),
    choiceField [.e0, .e1] (x.last.map (·.toward)), (4, x.last.map (·.t)),
    choiceField [false, true] (x.last.map (·.overwritten)), byteField (x.last.map (·.count.toNat)),
    byteField (some x.timeouts.toNat), choiceField [.result, .timeout] x.outcome]

theorem trapReport_spelled (x : TrapRec) (state : Nat) (lost : Option Bool) (since : Option Nat) :
    spelled (trapReport x state lost since) = u8 state ++ maybe 1 flag lost ++ maybe 4 ageBytes since ++
      maybe 9 resultBytes x.last ++ u8 x.timeouts.toNat ++ maybe 1 (fun y => match y with
        | .result => u8 0
        | .timeout => u8 1) x.outcome := by
  have houtcome : ∀ y, (match y with
      | TrapOutcome.result => u8 0
      | .timeout => u8 1) = u8 ([.result, .timeout].idxOf y) := by intro y; cases y <;> rfl
  have hlast (r : List ReportField) : spelled ((2, x.last.map (·.speed)) :: choiceField [.e0, .e1] (x.last.map (·.toward)) ::
      (4, x.last.map (·.t)) :: choiceField [false, true] (x.last.map (·.overwritten)) ::
      byteField (x.last.map (·.count.toNat)) :: r) = maybe 9 resultBytes x.last ++ spelled r := by
    rw [spelled_word, spelled_side, spelled_double, spelled_switch, spelled_byteOf]
    cases x.last with
    | none => rfl
    | some y => simp only [maybe_some, Option.map_some, resultBytes, List.append_assoc]
  rw [trapReport, spelled_byte, spelled_switch, spelled_age, hlast, spelled_byte, spelled_choice _ houtcome, spelled_nil,
    List.append_nil]
  simp only [List.append_assoc]

/-- The report of a trap by its state. -/
def State.trapReportOf (s : State) (x : TrapRec) : List ReportField :=
  match x.state with
  | .idle => trapReport x 0 none none
  | .timing .ab t0 lost _ => trapReport x 1 (some lost) (some ((s.clock.base - t0).toNat / 1000))
  | .timing .ba t0 lost _ => trapReport x 2 (some lost) (some ((s.clock.base - t0).toNat / 1000))
  | .holdoff => trapReport x 3 none none

theorem trapFields_spelled (s : State) (t : Fin 4) : s.fieldsOf (.trap t) = spelled (s.trapReportOf (tget s.traps t)) := by
  show s.trapFields t = _
  unfold State.trapFields
  generalize tget s.traps t = x
  obtain ⟨state, last, results, timeouts, outcome⟩ := x
  have close {a b : List Byte} (h : a = b) : a ++ (match outcome with
      | some .result => u8 0
      | some .timeout => u8 1
      | none => u8 0xFF) = b ++ maybe 1 (fun y => match y with
        | .result => u8 0
        | .timeout => u8 1) outcome := by
    rw [h]
    rcases outcome with _ | _ | _ <;> rfl
  cases state with
  | idle => exact (close rfl).trans (trapReport_spelled _ 0 none none).symm
  | timing dir t0 lost e =>
    cases dir with
    | ab => exact (close rfl).trans (trapReport_spelled _ 1 (some lost) (some ((s.clock.base - t0).toNat / 1000))).symm
    | ba => exact (close rfl).trans (trapReport_spelled _ 2 (some lost) (some ((s.clock.base - t0).toNat / 1000))).symm
  | holdoff => exact (close rfl).trans (trapReport_spelled _ 3 none none).symm

/-! ## MODULE -/

theorem classesOf_eq (s : State) (m : Fin 24) : s.classesOf m =
    (List.range 5).filter fun k => ([s.bus.safety, s.bus.prove, s.bus.keys, s.bus.mimic, s.bus.text].getD k []).contains m := by
  have hzip : [s.bus.safety, s.bus.prove, s.bus.keys, s.bus.mimic, s.bus.text].zipIdx = (List.range 5).map fun k =>
      ([s.bus.safety, s.bus.prove, s.bus.keys, s.bus.mimic, s.bus.text].getD k [], k) := rfl
  rw [State.classesOf, hzip, List.filter_map, List.map_map]
  exact List.map_id _

theorem counted_spelled (l : List Nat) : spelled (byteField (some l.length) :: l.map fun k => byteField (some k)) =
    counted u8 l := by
  rw [spelled_byte, spelled_map]
  simp [counted]

theorem moduleFields_spelled (s : State) (m : Fin 24) : s.fieldsOf (.panel m) = spelled
    ([byteField ((tget s.tables.modules m).map (·.address)),
      choiceField [.lamp, .keys, .mimic, .text] ((tget s.tables.modules m).map (·.type)),
      choiceField [.unknown, .online, .offline] (some (tget s.modules m).state),
      byteField (some (tget s.modules m).consecutive), byteField (some (tget s.modules m).total.toNat),
      choiceField [.noAck, .stretch, .stuck, .mismatch] (tget s.modules m).cause,
      byteField (some (s.classesOf m).length)] ++ (s.classesOf m).map fun k => byteField (some k)) := by
  have htype : ∀ x, moduleTypeByte x = u8 ([.lamp, .keys, .mimic, .text].idxOf x) := by intro x; cases x <;> rfl
  have hdef (r : List ReportField) : spelled (byteField ((tget s.tables.modules m).map (·.address)) ::
      choiceField [.lamp, .keys, .mimic, .text] ((tget s.tables.modules m).map (·.type)) :: r) =
        maybe 2 (fun d : ModuleDef => u8 d.address ++ moduleTypeByte d.type) (s.moduleDef m) ++ spelled r := by
    rw [spelled_byteOf, spelled_choice _ htype, State.moduleDef]
    cases tget s.tables.modules m with
    | none => rfl
    | some d => exact (List.append_assoc _ _ _).symm
  have hstate : ∀ x, (match x with
      | ModuleState.unknown => u8 0
      | .online => u8 1
      | .offline => u8 2) = u8 ([.unknown, .online, .offline].idxOf x) := by intro x; cases x <;> rfl
  have hcause (x : Option FailCause) (r : List ReportField) : spelled (choiceField [.noAck, .stretch, .stuck, .mismatch] x :: r) =
      (match x with
        | some .noAck => u8 0
        | some .stretch => u8 1
        | some .stuck => u8 2
        | some .mismatch => u8 3
        | none => u8 0xFF) ++ spelled r := by
    rcases x with _ | _ | _ | _ | _
    · exact spelled_byteAbsent r
    all_goals exact spelled_byte _ r
  simp only [List.cons_append, List.nil_append]
  rw [hdef, spelled_choice _ hstate, spelled_byte, spelled_byte, hcause, counted_spelled]
  simp only [maybe_some, ← List.append_assoc]
  rfl

/-! ## SHOW -/

theorem reason_code (r : Reason) : reasonsInOrder.idxOf r + 1 = r.code := by cases r <;> rfl

/-- The fields of the cause of an abort (R193). -/
def AbortCause.fields : AbortCause → List ReportField
  | .refused r => [byteField (some 0), byteField (some (reasonsInOrder.idxOf r + 1))]
  | .timeout => [byteField (some 1)]
  | .routeFreed => [byteField (some 2)]
  | .turntable => [byteField (some 3)]
  | .stopped => [byteField (some 4)]
  | .halted => [byteField (some 5)]

/-- The fields of a show's last end and its count of runs (R188). -/
def ShowRec.endFields (x : ShowRec) : List ReportField :=
  (match x.last with
    | none => [byteField none]
    | some .completed => [byteField (some 0)]
    | some (.aborted n c) => byteField (some 1) :: byteField (some n) :: c.fields) ++ [byteField (some x.runs.toNat)]

theorem endFields_spelled (x : ShowRec) : spelled x.endFields = maybe 1 lastEndBytes x.last ++ u8 x.runs.toNat := by
  have hcause (c : AbortCause) : spelled c.fields = abortBytes c := by
    cases c with
    | refused r =>
      rw [AbortCause.fields, reason_code, spelled_byte, spelled_byte, spelled_nil, List.append_nil, abortBytes]
    | _ => rfl
  have hruns : spelled [byteField (some x.runs.toNat)] = u8 x.runs.toNat := (spelled_byte _ []).trans (List.append_nil _)
  rw [ShowRec.endFields, spelled_append, hruns]
  refine congrArg (· ++ u8 x.runs.toNat) ?_
  rcases x.last with _ | _ | ⟨n, c⟩
  · rfl
  · rfl
  · rw [spelled_byte, spelled_byte, hcause, maybe_some, lastEndBytes, List.append_assoc]

/-- The fields of a run (R200). -/
def State.runFields (s : State) (r : Run) : List ReportField :=
  (match r.origin with
    | .host => [byteField (some 0)]
    | .key k => [byteField (some 1), byteField (some k.val)]) ++
    [byteField (some r.step), choiceField [.none, .route, .turntable, .cue, .pause] (some r.wait),
      s.timerField r.timer, byteField (some r.routes.length)] ++
    r.routes.map (fun q => byteField (some q.val)) ++ [flagField r.turnPending]

theorem runFields_spelled (s : State) (r : Run) : spelled (s.runFields r) = s.runBytes r := by
  have hwait : ∀ x, waitByte x = u8 ([.none, .route, .turntable, .cue, .pause].idxOf x) := by intro x; cases x <;> rfl
  have hroutes : spelled (r.routes.map fun q => byteField (some q.val)) = r.routes.flatMap fun q => u8 q.val := by
    rw [spelled_map]
    simp
  have horigin : spelled (match r.origin with
      | .host => [byteField (some 0)]
      | .key k => [byteField (some 1), byteField (some k.val)]) = (match r.origin with
        | .host => u8 0
        | .key k => u8 1 ++ u8 k.val) := by
    cases r.origin with
    | host => rfl
    | key k => rw [spelled_byte, spelled_byte, spelled_nil, List.append_nil]
  simp only [State.runFields, List.append_assoc, List.cons_append, List.nil_append]
  rw [spelled_append, spelled_byte, spelled_choice _ hwait, spelled_timer, spelled_byte, spelled_append, hroutes,
    spelled_flag, spelled_nil]
  simp only [State.runBytes, counted, maybe_some, List.append_assoc, List.append_nil]
  exact congrArg (· ++ _) horigin

/-- The fields of a run that is not under way (log entry 31). -/
def noRunFields : List ReportField :=
  [byteField none, byteField none, byteField none, (4, none), byteField (some 0), byteField none]

theorem showFields_spelled (s : State) (i : Fin 8) : s.fieldsOf (.showing i) = spelled
    ((match (tget s.shows i).state with
      | .idle => byteField (some 0) :: noRunFields
      | .queued _ => byteField (some 1) :: noRunFields
      | .running r => byteField (some 2) :: s.runFields r
      | .aborted => byteField (some 3) :: noRunFields) ++ (tget s.shows i).endFields) := by
  show s.showFields i = _
  rw [spelled_append, endFields_spelled]
  unfold State.showFields
  rw [← List.append_assoc]
  refine congrArg (fun l : List Byte => l ++ maybe 1 lastEndBytes _ ++ u8 _) ?_
  cases (tget s.shows i).state with
  | running r => exact ((spelled_byte 2 _).trans (congrArg _ (runFields_spelled s r))).symm
  | _ => rfl

/-! ## KEY -/

theorem keyFields_spelled (s : State) (k : Fin 64) : s.fieldsOf (.key k) = spelled
    [choiceField [.pressed, .released] (tget s.keys k).last, byteField (some (tget s.keys k).presses.toNat),
      byteField ((tget s.keys k).result.map fun
        | .done => 0
        | .refused r => reasonsInOrder.idxOf r + 1
        | .heldOff => 15
        | .none => 16),
      flagField (tget s.keys k).holdOff.isSome, s.timerField (tget s.keys k).holdOff,
      choiceField [.dark, .lit, .flashing] (some (s.keyLamp k))] := by
  have haction (x : Option KeyAct) (r : List ReportField) : spelled (choiceField [.pressed, .released] x :: r) =
      (match x with
        | some .pressed => u8 0
        | some .released => u8 1
        | none => u8 0xFF) ++ spelled r := by
    rcases x with _ | _ | _
    · exact spelled_byteAbsent r
    all_goals exact spelled_byte _ r
  have hresult (r : List ReportField) : spelled (byteField ((tget s.keys k).result.map fun
        | .done => 0
        | .refused r => reasonsInOrder.idxOf r + 1
        | .heldOff => 15
        | .none => 16) :: r) = maybe 1 keyResultByte (tget s.keys k).result ++ spelled r := by
    rw [spelled_byteOf]
    rcases (tget s.keys k).result with _ | _ | q | _ | _
    case some.refused => simp only [maybe_some, reason_code, keyResultByte]
    all_goals rfl
  have hlamp : ∀ x, (match x with
      | KeyLamp.dark => u8 0
      | .lit => u8 1
      | .flashing => u8 2) = u8 ([.dark, .lit, .flashing].idxOf x) := by intro x; cases x <;> rfl
  rw [haction, spelled_byte, hresult, spelled_flag, spelled_timer, spelled_choice _ hlamp, spelled_nil, List.append_nil]
  simp only [maybe_some, ← List.append_assoc]
  rfl

/-- The fields of TRAIN, TRAP, MODULE, SHOW and KEY. -/
theorem otherReports_carryTheirFields : Sys2Proof.Claims.otherReportsCarryTheirFields := by
  intro s
  refine ⟨fun t => ⟨fun h => ?_, fun n l speed overlong h => ?_, fun n seen speed overlong h => ?_⟩,
    fun t => ⟨fun h => ?_, fun h => ?_, fun dir t0 lost e h => ?_⟩, fun m => ?_,
    fun i => ⟨fun h => ?_, fun o h => ?_, fun h => ?_, fun r h => ?_⟩, keyFields_spelled s⟩
  iterate 3 exact (trainFields_spelled s t).trans (by rw [h]; rfl)
  iterate 2 exact (trapFields_spelled s t).trans (by unfold State.trapReportOf; rw [h]; rfl)
  · refine (trapFields_spelled s t).trans ?_
    unfold State.trapReportOf
    rw [h]
    cases dir <;> rfl
  · dsimp only
    rw [← classesOf_eq]
    exact moduleFields_spelled s m
  all_goals
    refine (showFields_spelled s i).trans ?_
    rw [h]
    rfl

end Sys2Proof.Machine
end

section
/-! SUPPORT. The report of the turntable (O58). -/

namespace Sys2Proof.Machine

/-- The fields of a move: its record, the distance that remains, and its phase with the creep count (R142). -/
def State.moveFields (s : State) (m : MoveRec) (phase : ReportField) (creep : Option Nat) : List ReportField :=
  m.origin.fields ++ [byteField (some m.road.val), choiceField [.a, .b] (some m.side), (2, some m.target),
    choiceField [.forward, .reverse] (some m.dir), (2, some m.distance), (4, some m.steps),
    (2, s.tables.turntable.bind fun t => s.deck.pos.map fun x => t.dist x m.target m.dir), phase, (2, creep)]

theorem origin_spelled (o : TurnOrigin) : spelled o.fields = originBytes o := by
  cases o with
  | host => rfl
  | route r => rw [TurnOrigin.fields, spelled_byte, spelled_byte, spelled_nil, List.append_nil, originBytes]
  | showing i => rw [TurnOrigin.fields, spelled_byte, spelled_byte, spelled_nil, List.append_nil, originBytes]

theorem remaining_spelled (s : State) (m : MoveRec) :
    maybe 2 u16 (s.tables.turntable.bind fun t => s.deck.pos.map fun x => t.dist x m.target m.dir) = s.remBytes m := by
  unfold State.remBytes
  cases s.tables.turntable with
  | none => rfl
  | some t => cases s.deck.pos <;> rfl

theorem moveBytes_spelled {s : State} {m : MoveRec} {phase : ReportField} {creep : Option Nat}
    (hm : s.deck.state.move = some m) (hp : phaseBytes s.deck.state = spelled [phase, (2, creep)]) :
    s.moveBytes = spelled (s.moveFields m phase creep) := by
  rw [State.moveBytes, hm, State.moveFields, spelled_append, origin_spelled, spelled_byte, spelled_deckEnd, spelled_word,
    spelled_stepDir, spelled_word, spelled_double, spelled_word, remaining_spelled, ← hp]
  simp only [maybe_some, List.append_assoc]

/-- The fields of a TURNTABLE report: those of every state, with the code, the move, the homing and the fault of its own. -/
def Deck.report (d : Deck) (state : Nat) (moving homing : List ReportField) (fault : Option FaultCause) : List ReportField :=
  [byteField (some state), (2, d.pos), byteField (d.align.map (·.road.val)),
    choiceField [.a, .b] (d.align.map (·.side)), flagField d.locked, choiceField [.forward, .reverse] d.lastDir] ++
  moving ++ homing ++ (match d.lastOutcome with
    | none => [byteField none, byteField none]
    | some (o, origin) => choiceField [.aligned, .stopped, .fault] (some o) :: origin.fields) ++
  [choiceField [.boltOutTimeout, .boltInTimeout, .indexError, .indexNotFound] fault,
    byteField (some d.corrections.toNat)] ++ (match d.lastCorrection with
    | none => [byteField (some 0)]
    | some e => [byteField (some 1), (2, some (e % 65536).toNat)]) ++
  [flagField d.boltOut, flagField d.boltIn, flagField (d.relay == .normal), flagField (d.relay == .reverse)]

theorem lastOutcome_spelled (x : Option (TurnOutcome × TurnOrigin)) : spelled (match x with
    | none => [byteField none, byteField none]
    | some (o, origin) => choiceField [.aligned, .stopped, .fault] (some o) :: origin.fields) = maybe 2 outcomeBytes x := by
  rcases x with _ | ⟨o, origin⟩
  · rfl
  · rw [maybe_some, outcomeBytes, ← origin_spelled]
    refine (spelled_byte _ _).trans (congrArg (· ++ spelled origin.fields) ?_)
    cases o <;> rfl

theorem lastCorrection_spelled (x : Option Int) : spelled (match x with
    | none => [byteField (some 0)]
    | some e => [byteField (some 1), (2, some (e % 65536).toNat)]) = correctionBytes x := by
  cases x with
  | none => rfl
  | some e => rw [spelled_byte, spelled_word, maybe_some, spelled_nil, List.append_nil, correctionBytes]

/-- The fault that a deck's state carries. -/
def DeckState.fault : DeckState → Option FaultCause
  | .faulted c => some c
  | _ => none

theorem turntableFields_spelled {s : State} {state : Nat} {moving homing : List ReportField} {fault : Option FaultCause}
    (hs : deckStateByte s.deck.state = u8 state) (hm : s.moveBytes = spelled moving)
    (hh : homingBytes s.deck.state = spelled homing) (hf : s.deck.state.fault = fault) :
    s.fieldsOf .turntable = spelled (s.deck.report state moving homing fault) := by
  have hfault : ∀ x, faultByte x = u8 ([.boltOutTimeout, .boltInTimeout, .indexError, .indexNotFound].idxOf x) := by
    intro x; cases x <;> rfl
  have halign (r : List ReportField) : spelled (byteField (s.deck.align.map (·.road.val)) ::
      choiceField [.a, .b] (s.deck.align.map (·.side)) :: r) =
        maybe 2 (fun q : DeckReq => u8 q.road.val ++ deckEndByte q.side) s.deck.align ++ spelled r := by
    rw [spelled_byteOf, spelled_deckEnd]
    cases s.deck.align with
    | none => rfl
    | some q => exact (List.append_assoc _ _ _).symm
  have hdf : (match s.deck.state with
      | .faulted c => some c
      | _ => none) = fault := by
    rw [← hf]
    cases s.deck.state <;> rfl
  simp only [Deck.report, List.append_assoc, List.cons_append, List.nil_append]
  rw [spelled_byte, spelled_word, halign, spelled_flag, spelled_stepDir, spelled_append, spelled_append, spelled_append,
    lastOutcome_spelled, spelled_choice _ hfault, spelled_byte, spelled_append, lastCorrection_spelled, spelled_flag,
    spelled_flag, spelled_flag, spelled_flag, spelled_nil, List.append_nil, ← hs, ← hm, ← hh, ← hdf]
  simp only [← List.append_assoc]
  rfl

/-- A state without a move or a homing. -/
theorem restReport_spelled {s : State} {x : DeckState} {state : Nat} {fault : Option FaultCause} (h : s.deck.state = x)
    (hs : deckStateByte x = u8 state) (hm : x.move = none) (hh : homingBytes x = List.replicate 5 0xFF) (hf : x.fault = fault) :
    s.fieldsOf .turntable =
      spelled (s.deck.report state (List.replicate 17 (byteField none)) [(4, none), byteField none] fault) := by
  subst h
  exact turntableFields_spelled hs (by rw [State.moveBytes, hm]; rfl) hh hf

/-- A homing. -/
theorem homingReport_spelled {s : State} {known : Bool} {n : Nat} {p : HomePart} (h : s.deck.state = .homing known n p) :
    s.fieldsOf .turntable =
      spelled (s.deck.report 1 (List.replicate 17 (byteField none)) [(4, some n), flagField known] none) := by
  refine turntableFields_spelled ?_ ?_ ?_ ?_
  · rw [h]
    rfl
  · rw [State.moveBytes, h]
    rfl
  · rw [h, spelled_double, spelled_flag, maybe_some, spelled_nil, List.append_nil, homingBytes]
  · rw [h]
    rfl

/-- A state with a move under way. -/
theorem moveReport_spelled {s : State} {x : DeckState} {state : Nat} {m : MoveRec} {phase : ReportField} {creep : Option Nat}
    (h : s.deck.state = x) (hs : deckStateByte x = u8 state) (hm : x.move = some m)
    (hp : phaseBytes x = spelled [phase, (2, creep)]) (hh : homingBytes x = List.replicate 5 0xFF) (hf : x.fault = none) :
    s.fieldsOf .turntable =
      spelled (s.deck.report state (s.moveFields m phase creep) [(4, none), byteField none] none) := by
  subst h
  exact turntableFields_spelled hs (moveBytes_spelled hm hp) hh hf

/-- A phase with its creep count. -/
theorem creepPhase_spelled (k n : Nat) : spelled [byteField (some k), (2, some n)] = u8 k ++ u16 n := by
  rw [spelled_byte, spelled_word, maybe_some, spelled_nil, List.append_nil]

/-- The fields of TURNTABLE. -/
theorem deckReport_carriesItsFields : Sys2Proof.Claims.deckReportCarriesItsFields := by
  intro s
  exact ⟨fun h => restReport_spelled h rfl rfl rfl rfl,
    fun _ _ _ h => homingReport_spelled h,
    fun h => restReport_spelled h rfl rfl rfl rfl,
    fun _ _ h => moveReport_spelled h rfl rfl rfl rfl rfl,
    fun _ _ h => moveReport_spelled h rfl rfl rfl rfl rfl,
    fun _ _ _ _ h => moveReport_spelled h rfl rfl rfl rfl rfl,
    fun _ n _ h => moveReport_spelled h rfl rfl (creepPhase_spelled 2 n).symm rfl rfl,
    fun _ n _ h => moveReport_spelled h rfl rfl (creepPhase_spelled 3 n).symm rfl rfl,
    fun _ _ h => moveReport_spelled h rfl rfl rfl rfl rfl,
    fun _ _ h => moveReport_spelled h rfl rfl rfl rfl rfl,
    fun h => restReport_spelled h rfl rfl rfl rfl,
    fun _ h => restReport_spelled h rfl rfl rfl rfl⟩

end Sys2Proof.Machine
end

section
/-! SUPPORT. Frames, and the turns of the transmitter (O58). -/

namespace Sys2Proof.Machine

/-! ## Frames (R201) -/

theorem foldr_xor_start (l : List Byte) (c : Byte) :
    l.foldr (fun x y => x ^^^ y) c = l.foldr (fun x y => x ^^^ y) 0 ^^^ c := by
  induction l with
  | nil => simp
  | cons x l ih => simp only [List.foldr_cons, ih, BitVec.xor_assoc]

theorem xorAll_eq_foldr (l : List Byte) : xorAll l = l.foldr (fun x y => x ^^^ y) 0 := by
  have : Std.Commutative (α := Byte) (· ^^^ ·) := ⟨BitVec.xor_comm⟩
  have : Std.Associative (α := Byte) (· ^^^ ·) := ⟨BitVec.xor_assoc⟩
  exact List.foldl_eq_foldr

/-- With its check the bytes XOR to 0. -/
theorem foldr_xorAll (l : List Byte) : (l ++ [xorAll l]).foldr (fun x y => x ^^^ y) 0 = 0 := by
  rw [List.foldr_append, foldr_xor_start, ← xorAll_eq_foldr]
  simp

theorem frameBytes_isFrame (kind tag : Byte) (payload : List Byte) : isFrame (frameBytes kind tag payload) kind tag payload :=
  ⟨_, _, rfl, rfl, foldr_xorAll (BitVec.ofNat 8 (payload.length + 2) :: kind :: tag :: payload)⟩

theorem refusal_spelled (r : Reason) : spelled [byteField (some (reasonsInOrder.idxOf r + 1))] = u8 r.code := by
  rw [spelled_byte, reason_code, spelled_nil, List.append_nil]

theorem invalid_spelled (x : CheckTable) (i : Nat) :
    spelled [byteField (some 14), choiceField checkTablesInOrder (some x), (2, some i)] =
      u8 (Reason.code .invalidLayout) ++ u8 x.code ++ u16 i := by
  have htable : ∀ x : CheckTable, u8 x.code = u8 (checkTablesInOrder.idxOf x) := by intro x; cases x <;> rfl
  rw [spelled_byte, spelled_choice _ htable, spelled_word, spelled_nil, List.append_nil, maybe_some, maybe_some,
    ← List.append_assoc]
  rfl

theorem line_carriesTheFrame : Sys2Proof.Claims.lineCarriesTheFrame := by
  intro s
  refine ⟨fun h => ?_, fun payload h => ?_, fun tag reply l h hf => ?_⟩
  · simp only [State.onTheLine, h]
  · simp only [State.onTheLine, h]
    exact frameBytes_isFrame 0xC0 0 payload
  · have hline : s.onTheLine = frameBytes reply.bytes.1 tag reply.bytes.2 := by simp only [State.onTheLine, h, hf]
    have hframe : isFrame s.onTheLine reply.bytes.1 tag reply.bytes.2 := by
      rw [hline]
      exact frameBytes_isFrame _ tag _
    refine ⟨fun payload e => ?_, fun e => ?_, fun r e => ?_, fun x i e => ?_⟩
    · rw [e] at hframe
      exact hframe
    · rw [e] at hframe
      exact hframe
    · rw [e] at hframe
      rw [refusal_spelled]
      exact hframe
    · rw [e] at hframe
      rw [invalid_spelled]
      exact hframe

/-! ## The transmitter (R206 to R209) -/

/-- A transmitter that has just become free takes up the oldest reply, if there is one. -/
theorem startReply_freed (l : LinkPort) :
    LinkPort.startReply { l with tx := .free } = { l with tx := if l.fifo = [] then .free else .reply } := by
  obtain ⟨rx, fifo, tx, reports, resetting⟩ := l
  cases fifo <;> rfl

theorem sent_free {l : LinkPort} (h : l.tx = .free) : l.sent = l := by simp only [LinkPort.sent, h]

theorem sent_reply {l : LinkPort} {f : ReplyFrame} {rest : List ReplyFrame} (h : l.tx = .reply) (hf : l.fifo = f :: rest) :
    l.sent = { l with fifo := rest, tx := if rest = [] then .free else .reply } := by
  simp only [LinkPort.sent, h, hf, List.tail_cons]
  exact startReply_freed { l with fifo := rest }

theorem sent_report {l : LinkPort} {p : List Byte} (h : l.tx = .report p) :
    l.sent = { l with tx := if l.fifo = [] then .free else .reply } := by
  simp only [LinkPort.sent, h]
  exact startReply_freed l

/-- The Link Port stands in no field. -/
theorem fieldsOf_updLink (s : State) (f : LinkPort → LinkPort) (x : Subject) : (s.updLink f).fieldsOf x = s.fieldsOf x := by
  cases x <;> rfl

/-- The bytes of a report or of QUERY's answer. -/
def State.payloadOf (s : State) (x : Subject) : List Byte :=
  BitVec.ofNat 8 x.codeAndIndex.1 :: BitVec.ofNat 8 x.codeAndIndex.2 :: s.fieldsOf x

theorem reportOf_eq (s : State) (x : Subject) : s.reportOf x = s.payloadOf x := rfl

/-- Only an ABORTED show is changed by what follows its report. -/
theorem reported_same {s : State} {x : Subject} (h : ∀ i, x = .showing i → (tget s.shows i).state ≠ .aborted) :
    s.reported x = s := by
  cases x with
  | showing i => exact if_neg (h i rfl)
  | _ => rfl

/-- An ABORTED show returns to IDLE and is marked again (R193). -/
theorem reported_aborted {s : State} {i : Fin 8} (h : (tget s.shows i).state = .aborted) (hr : .showing i ∉ s.link.reports) :
    s.reported (.showing i) = { s with
      shows := tset s.shows i { tget s.shows i with state := .idle }
      link := { s.link with reports := s.link.reports ++ [.showing i] } } := by
  have hj : joinTail s.link.reports (.showing i) = s.link.reports ++ [.showing i] := if_neg hr
  rw [← hj]
  exact if_pos h

/-! ### Reports (R208) -/

theorem sendReport_idle {s : State} (h : s.link.tx ≠ .free ∨ s.link.fifo ≠ [] ∨ s.link.reports = []) : s.sendReport = s := by
  unfold State.sendReport
  rcases h with h | h | h
  · cases htx : s.link.tx with
    | free => exact absurd htx h
    | _ => rfl
  · cases hf : s.link.fifo with
    | nil => exact absurd hf h
    | cons f l => cases s.link.tx <;> rfl
  · rw [h]
    cases s.link.tx <;> cases s.link.fifo <;> rfl

theorem sendReport_head {s : State} {x : Subject} {l : List Subject} (ht : s.link.tx = .free) (hf : s.link.fifo = [])
    (hr : s.link.reports = x :: l) :
    s.sendReport = ({ s with link := { s.link with reports := l, tx := .report (s.payloadOf x) } } : State).reported x := by
  unfold State.sendReport
  rw [ht, hf, hr]
  rfl

/-! ### QUERY (R209) -/

theorem query_unknown {s : State} {code index : Nat} (h : subjectOf code index = none) :
    takeQuery ⟨code, index⟩ s = s.refuse .badValue := by
  unfold takeQuery
  dsimp only
  rw [h]

theorem query_answered {s : State} {dt : Nat} {tag : Byte} {code index : Nat} {x : Subject} (hs : s.hears tag)
    (h : subjectOf code index = some x) : exec (.query dt tag (.fields ⟨code, index⟩)) s =
      .next ((((s.frameLost dt).unmark x).reported x).pushReply tag (.ack ((s.later dt).payloadOf x))) := by
  have htake : takeQuery ⟨code, index⟩ (s.frameLost dt) =
      (((s.frameLost dt).unmark x).reported x, .ack ((s.later dt).payloadOf x)) := by
    have hf : (s.frameLost dt).reportOf x = (s.later dt).payloadOf x :=
      (reportOf_eq _ x).trans (congrArg (fun l => BitVec.ofNat 8 x.codeAndIndex.1 :: BitVec.ofNat 8 x.codeAndIndex.2 :: l)
        (fieldsOf_updLink (s.later dt) (fun l => { l with rx := .hunt }) x))
    unfold takeQuery
    dsimp only
    rw [h, ← hf]
  refine (request_heard s dt tag takeQuery _ hs).trans ?_
  rw [htake]

theorem transmitter_takesTurns : Sys2Proof.Claims.transmitterTakesTurns := by
  intro s dt
  refine ⟨decide_eq_true_iff, fun h => ?_, fun f l h hf => ?_, fun p h => ?_, fun h => ?_, fun x l ht hf hr => ⟨fun hx => ?_,
    fun i hx ha hn => ?_⟩, fun tag code index hs => ⟨fun h => ?_, fun x h hx => ?_, fun i h ha => ?_⟩⟩
  · exact congrArg (fun l => Host.Outcome.next { s.later dt with link := l }) (sent_free h)
  · exact congrArg (fun l => Host.Outcome.next { s.later dt with link := l }) (sent_reply h hf)
  · exact congrArg (fun l => Host.Outcome.next { s.later dt with link := l }) (sent_report h)
  · exact congrArg Host.Outcome.next (sendReport_idle (s := s.later dt) h)
  · refine congrArg Host.Outcome.next ((sendReport_head (s := s.later dt) ht hf hr).trans ?_)
    exact reported_same hx
  · subst hx
    refine congrArg Host.Outcome.next ((sendReport_head (s := s.later dt) ht hf hr).trans ?_)
    exact reported_aborted ha hn
  · exact request_refused s dt tag takeQuery _ hs _ (query_unknown h)
  · refine (query_answered hs h).trans (congrArg Host.Outcome.next ?_)
    rw [reported_same (s := (s.frameLost dt).unmark x) hx, pushReply_eq_replied _ _ _ rfl]
    rfl
  · refine (query_answered hs h).trans (congrArg Host.Outcome.next ?_)
    rw [reported_aborted (s := (s.frameLost dt).unmark (.showing i)) ha (by simp [State.unmark]), pushReply_eq_replied _ _ _ rfl]
    rfl

/-- Settles O58: the reports a subject at a time, the frames by `foldr_xorAll`, and the turns of the transmitter. -/
theorem transmitterSendsInOrder : Obligations.TransmitterSendsInOrder :=
  ⟨transmitter_takesTurns, trackReports_carryTheirFields, otherReports_carryTheirFields, deckReport_carriesItsFields,
    line_carriesTheFrame⟩

end Sys2Proof.Machine
end

section
/-! SUPPORT. What leaves the train records and the block flags as they stand (R46, R47): every operation but those of the Train
Register itself and the changes of mode. `TrainsStand s t` says it once; whatever follows an event (`Follows`) keeps it, and each
operation outside the end of an event has one lemma. -/

namespace Sys2Proof.Machine

/-- `t` has the train records and the block flags of `s`. -/
structure TrainsStand (s t : State) : Prop where
  trains : t.trains = s.trains
  flags : t.blockFlags = s.blockFlags

theorem TrainsStand.refl (s : State) : TrainsStand s s := ⟨rfl, rfl⟩

theorem TrainsStand.trans {s t u : State} (h : TrainsStand s t) (k : TrainsStand t u) : TrainsStand s u :=
  ⟨k.trains.trans h.trains, k.flags.trans h.flags⟩

theorem TrainsStand.ite {p : Prop} [Decidable p] {s t u : State} (ht : p → TrainsStand s t) (hu : ¬ p → TrainsStand s u) :
    TrainsStand s (if p then t else u) := by
  split
  · exact ht ‹_›
  · exact hu ‹_›

theorem TrainsStand.foldl {α : Type} (f : State → α → State) (h : ∀ s a, TrainsStand s (f s a)) (l : List α) (s : State) :
    TrainsStand s (l.foldl f s) := by
  induction l generalizing s with
  | nil => exact .refl s
  | cons a l ih => exact (h s a).trans (ih _)

theorem Follows.trainsStand {s t : State} (h : Follows s t) : TrainsStand s t := ⟨h.trains, h.blockFlags⟩

theorem TrainsStand.of_deckless {s t : State} (h : t.deckless = s.deckless) : TrainsStand s t :=
  ⟨(congrArg State.trains h :), (congrArg State.blockFlags h :)⟩

theorem TrainsStand.settle {s t : State} (h : TrainsStand s t) : TrainsStand s t.settle :=
  h.trans (settle_follows t).trainsStand

theorem mark_trainsStand (s : State) (x : Subject) : TrainsStand s (s.mark x) := ⟨rfl, rfl⟩

theorem settlePanel_trainsStand (s : State) : TrainsStand s s.settlePanel := ⟨rfl, rfl⟩

theorem advance_trainsStand (s : State) (dt : Nat) : TrainsStand s (s.advance dt) := ⟨rfl, rfl⟩

theorem updContact_trainsStand (s : State) (p : Fin 64) (f : Contact → Contact) : TrainsStand s (s.updContact p f) := ⟨rfl, rfl⟩

theorem updPoint_trainsStand (s : State) (p : Fin 64) (f : PointRec → PointRec) : TrainsStand s (s.updPoint p f) := ⟨rfl, rfl⟩

theorem updGroup_trainsStand (s : State) (g : Fin 8) (f : GroupRec → GroupRec) : TrainsStand s (s.updGroup g f) := ⟨rfl, rfl⟩

theorem updDeck_trainsStand (s : State) (f : Deck → Deck) : TrainsStand s (s.updDeck f) := ⟨rfl, rfl⟩

theorem updBus_trainsStand (s : State) (f : Bus → Bus) : TrainsStand s (s.updBus f) := ⟨rfl, rfl⟩

theorem updModule_trainsStand (s : State) (m : Fin 24) (f : ModuleRec → ModuleRec) : TrainsStand s (s.updModule m f) := ⟨rfl, rfl⟩

theorem updFeed_trainsStand (s : State) (b : Fin 48) (f : Feed → Feed) : TrainsStand s (s.updFeed b f) := ⟨rfl, rfl⟩

theorem updChannel_trainsStand (s : State) (b : Fin 48) (f : Channel → Channel) : TrainsStand s (s.updChannel b f) := ⟨rfl, rfl⟩

theorem updSignal_trainsStand (s : State) (g : Fin 32) (f : SignalRec → SignalRec) : TrainsStand s (s.updSignal g f) := ⟨rfl, rfl⟩

theorem updShow_trainsStand (s : State) (i : Fin 8) (f : ShowRec → ShowRec) : TrainsStand s (s.updShow i f) := ⟨rfl, rfl⟩

theorem updKey_trainsStand (s : State) (k : Fin 64) (f : KeyRec → KeyRec) : TrainsStand s (s.updKey k f) := ⟨rfl, rfl⟩

theorem updLink_trainsStand (s : State) (f : LinkPort → LinkPort) : TrainsStand s (s.updLink f) := ⟨rfl, rfl⟩

theorem updWork_trainsStand (s : State) (f : Work → Work) : TrainsStand s (s.updWork f) := ⟨rfl, rfl⟩

theorem showQueue_trainsStand (s : State) (l : List (Fin 8)) : TrainsStand s { s with showQueue := l } := ⟨rfl, rfl⟩

/-- A change that is marked and shown on the panel. -/
theorem TrainsStand.shown {s t : State} (h : TrainsStand s t) (x : Subject) : TrainsStand s (t.mark x).settlePanel :=
  (h.trans (mark_trainsStand t x)).trans (settlePanel_trainsStand _)

/-! ## Points -/

theorem watchProof_trainsStand (s : State) (p : Fin 64) (f : State → State) (h : TrainsStand s (f s)) :
    TrainsStand s (s.watchProof p f) :=
  .ite (fun _ => h) fun _ => (h.trans (mark_trainsStand _ _)).trans (routesTakeProof_follows _ _).trainsStand

theorem routesTakeFailed_trainsStand (s : State) (p : Fin 64) : TrainsStand s (s.routesTakeFailed p) :=
  .foldl _ (fun _ _ => by
    split
    · exact .ite (fun _ => (freeHolding_follows _ _ _).trainsStand) fun _ => .refl _
    · exact .refl _) _ s

theorem decideMove_trainsStand (s : State) (g : Fin 8) (o : MoveOutcome) : TrainsStand s (s.decideMove g o) := by
  unfold State.decideMove
  split
  · exact .refl s
  · extract_lets s1 s2
    have h1 : TrainsStand s s1 := watchProof_trainsStand s _ _ (by
      extract_lets u
      have hu : TrainsStand s u := updGroup_trainsStand s g _
      cases o with
      | isSet => exact (hu.trans ((updPoint_trainsStand u _ _).trans (updGroup_trainsStand _ _ _))).shown _
      | failed => exact (hu.trans (updPoint_trainsStand u _ _)).shown _)
    have h2 : TrainsStand s1 s2 := .ite (fun _ => routesTakeFailed_trainsStand _ _) fun _ => .refl _
    exact (h1.trans h2).trans (callExamine_follows _).trainsStand

theorem testRecovery_trainsStand (s : State) (g : Fin 8) : TrainsStand s (s.testRecovery g) :=
  .ite (fun _ => (updGroup_trainsStand s g _).trans (startMove_follows _ _).trainsStand) fun _ => .refl s

theorem enterRecovery_trainsStand (s : State) (g : Fin 8) (w : Timer) : TrainsStand s (s.enterRecovery g w) :=
  (updGroup_trainsStand s g _).trans (testRecovery_trainsStand _ g)

theorem endPulse_trainsStand (s : State) (g : Fin 8) (o : MoveOutcome) : TrainsStand s (s.endPulse g o) :=
  (decideMove_trainsStand s g o).trans (enterRecovery_trainsStand _ g _)

theorem pulseTimeOver_trainsStand (s : State) (g : Fin 8) : TrainsStand s (s.pulseTimeOver g) := by
  unfold State.pulseTimeOver
  split
  · exact .refl s
  · extract_lets u
    refine TrainsStand.trans (t := u) (updGroup_trainsStand s g _) ?_
    split
    · exact endPulse_trainsStand _ _ _
    · refine .ite (fun _ => endPulse_trainsStand _ _ _) fun _ => ?_
      split
      · exact endPulse_trainsStand _ _ _
      · exact .ite (fun _ => endPulse_trainsStand _ _ _) fun _ => .refl _
    · exact enterRecovery_trainsStand _ _ _

theorem windowOver_trainsStand (s : State) (g : Fin 8) : TrainsStand s (s.windowOver g) :=
  (updGroup_trainsStand s g _).trans (.ite (fun _ => endPulse_trainsStand _ _ _) fun _ => .refl _)

theorem confirmOver_trainsStand (s : State) (g : Fin 8) : TrainsStand s (s.confirmOver g) :=
  ((updGroup_trainsStand s g _).trans (decideMove_trainsStand _ _ _)).trans (testRecovery_trainsStand _ _)

theorem takeAsFound_trainsStand (s : State) (p : Fin 64) (g : Fin 8) (v : Reading) : TrainsStand s (s.takeAsFound p g v) := by
  unfold State.takeAsFound
  split
  · exact .refl s
  · exact watchProof_trainsStand s p _ (((updPoint_trainsStand s p _).trans (updGroup_trainsStand _ g _)).shown _)

theorem failAtRest_trainsStand (s : State) (p : Fin 64) : TrainsStand s (s.failAtRest p) :=
  (watchProof_trainsStand s p _ ((updPoint_trainsStand s p _).shown _)).trans (routesTakeFailed_trainsStand _ _)

theorem arrivalAtRest_trainsStand (s : State) (p : Fin 64) (g : Fin 8) (v : Reading) : TrainsStand s (s.arrivalAtRest p g v) := by
  have watched (l : Lie) : TrainsStand s (s.watchArrival p l v) :=
    .ite (fun _ => updPoint_trainsStand s p _) fun _ =>
      .ite (fun _ => updPoint_trainsStand s p _) fun _ => failAtRest_trainsStand s p
  unfold State.arrivalAtRest
  refine .ite (fun _ => takeAsFound_trainsStand s p g v) fun _ => ?_
  split
  · exact .ite (fun _ => .refl s) fun _ => watched _
  · exact .refl s

theorem arrivalMoving_trainsStand (s : State) (g : Fin 8) (f : Feedback) (l : Lie) (v : Reading) :
    TrainsStand s (s.arrivalMoving g f l v) := by
  unfold State.arrivalMoving
  refine .ite (fun _ => .refl s) fun _ => ?_
  split
  · exact .ite (fun _ => endPulse_trainsStand _ _ _) fun _ => .refl s
  · exact ((updGroup_trainsStand s g _).trans (decideMove_trainsStand _ _ _)).trans (testRecovery_trainsStand _ _)
  · exact .refl s

theorem takeReading_trainsStand (s : State) (p : Fin 64) (v : Reading) : TrainsStand s (s.takeReading p v) := by
  unfold State.takeReading
  extract_lets c
  refine watchProof_trainsStand s p _ ?_
  extract_lets s1 s2
  have h1 : TrainsStand s s1 := updContact_trainsStand s p _
  have h2 : TrainsStand s1 s2 := .ite (fun _ => updPoint_trainsStand s1 p _) fun _ => .refl s1
  exact .ite (fun _ => (h1.trans h2).trans (mark_trainsStand _ _)) fun _ => h1.trans h2

theorem contactArrives_trainsStand (s : State) (p : Fin 64) (d : PointDef) (v : Reading) :
    TrainsStand s (s.contactArrives p d v) := by
  unfold State.contactArrives
  extract_lets u
  refine TrainsStand.trans (t := u) (takeReading_trainsStand s p v) ?_
  split
  · exact .refl _
  · split
    · exact arrivalMoving_trainsStand _ _ _ _ _
    · exact arrivalAtRest_trainsStand _ _ _ _

theorem contactGoesStale_trainsStand (s : State) (p : Fin 64) : TrainsStand s (s.contactGoesStale p) := by
  unfold State.contactGoesStale
  extract_lets c
  refine watchProof_trainsStand s p _ ?_
  extract_lets s1
  have h1 : TrainsStand s s1 := updContact_trainsStand s p _
  exact .ite (fun _ => h1) fun _ => (h1.trans (updPoint_trainsStand _ p _)).trans (mark_trainsStand _ _)

theorem pointsHalt_trainsStand (s : State) : TrainsStand s s.pointsHalt :=
  .foldl _ (fun _ _ => updGroup_trainsStand _ _ _) _ s

theorem pointsResume_trainsStand (s : State) : TrainsStand s s.pointsResume :=
  .foldl _ (fun _ _ => (updGroup_trainsStand _ _ _).trans (startMove_follows _ _).trainsStand) _ s

theorem pointHome_trainsStand (s : State) (p : Fin 64) : TrainsStand s (s.pointHome p) := by
  unfold State.pointHome
  split
  · exact .refl s
  · refine .trans ?_ (mark_trainsStand _ _)
    split
    · exact (moveRequest_follows _ _ _).trainsStand
    · exact (moveRequest_follows _ _ _).trainsStand
    · exact updPoint_trainsStand s p _

theorem pointsRun_trainsStand (s : State) : TrainsStand s s.pointsRun := .foldl _ pointHome_trainsStand _ s

theorem throwPoint_trainsStand (s : State) (d : ThrowReq) : TrainsStand s (s.throwPoint d).1 := by
  unfold State.throwPoint
  split
  · exact .refl s
  · split
    · split
      · exact .refl s
      · split
        · exact .refl s
        · split
          · exact (mark_trainsStand s _).trans (moveRequest_follows _ _ _).trainsStand
          · exact .refl s
    · exact .refl s

/-! ## The deck -/

theorem handOutcome_trainsStand (s : State) (m : MoveRec) (o : TurnOutcome) : TrainsStand s (s.handOutcome m o) :=
  .of_deckless (handOutcome_deckless s m o)

theorem kill_trainsStand (s : State) : TrainsStand s s.kill := .of_deckless (kill_deckless s)

theorem lockDone_trainsStand (s : State) (m : MoveRec) : TrainsStand s (s.lockDone m) :=
  (((updDeck_trainsStand s _).trans (handOutcome_trainsStand _ _ _)).trans (deckChanged_follows _).trainsStand).trans
    (callExamine_follows _).trainsStand

theorem enterLocking_trainsStand (s : State) (t : TurntableDef) (m : MoveRec) : TrainsStand s (s.enterLocking t m) := by
  unfold State.enterLocking
  extract_lets s1 s2
  have h2 : TrainsStand s s2 := (updDeck_trainsStand s _).trans (deckChanged_follows _).trainsStand
  exact .ite (fun _ => h2.trans (lockDone_trainsStand _ _)) fun _ => h2

theorem rampStep_trainsStand (s : State) (t : TurntableDef) (m : MoveRec) (x : Nat) : TrainsStand s (s.rampStep t m x) :=
  ((updDeck_trainsStand s _).trans (mark_trainsStand _ _)).trans
    (.ite (fun _ => (enterSettling_follows _ _ _).trainsStand) fun _ => (issueStep_follows _ _ _ _).trainsStand)

theorem creepStep_trainsStand (s : State) (t : TurntableDef) (m : MoveRec) (n x : Nat) : TrainsStand s (s.creepStep t m n x) :=
  ((updDeck_trainsStand s _).trans (mark_trainsStand _ _)).trans
    (.ite (fun _ => (enterSettling_follows _ _ _).trainsStand) fun _ =>
      (updDeck_trainsStand _ _).trans (mark_trainsStand _ _))

theorem enterFault_trainsStand (s : State) (c : FaultCause) : TrainsStand s (s.enterFault c) := by
  unfold State.enterFault
  extract_lets m s1 s2
  have h1 : TrainsStand s s1 := updDeck_trainsStand s _
  have h2 : TrainsStand s1 s2 := by
    simp only [s2]
    cases m with
    | some m => exact handOutcome_trainsStand _ _ _
    | none => exact .refl _
  exact (h1.trans h2).trans (deckChanged_follows _).trainsStand

theorem homingBoltOut_trainsStand (s : State) (t : TurntableDef) (known : Bool) (n : Nat) :
    TrainsStand s (s.homingBoltOut t known n) :=
  (updDeck_trainsStand s _).trans (.ite (fun _ => updDeck_trainsStand _ _) fun _ => updDeck_trainsStand _ _)

theorem startHoming_trainsStand (s : State) (t : TurntableDef) : TrainsStand s (s.startHoming t) := by
  unfold State.startHoming
  extract_lets known s1 s2
  have h2 : TrainsStand s s2 := (updDeck_trainsStand s _).trans (deckChanged_follows _).trainsStand
  exact .ite (fun _ => h2.trans (homingBoltOut_trainsStand _ _ _ _)) fun _ => h2

theorem homingStep_trainsStand (s : State) (t : TurntableDef) (known : Bool) (n : Nat) : TrainsStand s (s.homingStep t known n) :=
  ((updDeck_trainsStand s _).trans (mark_trainsStand _ _)).trans
    (.ite (fun _ => enterFault_trainsStand _ _) fun _ => updDeck_trainsStand _ _)

theorem homingDone_trainsStand (s : State) : TrainsStand s s.homingDone :=
  ((updDeck_trainsStand s _).trans (deckChanged_follows _).trainsStand).trans (callExamine_follows _).trainsStand

theorem indexCapture_trainsStand (s : State) (t : TurntableDef) (m : MoveRec) (p : MovePhase) (x : Nat) :
    TrainsStand s (s.indexCapture t m p x) :=
  .ite (fun _ => enterFault_trainsStand s _) fun _ =>
    ((updDeck_trainsStand s _).trans (mark_trainsStand _ _)).trans
      (.ite (fun _ => (enterSettling_follows _ _ _).trainsStand) fun _ =>
        .ite (fun _ => updDeck_trainsStand _ _) fun _ => (updDeck_trainsStand _ _).trans (mark_trainsStand _ _))

theorem boltOutLevel_trainsStand (s : State) (t : TurntableDef) (closed : Bool) : TrainsStand s (s.boltOutLevel t closed) := by
  unfold State.boltOutLevel
  extract_lets u
  refine TrainsStand.trans (t := u) (updDeck_trainsStand s _) (.ite (fun _ => ?_) fun _ => .refl u)
  split
  · exact (unlockDone_follows _ _ _).trainsStand
  · exact homingBoltOut_trainsStand _ _ _ _
  · exact .refl _

theorem boltInLevel_trainsStand (s : State) (closed : Bool) : TrainsStand s (s.boltInLevel closed) := by
  unfold State.boltInLevel
  extract_lets u
  refine TrainsStand.trans (t := u) (updDeck_trainsStand s _) ?_
  split
  · exact .ite (fun _ => lockDone_trainsStand _ _) fun _ => .refl _
  · exact .ite (fun _ => (updDeck_trainsStand _ _).trans (deckChanged_follows _).trainsStand) fun _ => .refl _
  · exact .refl _

theorem deckRun_trainsStand (s : State) : TrainsStand s s.deckRun := by
  unfold State.deckRun
  split
  · exact .ite (fun _ => startHoming_trainsStand _ _) fun _ => .refl s
  · exact .refl s

theorem turnRequest_trainsStand (s : State) (d : TurnReq) : TrainsStand s (s.turnRequest d).1 := by
  unfold State.turnRequest
  split
  · exact .refl s
  · split
    · exact (turnTo_follows _ _ _ _).trainsStand
    · exact .refl s

theorem homeRequest_trainsStand (s : State) : TrainsStand s s.homeRequest.1 := by
  unfold State.homeRequest
  split
  · exact .refl s
  · split
    · exact .refl s
    · split
      · exact .refl s
      · split
        · exact .refl s
        · split
          · exact .refl s
          · dsimp only
            exact startHoming_trainsStand _ _

/-! ## The panel -/

theorem markPart_trainsStand (s : State) (m : Fin 24) (k : Nat) (v : Bool) : TrainsStand s (s.markPart m k v) := ⟨rfl, rfl⟩

theorem countFailure_trainsStand (s : State) (m : Fin 24) (c : FailCause) : TrainsStand s (s.countFailure m c) := by
  unfold State.countFailure
  extract_lets s1 r
  have h1 : TrainsStand s s1 := (updModule_trainsStand s m _).trans (mark_trainsStand _ _)
  exact .ite (fun _ => h1.trans ((updModule_trainsStand _ m _).trans (mark_trainsStand _ _))) fun _ => h1

theorem workFailed_trainsStand (s : State) (t : Transaction) (c : BusCause) : TrainsStand s (s.workFailed t c) := by
  cases t with
  | call _ => exact updBus_trainsStand s _
  | write m k _ =>
    exact (TrainsStand.ite (fun _ => markPart_trainsStand s m k true) fun _ => .refl s).trans (countFailure_trainsStand _ _ _)
  | probe m _ => exact (updModule_trainsStand s m _).trans (countFailure_trainsStand _ _ _)
  | readBack m => exact countFailure_trainsStand _ _ _
  | poll m => exact countFailure_trainsStand _ _ _

theorem transactionFails_trainsStand (s : State) (t : Transaction) (c : BusCause) :
    TrainsStand s (s.transactionFails t c) :=
  (updBus_trainsStand s _).trans (workFailed_trainsStand _ _ _)

theorem callEnds_trainsStand (s : State) (c : GeneralCall) (o : WriteOutcome) : TrainsStand s (s.callEnds c o) := by
  unfold State.callEnds
  split
  · exact transactionFails_trainsStand _ _ _
  · exact transactionFails_trainsStand _ _ _
  · exact ⟨rfl, rfl⟩

theorem writeDone_trainsStand (s : State) (m : Fin 24) (l : List Byte) : TrainsStand s (s.writeDone m l) :=
  (updModule_trainsStand s m _).trans (.ite (fun _ => updModule_trainsStand _ m _) fun _ => .refl _)

theorem readBackDone_trainsStand (s : State) (m : Fin 24) (bytes : BitVec 16) : TrainsStand s (s.readBackDone m bytes) :=
  (updModule_trainsStand s m _).trans (.ite (fun _ => updModule_trainsStand _ m _) fun _ =>
    (markPart_trainsStand _ m 0 true).trans (countFailure_trainsStand _ _ _))

theorem probeDone_trainsStand (s : State) (m : Fin 24) : TrainsStand s (s.probeDone m) :=
  (updModule_trainsStand s m _).trans (.ite (fun _ => .refl _) fun _ =>
    ((updModule_trainsStand _ m _).trans (mark_trainsStand _ _)).trans (syncLists_follows _).trainsStand)

theorem startNext_trainsStand (s : State) (high : Bool) : TrainsStand s (s.startNext high) := by
  have begins (t : Transaction) : TrainsStand s (s.begin t) := by
    unfold State.begin
    extract_lets u
    refine TrainsStand.trans (t := u) (updBus_trainsStand s _) ?_
    split
    · exact markPart_trainsStand _ _ _ _
    · exact .refl u
  unfold State.startNext
  refine .ite (fun _ => .refl s) fun _ => ?_
  split
  · exact .ite (fun _ => begins _) fun _ => .ite
      (fun _ => (updBus_trainsStand s _).trans (workFailed_trainsStand _ _ _)) fun _ => updBus_trainsStand s _
  · exact .refl s

/-! ## Feeds -/

theorem setFeedState_trainsStand (s : State) (b : Fin 48) (x : FeedState) : TrainsStand s (s.setFeedState b x) :=
  .ite (fun _ => .refl s) fun _ => (((updFeed_trainsStand s b _).trans (mark_trainsStand _ _)).trans
    (updChannel_trainsStand _ b _)).trans (settlePanel_trainsStand _)

theorem takeOverload_trainsStand (s : State) (b : Fin 48) (k : KillMode) : TrainsStand s (s.takeOverload b k) := by
  have latch (u : State) : TrainsStand u (u.latchDecision b k) :=
    .ite (fun _ => setFeedState_trainsStand _ _ _) fun _ => (setFeedState_trainsStand _ _ _).trans (updFeed_trainsStand _ _ _)
  exact .ite (fun _ => ((setFeedState_trainsStand s b _).trans (updFeed_trainsStand _ b _)).trans (latch _)) fun _ => .refl s

theorem isolate_trainsStand (s : State) (b : Fin 48) (on : Bool) : TrainsStand s (s.isolate b on) :=
  .ite (fun _ => .refl s) fun _ =>
    ((updFeed_trainsStand s b _).trans (mark_trainsStand _ _)).trans (feedFollow_follows _ _).trainsStand

theorem restore_trainsStand (s : State) (b : Fin 48) : TrainsStand s (s.restore b) :=
  .ite (fun _ => .ite
    (fun _ => ((updFeed_trainsStand s b _).trans (setFeedState_trainsStand _ b _)).trans (settlePanel_trainsStand _))
    fun _ => updFeed_trainsStand s b _) fun _ => .refl s

theorem deferredRestore_trainsStand (s : State) (b : Fin 48) : TrainsStand s (s.deferredRestore b) :=
  .ite (fun _ => (updFeed_trainsStand s b _).trans (setFeedState_trainsStand _ b _)) fun _ => .refl s

theorem giveRestart_trainsStand (s : State) (b : Fin 48) : TrainsStand s (s.giveRestart b) := by
  unfold State.giveRestart
  split
  · exact .refl s
  · exact .ite (fun _ => .ite (fun _ => setFeedState_trainsStand _ _ _) fun _ => updFeed_trainsStand s b _) fun _ => .refl s

theorem feedsHalt_trainsStand (s : State) : TrainsStand s s.feedsHalt :=
  .foldl _ (fun _ _ => (updFeed_trainsStand _ _ _).trans (feedFollow_follows _ _).trainsStand) _ s

/-! ## Routes and signals -/

theorem forceRelease_trainsStand (s : State) (n : Nat) : TrainsStand s (s.forceRelease n).1 := by
  unfold State.forceRelease
  split
  · exact .refl s
  · split
    · exact .refl s
    · split
      · exact .refl s
      · split
        · exact .refl s
        · split
          · exact .refl s
          · exact (freeHolding_follows _ _ _).trainsStand
        · exact .refl s

theorem expireStack_trainsStand (s : State) : TrainsStand s s.expireStack :=
  .foldl _ (fun _ _ => (dropQueued_follows _ _ _).trainsStand) _ s

theorem routesHalt_trainsStand (s : State) : TrainsStand s s.routesHalt :=
  .foldl _ (fun _ _ => (dropQueued_follows _ _ _).trainsStand) _ s

theorem overlapExpires_trainsStand (s : State) (r : Fin 64) (d : RouteDef) : TrainsStand s (s.overlapExpires r d) := by
  unfold State.overlapExpires
  split
  · exact (((touchRoute_follows s r _).trans (Follows.foldl _ (fun t b => unreserve_follows t r b) _ _)).trans
      (testReleased_follows _ _)).trainsStand
  · exact .refl s

theorem aspectTakesResult_trainsStand (s : State) (t : Fin 4) (b : Fin 48) (e : Side) (v : Nat) :
    TrainsStand s (s.aspectTakesResult t b e v) :=
  .foldl _ (fun u g => by
    unfold State.offerResult
    split
    · exact .ite (fun _ => .ite (fun _ => (putSignal_follows u g _ rfl rfl).trainsStand) fun _ =>
        (updSignal_trainsStand u g _).trans (mark_trainsStand _ _)) fun _ => .refl u
    · exact .refl u) _ s

/-! ## Shows and keys -/

theorem startShow_trainsStand (s : State) (o : ShowOrigin) (n : Nat) : TrainsStand s (s.startShow o n).1 := by
  unfold State.startShow
  split
  · exact .refl s
  · split
    · exact .refl s
    · split
      · exact .refl s
      · split
        · exact .refl s
        · exact .refl s
        · split
          · exact ((beginRun_follows _ _ _).trans (runShows_follows _)).trainsStand
          · split
            · exact .refl s
            · exact ((updShow_trainsStand s _ _).shown _).trans (showQueue_trainsStand _ _)

theorem stopShow_trainsStand (s : State) (n : Nat) : TrainsStand s (s.stopShow n).1 := by
  have stops (i : Fin 8) : TrainsStand s (s.stopNow i) := by
    unfold State.stopNow
    split
    · exact ((abortShow_follows _ _ _).trans (runShows_follows _)).trainsStand
    · exact (showQueue_trainsStand s _).trans ((updShow_trainsStand _ i _).shown _)
    · exact .refl s
  unfold State.stopShow
  split
  · exact .refl s
  · split
    · exact .refl s
    · split
      · exact stops _
      · exact .refl s

theorem showsHalt_trainsStand (s : State) : TrainsStand s s.showsHalt := by
  have stops (u : State) (l : List (Fin 8)) : TrainsStand u
      (l.foldl (fun s i => ((s.updShow i fun x => { x with state := .idle }).mark (.showing i)).settlePanel)
        { u with showQueue := [] }) :=
    (showQueue_trainsStand u []).trans (.foldl _ (fun _ _ => (updShow_trainsStand _ _ _).shown _) l _)
  unfold State.showsHalt
  split
  · exact (abortShow_follows s _ _).trainsStand.trans (stops _ _)
  · exact stops s _

theorem reported_trainsStand (s : State) (x : Subject) : TrainsStand s (s.reported x) := by
  unfold State.reported
  split
  · exact .ite (fun _ => (updShow_trainsStand s _ _).trans (mark_trainsStand _ _)) fun _ => .refl s
  · exact .refl s

/-! ## Changes of mode in service -/

theorem putMode_trainsStand (s : State) (m : Mode) : TrainsStand s (s.putMode m) :=
  ⟨rfl, rfl⟩

theorem endEntry_trainsStand (s : State) : TrainsStand s s.endEntry :=
  (((callExamine_follows s).trainsStand.settle).trans (updWork_trainsStand _ _)).trans (.foldl _ giveRestart_trainsStand _ _)

theorem enterHalt_trainsStand (s : State) (c : HaltCause) : TrainsStand s (s.enterHalt c) := by
  have blocks (u : State) : TrainsStand u u.showsHalt.pointsHalt.kill.routesHalt.feedsHalt :=
    ((((showsHalt_trainsStand u).trans (pointsHalt_trainsStand _)).trans (kill_trainsStand _)).trans (routesHalt_trainsStand _)).trans
      (feedsHalt_trainsStand _)
  exact (((putMode_trainsStand s _).trans (blocks _)).trans (updBus_trainsStand _ _)).settle

theorem resumeRun_trainsStand (s : State) : TrainsStand s s.resumeRun :=
  ((((putMode_trainsStand s _).trans (updWork_trainsStand _ _)).trans (.foldl _ deferredRestore_trainsStand _ _)).trans
    (pointsResume_trainsStand _)).trans (endEntry_trainsStand _)

theorem pressAction_trainsStand (s : State) (b : Fin 64) (a : KeyAction) : TrainsStand s (s.pressAction b a).1 := by
  cases a with
  | startShow i =>
    unfold State.pressAction
    dsimp only
    split
    · exact .refl s
    · split
      · exact .refl s
      · exact startShow_trainsStand s _ _
  | visitorRoute r => exact (requestRoute_follows s _ _).trainsStand
  | emergency =>
    unfold State.pressAction
    dsimp only
    split
    · exact enterHalt_trainsStand s _
    · exact .refl s
  | none => exact .refl s

theorem keyEvent_trainsStand (s : State) (m : Fin 24) (k : Fin 16) (down : Bool) : TrainsStand s (s.keyEvent m k down) := by
  have press (u : State) (b : Fin 64) (f : KeyRec → KeyRec) : TrainsStand u ((u.updKey b f).mark (.key b)) :=
    (updKey_trainsStand u b f).trans (mark_trainsStand _ _)
  unfold State.keyEvent
  split
  · exact .refl s
  · split
    · exact ((((press s _ _).trans (setCuesFor_follows _ _).trainsStand).settle.trans (pressAction_trainsStand _ _ _)).trans
        (press _ _ _)).settle
    · exact press s _ _

theorem pollDone_trainsStand (s : State) (m : Fin 24) (bytes : BitVec 16) : TrainsStand s (s.pollDone m bytes) :=
  ((updModule_trainsStand s m _).trans (updModule_trainsStand _ m _)).trans
    (.foldl _ (fun _ _ => .ite (fun _ => (updModule_trainsStand _ m _).trans (keyEvent_trainsStand _ _ _ _)) fun _ =>
      updModule_trainsStand _ m _) _ _)

end Sys2Proof.Machine
end

section
/-! SUPPORT. The agreement of the train records with one another and with the block flags (R46, R47): what a change of one
record keeps of it (`TrainsAgree.putTrain`), what a change of the flags keeps of it (`TrainsAgree.putFlags`), and from these what
the Train Register's own operations keep. -/

namespace Sys2Proof.Machine

/-! ## The agreement, part by part -/

/-- A block list as an ACTIVE record has it: 1 to 8 entries, no block twice, and neither head nor tail bridged (R46, R47). -/
def State.listFits (s : State) (l : List TrainBlock) : Prop :=
  l ≠ [] ∧ l.length ≤ 8 ∧ (l.map (·.block)).Nodup ∧
    (∀ x, l.head? = some x → s.bridged x.block = false) ∧ ∀ x, l.getLast? = some x → s.bridged x.block = false

/-- `State.trainsSound` with its parts named. -/
structure TrainsAgree (s : State) : Prop where
  fits : ∀ t n l speed o, tget s.trains t = .active n l speed o → s.listFits l
  inRange : ∀ t n, Train.number (tget s.trains t) = some n → 1 ≤ n ∧ n ≤ 9999
  apart : ∀ t u, t ≠ u → ∀ b, b ∈ s.listOf t → b ∉ s.listOf u
  numbers : ∀ t u n, Train.number (tget s.trains t) = some n → Train.number (tget s.trains u) = some n → t = u
  stray : ∀ b, (tget s.blockFlags b).stray.isSome = true → ∀ t, b ∉ s.listOf t
  held : ∀ b, s.bridged b = true → ∃ t, b ∈ s.listOf t

/-- A slot is found for a block where a list names it. -/
theorem holder_isSome {s : State} {b : Fin 48} : (s.holder b).isSome = true ↔ ∃ t, b ∈ s.listOf t := by
  rw [Option.isSome_iff_ne_none, ne_eq, holder_eq_none]
  push Not
  rfl

theorem trainsSound_iff {s : State} : s.trainsSound ↔ TrainsAgree s :=
  ⟨fun ⟨h1, h2, h3, h4, h5, h6⟩ =>
    ⟨h1, h2, h3, h4, fun b hb => holder_eq_none.1 (h5 b hb), fun b hb => holder_isSome.1 (h6 b hb)⟩,
    fun h => ⟨h.fits, h.inRange, h.apart, h.numbers, fun b hb => holder_eq_none.2 (h.stray b hb),
      fun b hb => holder_isSome.2 (h.held b hb)⟩⟩

/-- The agreement is read from the records and the flags alone. -/
theorem TrainsStand.agree {s t : State} (k : TrainsStand s t) (h : TrainsAgree s) : TrainsAgree t := by
  have hl : t.listOf = s.listOf := listOf_congr k.trains
  have hb : t.bridged = s.bridged := funext fun b => by simp only [State.bridged, k.flags]
  have hf : t.listFits = s.listFits := funext fun l => by simp only [State.listFits, hb]
  exact ⟨by rw [k.trains, hf]; exact h.fits, by rw [k.trains]; exact h.inRange, by rw [hl]; exact h.apart,
    by rw [k.trains]; exact h.numbers, by rw [k.flags, hl]; exact h.stray, by rw [hb, hl]; exact h.held⟩

theorem TrainsAgree.mark {s : State} (h : TrainsAgree s) (x : Subject) : TrainsAgree (s.mark x) :=
  (mark_trainsStand s x).agree h

theorem TrainsAgree.settlePanel {s : State} (h : TrainsAgree s) : TrainsAgree s.settlePanel :=
  (settlePanel_trainsStand s).agree h

/-- The slot found for a block holds it. -/
theorem mem_listOf_of_holder {s : State} {b : Fin 48} {t : Fin 24} (h : s.holder b = some t) : b ∈ s.listOf t := by
  have := List.find?_some h
  simpa [State.listOf] using this

/-- At most one list holds a block. -/
theorem TrainsAgree.eq_of_mem {s : State} (h : TrainsAgree s) {t u : Fin 24} {b : Fin 48} (ht : b ∈ s.listOf t)
    (hu : b ∈ s.listOf u) : u = t :=
  Classical.byContradiction fun hne => h.apart u t hne b hu ht

/-- Where the records agree, the slot whose list holds a block is the one found for it. -/
theorem TrainsAgree.holder_eq_some {s : State} (h : TrainsAgree s) {b : Fin 48} {t : Fin 24} :
    s.holder b = some t ↔ b ∈ s.listOf t := by
  refine ⟨mem_listOf_of_holder, fun hb => ?_⟩
  obtain ⟨u, hu⟩ := Option.isSome_iff_exists.1 (holder_isSome.2 ⟨t, hb⟩)
  rw [hu, h.eq_of_mem hb (mem_listOf_of_holder hu)]

theorem listOf_active {s : State} {t : Fin 24} {n : Nat} {l : List TrainBlock} {speed : Option Nat} {o : Bool}
    (h : tget s.trains t = .active n l speed o) : s.listOf t = l.map (·.block) := by
  rw [State.listOf, h]
  rfl

theorem listOf_putTrain (s : State) (t q : Fin 24) (x : Train) :
    (s.putTrain t x).listOf q = if t = q then (Train.blocks x).map (·.block) else s.listOf q := by
  simp only [State.listOf, State.putTrain_trains, tget_tset]
  split <;> rfl

/-! ## A change of one record -/

/-- One record is replaced: its number stays or is a fresh one, its list fits, a block that joins it stands in no list and is not
stray, and a block that leaves it is not bridged. -/
theorem TrainsAgree.putTrain {s : State} (h : TrainsAgree s) (t : Fin 24) (x : Train)
    (number : ∀ n, Train.number x = some n → Train.number (tget s.trains t) = some n ∨
      (1 ≤ n ∧ n ≤ 9999 ∧ ∀ q, Train.number (tget s.trains q) ≠ some n))
    (fits : ∀ n l speed o, x = .active n l speed o → s.listFits l)
    (joins : ∀ b ∈ (Train.blocks x).map (·.block), b ∈ s.listOf t ∨
      (∀ q, b ∉ s.listOf q) ∧ (tget s.blockFlags b).stray = none)
    (leaves : ∀ b ∈ s.listOf t, b ∉ (Train.blocks x).map (·.block) → s.bridged b = false) :
    TrainsAgree (s.putTrain t x) where
  fits q n l speed o hq := by
    rw [State.putTrain_trains, tget_tset] at hq
    split at hq
    · exact fits n l speed o hq
    · exact h.fits q n l speed o hq
  inRange q n hq := by
    rw [State.putTrain_trains, tget_tset] at hq
    split at hq
    · rcases number n hq with ho | ⟨h1, h2, -⟩
      · exact h.inRange t n ho
      · exact ⟨h1, h2⟩
    · exact h.inRange q n hq
  apart q u hqu b hb := by
    rw [listOf_putTrain] at hb ⊢
    split at hb
    · subst q
      rw [if_neg hqu]
      rcases joins b hb with ho | ⟨hn, -⟩
      · exact h.apart t u hqu b ho
      · exact hn u
    · rename_i hq
      split
      · subst u
        intro hx
        rcases joins b hx with ho | ⟨hn, -⟩
        · exact h.apart q t (Ne.symm hq) b hb ho
        · exact hn q hb
      · exact h.apart q u hqu b hb
  numbers q u n hq hu := by
    rw [State.putTrain_trains, tget_tset] at hq hu
    split at hq <;> split at hu
    · exact ‹t = q›.symm.trans ‹_›
    · rcases number n hq with ho | ⟨-, -, hn⟩
      · exact ‹t = q›.symm.trans (h.numbers t u n ho hu)
      · exact absurd hu (hn u)
    · rcases number n hu with ho | ⟨-, -, hn⟩
      · exact (h.numbers q t n hq ho).trans ‹_›
      · exact absurd hq (hn q)
    · exact h.numbers q u n hq hu
  stray b hb q := by
    rw [State.putTrain_blockFlags] at hb
    rw [listOf_putTrain]
    split
    · intro hx
      rcases joins b hx with ho | ⟨-, hs⟩
      · exact h.stray b hb t ho
      · rw [hs] at hb
        cases hb
    · exact h.stray b hb q
  held b hb := by
    obtain ⟨q, hq⟩ := h.held b hb
    by_cases hx : b ∈ (Train.blocks x).map (·.block)
    · exact ⟨t, by rw [listOf_putTrain, if_pos rfl]; exact hx⟩
    · refine ⟨q, ?_⟩
      rw [listOf_putTrain, if_neg]
      · exact hq
      · rintro rfl
        have : s.bridged b = false := leaves b hq hx
        rw [State.bridged, State.putTrain_blockFlags] at hb
        rw [State.bridged, hb] at this
        cases this

/-! ## A change of the flags -/

/-- Block `b` stands inside a list: some list holds it, and it is neither head nor tail of one. -/
def State.inside (s : State) (b : Fin 48) : Prop :=
  (∃ t, b ∈ s.listOf t) ∧ ∀ t n l speed o, tget s.trains t = .active n l speed o →
    (∀ x, l.head? = some x → x.block ≠ b) ∧ ∀ x, l.getLast? = some x → x.block ≠ b

/-- The flags change, with a block stray only where no list holds it, and bridged only where it was or stands inside a list. -/
theorem TrainsAgree.putFlags {s u : State} (h : TrainsAgree s) (ht : u.trains = s.trains)
    (stray : ∀ b, (tget u.blockFlags b).stray.isSome = true → ∀ t, b ∉ s.listOf t)
    (bridged : ∀ b, u.bridged b = true → s.bridged b = true ∨ s.inside b) : TrainsAgree u where
  fits t n l speed o hl := by
    rw [ht] at hl
    obtain ⟨hne, hlen, hnd, hhead, hlast⟩ := h.fits t n l speed o hl
    refine ⟨hne, hlen, hnd, fun x hx => ?_, fun x hx => ?_⟩
    · by_contra hb
      rcases bridged _ (by simpa using hb) with hs | ⟨-, hi⟩
      · rw [hhead x hx] at hs
        cases hs
      · exact (hi t n l speed o hl).1 x hx rfl
    · by_contra hb
      rcases bridged _ (by simpa using hb) with hs | ⟨-, hi⟩
      · rw [hlast x hx] at hs
        cases hs
      · exact (hi t n l speed o hl).2 x hx rfl
  inRange := by rw [ht]; exact h.inRange
  apart := by rw [listOf_congr ht]; exact h.apart
  numbers := by rw [ht]; exact h.numbers
  stray := by rw [listOf_congr ht]; exact stray
  held b hb := by
    rw [listOf_congr ht]
    rcases bridged b hb with hs | ⟨hi, -⟩
    · exact h.held b hs
    · exact hi

/-- One block's flags change. -/
theorem TrainsAgree.updFlags {s : State} (h : TrainsAgree s) (b : Fin 48) (f : BlockFlags → BlockFlags)
    (stray : (f (tget s.blockFlags b)).stray.isSome = true → ∀ t, b ∉ s.listOf t)
    (bridged : (f (tget s.blockFlags b)).bridged = true → s.bridged b = true ∨ s.inside b) : TrainsAgree (s.updFlags b f) := by
  refine h.putFlags rfl (fun c hc => ?_) fun c hc => ?_
  · rw [State.updFlags_blockFlags, tget_tupd] at hc
    split at hc
    · subst c
      exact stray hc
    · exact h.stray c hc
  · rw [State.bridged, State.updFlags_blockFlags, tget_tupd] at hc
    split at hc
    · subst c
      exact bridged hc
    · exact .inl hc

/-! ## What the operations leave of records and flags -/

/-- Entries that leave a list are bridged no more (R57). -/
theorem leaveLists_flags (l : List (Fin 48)) (s : State) : (l.foldl State.leaveList s).trains = s.trains ∧
    ∀ a, tget (l.foldl State.leaveList s).blockFlags a =
      if a ∈ l then { tget s.blockFlags a with bridged := false } else tget s.blockFlags a := by
  induction l generalizing s with
  | nil => exact ⟨rfl, fun a => by simp⟩
  | cons b l ih =>
    obtain ⟨ht, hf⟩ := ih (s.leaveList b)
    refine ⟨ht, fun a => ?_⟩
    rw [List.foldl_cons, hf, State.leaveList, State.mark_blockFlags, State.updFlags_blockFlags, tget_tupd]
    by_cases hab : b = a <;> by_cases hal : a ∈ l <;> simp [hab, hal, eq_comm]

/-- Each entry of a removed train is dealt with by its block's channel (R62). -/
theorem dropEntries_flags (l : List (Fin 48)) (s : State) : (l.foldl State.dropEntry s).trains = s.trains ∧
    (l.foldl State.dropEntry s).channels = s.channels ∧
    ∀ a, tget (l.foldl State.dropEntry s).blockFlags a =
      if a ∈ l then ⟨if s.occupied a then some .removed else (tget s.blockFlags a).stray, false⟩ else tget s.blockFlags a := by
  induction l generalizing s with
  | nil => exact ⟨rfl, rfl, fun a => by simp⟩
  | cons b l ih =>
    obtain ⟨ht, hc, hf⟩ := ih (s.dropEntry b)
    have ho (a : Fin 48) : (s.dropEntry b).occupied a = s.occupied a := rfl
    refine ⟨ht, hc, fun a => ?_⟩
    rw [List.foldl_cons, hf, ho, State.dropEntry, State.settlePanel_blockFlags, State.mark_blockFlags,
      State.updFlags_blockFlags, tget_tupd]
    by_cases hab : b = a
    · subst b
      cases s.occupied a <;> by_cases hal : a ∈ l <;> simp [hal]
    · by_cases hal : a ∈ l <;> simp [hab, hal, Ne.symm hab]

/-- The bridged entries exposed at the front of a list are those up to its first unbridged one (R57). -/
theorem exposed_eq (s : State) (l : List TrainBlock) : s.exposed l =
    ((l.takeWhile fun x => s.bridged x.block).map (·.block), l.dropWhile fun x => s.bridged x.block) := by
  induction l with
  | nil => rfl
  | cons x l ih =>
    unfold State.exposed
    rw [ih]
    cases hb : s.bridged x.block
    · have : (tget s.blockFlags x.block).bridged = false := hb
      simp [this, hb]
    · have : (tget s.blockFlags x.block).bridged = true := hb
      simp [this, hb]

/-! ## A block becomes occupied (R50 to R56) -/

theorem becomeStray_agree {s : State} (h : TrainsAgree s) {b : Fin 48} (r : StrayReason) (hb : ∀ t, b ∉ s.listOf t) :
    TrainsAgree (s.becomeStray b r) :=
  ((h.updFlags b (fun f => { f with stray := some r }) (fun _ => hb) .inl).mark _).settlePanel

/-- A list that fits still fits when it is turned round (R53). -/
theorem listFits_reversed {s : State} {l : List TrainBlock} (h : s.listFits l) : s.listFits (reversed l) := by
  obtain ⟨hne, hlen, hnd, hhead, hlast⟩ := h
  refine ⟨by simpa [reversed] using hne, by simpa [reversed] using hlen, ?_, fun x hx => ?_, fun x hx => ?_⟩
  · simpa [reversed, Function.comp_def] using List.nodup_reverse.2 hnd
  · simp only [reversed, List.head?_map, List.head?_reverse, Option.map_eq_some_iff] at hx
    obtain ⟨y, hy, rfl⟩ := hx
    exact hlast y hy
  · simp only [reversed, List.getLast?_map, List.getLast?_reverse, Option.map_eq_some_iff] at hx
    obtain ⟨y, hy, rfl⟩ := hx
    exact hhead y hy

/-- A list that fits takes a new head, where it has room and the block is neither in it nor bridged (R52). -/
theorem listFits_cons {s : State} {l : List TrainBlock} (h : s.listFits l) (x : TrainBlock) (hroom : l.length < 8)
    (hx : x.block ∉ l.map (·.block)) (hb : s.bridged x.block = false) : s.listFits (x :: l) := by
  obtain ⟨hne, -, hnd, -, hlast⟩ := h
  refine ⟨List.cons_ne_nil _ _, by simp only [List.length_cons]; omega, ?_, fun y hy => ?_, fun y hy => ?_⟩
  · rw [List.map_cons, List.nodup_cons]
    exact ⟨hx, hnd⟩
  · cases hy
    exact hb
  · obtain ⟨z, k, rfl⟩ := List.exists_cons_of_ne_nil hne
    exact hlast y (by simpa using hy)

theorem growTrain_agree {s : State} (h : TrainsAgree s) {b : Fin 48} (c : Candidacy) (hb : ∀ t, b ∉ s.listOf t)
    (hs : (tget s.blockFlags b).stray = none) (hbr : s.bridged b = false) : TrainsAgree (s.growTrain b c) := by
  unfold State.growTrain
  split
  · rename_i n l speed o ht
    have hfits := h.fits _ _ _ _ _ ht
    have hlist := listOf_active ht
    split
    · refine ((becomeStray_agree h .overlong hb).putTrain c.slot (.active n l speed true) (fun m hm => .inl ?_)
        (fun m k v x hx => ?_) (fun a ha => .inl ?_) fun a ha hx => absurd ?_ hx).mark _
      · show Train.number (tget s.trains c.slot) = _
        rw [ht]
        exact hm
      · cases hx
        exact ((becomeStray_agree h .overlong hb).fits _ _ _ _ _ ht)
      · show a ∈ s.listOf c.slot
        rw [hlist]
        exact ha
      · have ha : a ∈ s.listOf c.slot := ha
        rw [hlist] at ha
        exact ha
    · rename_i hroom
      have hroom : l.length < 8 := Nat.lt_of_not_le hroom
      have hturn : s.listFits (if c.atHead then l else reversed l) ∧ (if c.atHead then l else reversed l).length = l.length ∧
          ∀ a, a ∈ (if c.atHead then l else reversed l).map (·.block) ↔ a ∈ l.map (·.block) := by
        split
        · exact ⟨hfits, rfl, fun _ => Iff.rfl⟩
        · exact ⟨listFits_reversed hfits, by simp [reversed], fun a => by simp [reversed]⟩
      obtain ⟨hk, hlen, hmem⟩ := hturn
      refine ((h.putTrain c.slot
        (.active n (⟨b, c.across.other⟩ :: if c.atHead then l else reversed l) speed o) (fun m hm => .inl ?_)
        (fun m k v x hx => ?_) (fun a ha => ?_) fun a ha hx => absurd ?_ hx).mark _).mark _
      · rw [ht]
        exact hm
      · cases hx
        refine listFits_cons hk _ (by omega) ?_ hbr
        rw [hmem, ← hlist]
        exact hb _
      · rcases List.mem_cons.1 ha with rfl | ha
        · exact .inr ⟨hb, hs⟩
        · rw [hmem, ← hlist] at ha
          exact .inl ha
      · rw [hlist, ← hmem] at ha
        exact List.mem_cons_of_mem _ ha
  · exact h

theorem adopt_agree {s : State} (h : TrainsAgree s) {b : Fin 48} (t : Fin 24) (front : Side) (hb : ∀ t, b ∉ s.listOf t)
    (hs : (tget s.blockFlags b).stray = none) (hbr : s.bridged b = false) : TrainsAgree (s.adopt b t front) := by
  unfold State.adopt
  split
  · rename_i n seen speed o ht
    refine ((h.putTrain t (.active n [⟨b, front⟩] speed o) (fun m hm => .inl ?_)
      (fun m k v x hx => ?_) (fun a ha => .inr ?_) fun a ha => ?_).mark _).mark _
    · rw [ht]
      exact hm
    · cases hx
      exact ⟨by simp, by simp, by simp, by simp [hbr], by simp [hbr]⟩
    · obtain rfl : a = b := by simpa [Train.blocks] using ha
      exact ⟨hb, hs⟩
    · rw [State.listOf, ht] at ha
      cases ha
  · exact h

theorem seekTrain_agree {s : State} (h : TrainsAgree s) {b : Fin 48} (hb : ∀ t, b ∉ s.listOf t)
    (hs : (tget s.blockFlags b).stray = none) (hbr : s.bridged b = false) : TrainsAgree (s.seekTrain b) := by
  unfold State.seekTrain
  split
  · unfold State.seekLost
    split
    · exact becomeStray_agree h _ hb
    · exact adopt_agree h _ _ hb hs hbr
    · exact becomeStray_agree h _ hb
  · exact growTrain_agree h _ hb hs hbr
  · exact becomeStray_agree h _ hb

theorem registerOccupied_agree {s : State} (h : TrainsAgree s) (b : Fin 48) : TrainsAgree (s.registerOccupied b) := by
  unfold State.registerOccupied
  split
  · exact (h.updFlags b (fun f => { f with bridged := false }) (h.stray b) fun hc => by cases hc).mark _
  · rename_i hbr
    split
    · exact h
    · rename_i hfree
      rw [Bool.or_eq_true, not_or, holder_isSome, Bool.not_eq_true, Option.isSome_eq_false_iff, Option.isNone_iff_eq_none] at hfree
      obtain ⟨hb, hs⟩ := hfree
      exact seekTrain_agree h (not_exists.1 hb) hs (by simpa [State.bridged] using hbr)

/-! ## A block becomes clear (R57 to R59) -/

/-- Entries leave a list that keeps others, of which the first and the last are not bridged (R57). -/
theorem TrainsAgree.shrink {s : State} (h : TrainsAgree s) {t : Fin 24} {n : Nat} {l : List TrainBlock} {speed : Option Nat}
    {o : Bool} (ht : tget s.trains t = .active n l speed o) {gone : List (Fin 48)} {kept : List TrainBlock}
    (hsub : kept.Sublist l) (hne : kept ≠ []) (hall : ∀ x ∈ l, x.block ∈ gone ∨ x ∈ kept)
    (hhead : ∀ x, kept.head? = some x → s.bridged x.block = false)
    (hlast : ∀ x, kept.getLast? = some x → s.bridged x.block = false) :
    TrainsAgree (((gone.foldl State.leaveList s).putTrain t (.active n kept speed o)).mark (.train t)) := by
  obtain ⟨htr, hf⟩ := leaveLists_flags gone s
  generalize gone.foldl State.leaveList s = u at htr hf
  have hb (a : Fin 48) (ha : s.bridged a = false) : u.bridged a = false := by
    rw [State.bridged, hf]
    split
    · rfl
    · exact ha
  have hu : TrainsAgree u := by
    refine h.putFlags htr (fun a ha => ?_) fun a ha => .inl ?_
    · rw [hf] at ha
      exact h.stray a (by split at ha <;> exact ha)
    · by_contra hc
      rw [hb a (by simpa using hc)] at ha
      cases ha
  have hlist : u.listOf t = l.map (·.block) := listOf_active (by rw [htr]; exact ht)
  obtain ⟨-, hlen, hnd, -⟩ := h.fits t n l speed o ht
  refine (hu.putTrain t (.active n kept speed o) (fun m hm => .inl ?_) (fun m k v x hx => ?_)
    (fun a ha => .inl ?_) fun a ha hx => ?_).mark _
  · rw [htr, ht]
    exact hm
  · cases hx
    exact ⟨hne, hsub.length_le.trans hlen, hnd.sublist (hsub.map _), fun x hx => hb _ (hhead x hx), fun x hx => hb _ (hlast x hx)⟩
  · rw [hlist]
    exact (hsub.map _).subset ha
  · rw [hlist, List.mem_map] at ha
    obtain ⟨x, hxl, rfl⟩ := ha
    rcases hall x hxl with hg | hk
    · rw [State.bridged, hf, if_pos hg]
    · exact absurd (List.mem_map_of_mem hk) hx

/-- What stands after the bridged entries of a list ends as the list does, and begins with an entry that is not bridged. -/
theorem dropWhile_bridged {s : State} {l : List TrainBlock} (hne : l ≠ [])
    (hlast : ∀ x, l.getLast? = some x → s.bridged x.block = false) :
    (l.dropWhile fun x => s.bridged x.block) ≠ [] ∧
      (∀ x, (l.dropWhile fun x => s.bridged x.block).head? = some x → s.bridged x.block = false) ∧
      (l.dropWhile fun x => s.bridged x.block).getLast? = l.getLast? := by
  have hd : (l.dropWhile fun x => s.bridged x.block) ≠ [] := fun hd => by
    rw [List.dropWhile_eq_nil_iff] at hd
    have := hd (l.getLast hne) (List.getLast_mem hne)
    rw [hlast _ (List.getLast?_eq_some_getLast hne)] at this
    cases this
  refine ⟨hd, fun x hx => ?_, ?_⟩
  · have := List.head?_dropWhile_not (fun x : TrainBlock => s.bridged x.block) l
    rw [hx] at this
    simpa using this
  · conv_rhs => rw [← List.takeWhile_append_dropWhile (p := fun x => s.bridged x.block) (l := l)]
    rw [List.getLast?_append_of_ne_nil _ hd]

theorem mem_exposed {s : State} {l : List TrainBlock} {x : TrainBlock} (hx : x ∈ l) :
    x.block ∈ (l.takeWhile fun x => s.bridged x.block).map (·.block) ∨ x ∈ l.dropWhile fun x => s.bridged x.block := by
  rw [← List.takeWhile_append_dropWhile (p := fun x => s.bridged x.block) (l := l), List.mem_append] at hx
  exact hx.imp_left fun hx => List.mem_map.2 ⟨x, hx, rfl⟩

theorem blockLeaves_agree {s : State} (h : TrainsAgree s) {t : Fin 24} {n : Nat} {l : List TrainBlock} {speed : Option Nat}
    {o : Bool} {b : Fin 48} (ht : tget s.trains t = .active n l speed o) (hb : b ∈ l.map (·.block)) (hl : 2 ≤ l.length) :
    TrainsAgree (s.blockLeaves t n l speed o b) := by
  obtain ⟨-, -, -, hhead, hlast⟩ := h.fits t n l speed o ht
  unfold State.blockLeaves
  simp only [exposed_eq]
  split
  · rename_i hfirst
    obtain ⟨x, k, rfl⟩ := List.exists_cons_of_length_pos (by omega : 0 < l.length)
    obtain rfl : x.block = b := by simpa using hfirst
    have hk : k ≠ [] := by rintro rfl; simp at hl
    have hend : (x :: k).getLast? = k.getLast? := by rw [List.getLast?_cons_of_ne_nil hk]
    obtain ⟨hne, hfront, hback⟩ := dropWhile_bridged hk (hend ▸ hlast)
    refine h.shrink ht ((List.dropWhile_sublist _).trans (List.sublist_cons_self x k)) hne (fun y hy => ?_) hfront
      fun y hy => hlast y (by rw [hend, ← hback]; exact hy)
    rcases List.mem_cons.1 hy with rfl | hy
    · exact .inl List.mem_cons_self
    · exact (mem_exposed hy).imp_left (List.mem_cons_of_mem _)
  · split
    · rename_i htail
      obtain ⟨k, x, rfl⟩ : ∃ k x, l = k ++ [x] :=
        ⟨_, _, (List.dropLast_append_getLast (by rintro rfl; simp at hl : l ≠ [])).symm⟩
      obtain rfl : x.block = b := by simpa using htail
      have hk : k.reverse ≠ [] := by
        intro hk
        rw [List.reverse_eq_nil_iff] at hk
        subst hk
        simp at hl
      have hend : (k ++ [x]).head? = k.reverse.getLast? := by
        rw [List.getLast?_reverse, List.head?_append_of_ne_nil _ (by simpa using hk)]
      obtain ⟨hne, hfront, hback⟩ := dropWhile_bridged hk (hend ▸ hhead)
      simp only [List.reverse_append, List.reverse_singleton, List.singleton_append, List.tail_cons]
      refine h.shrink ht ?_ (by simpa using hne) (fun y hy => ?_) (fun y hy => ?_) fun y hy => ?_
      · have := (List.dropWhile_sublist (fun x : TrainBlock => s.bridged x.block) (l := k.reverse)).reverse
        rw [List.reverse_reverse] at this
        exact this.trans (List.sublist_append_left k [x])
      · rcases List.mem_append.1 hy with hy | hy
        · rw [List.mem_reverse]
          exact (mem_exposed (List.mem_reverse.2 hy)).imp_left (List.mem_cons_of_mem _)
        · obtain rfl := List.mem_singleton.1 hy
          exact .inl List.mem_cons_self
      · rw [List.head?_reverse, hback, ← hend] at hy
        exact hhead y hy
      · rw [List.getLast?_reverse] at hy
        exact hfront y hy
    · rename_i hfirst htail
      refine (h.updFlags b (fun f => { f with bridged := true }) (h.stray b)
        fun _ => .inr ⟨⟨t, by rw [listOf_active ht]; exact hb⟩, fun q m k v p hq => ?_⟩).mark _
      have other (x : TrainBlock) (hx : x ∈ k) (hxb : x.block = b) : k = l := by
        have hqb : b ∈ s.listOf q := by rw [listOf_active hq, ← hxb]; exact List.mem_map_of_mem hx
        have htb : b ∈ s.listOf t := by rw [listOf_active ht]; exact hb
        rw [h.eq_of_mem htb hqb, ht] at hq
        cases hq
        rfl
      refine ⟨fun x hx hxb => hfirst ?_, fun x hx hxb => htail ?_⟩
      · rw [← other x (List.mem_of_mem_head? hx) hxb, hx, ← hxb]
        rfl
      · rw [← other x (List.mem_of_getLast? hx) hxb, hx, ← hxb]
        rfl

theorem registerCleared_agree {s : State} (h : TrainsAgree s) (b : Fin 48) : TrainsAgree (s.registerCleared b) := by
  unfold State.registerCleared
  split
  · rename_i t hholder
    have hb := mem_listOf_of_holder hholder
    split
    · rename_i n x speed o ht
      obtain ⟨-, -, -, hhead, -⟩ := h.fits _ _ _ _ _ ht
      refine ((h.putTrain t (.lost n ⟨b, x.front, s.ms⟩ speed o) (fun m hm => .inl ?_)
        (fun m k v p hx => by cases hx) (fun a ha => by cases ha) fun a ha _ => ?_).mark _).mark _
      · rw [ht]
        exact hm
      · rw [listOf_active ht] at ha
        rw [List.mem_singleton.1 ha]
        exact hhead x rfl
    · rename_i n l speed o hone ht
      rw [listOf_active ht] at hb
      refine blockLeaves_agree h ht hb ?_
      match l, hb with
      | [x], _ => exact absurd rfl (hone x)
      | _ :: _ :: _, _ => simp
    · exact h
  · rename_i hholder
    split
    · exact ((h.updFlags b (fun f => { f with stray := none }) (fun hc => by cases hc) .inl).mark _).settlePanel
    · exact h

/-! ## Placing, removing, speeds (R61 to R63) -/

theorem placed_agree {s : State} (h : TrainsAgree s) {t : Fin 24} {n : Nat} {b : Fin 48} (e : Side) (hn : 1 ≤ n ∧ n ≤ 9999)
    (hfresh : ∀ q, Train.number (tget s.trains q) ≠ some n) (ht : tget s.trains t = .free) (hb : ∀ q, b ∉ s.listOf q) :
    TrainsAgree ((s.putTrain t (.active n [⟨b, e⟩] none false)).updFlags b fun f => { f with stray := none }) := by
  have hbr : s.bridged b = false := by
    by_contra hc
    obtain ⟨q, hq⟩ := h.held b (by simpa using hc)
    exact hb q hq
  have hu : TrainsAgree (s.updFlags b fun f => { f with stray := none }) :=
    h.updFlags b _ (fun hc => by cases hc) .inl
  refine hu.putTrain t (.active n [⟨b, e⟩] none false) (fun m hm => .inr ?_)
    (fun m k v x hx => ?_) (fun a ha => .inr ?_) fun a ha => ?_
  · cases hm
    exact ⟨hn.1, hn.2, hfresh⟩
  · cases hx
    have : (s.updFlags b fun f => { f with stray := none }).bridged b = false := by
      rw [State.bridged, State.updFlags_blockFlags, tget_tupd_self]
      exact hbr
    exact ⟨by simp, by simp, by simp, by simp [this], by simp [this]⟩
  · obtain rfl : a = b := by simpa [Train.blocks] using ha
    exact ⟨hb, by rw [State.updFlags_blockFlags, tget_tupd_self]⟩
  · have ha : a ∈ s.listOf t := ha
    rw [State.listOf, ht] at ha
    cases ha

theorem slotOf_eq_none {s : State} {n : Nat} : s.slotOf n = none ↔ ∀ t, Train.number (tget s.trains t) ≠ some n := by
  simp [State.slotOf, List.find?_eq_none]

theorem freeSlot_free {s : State} {t : Fin 24} (h : s.freeSlot = some t) : tget s.trains t = .free := by
  simpa using List.find?_some h

theorem placeTrain_agree {s : State} (h : TrainsAgree s) (d : PlaceReq) : TrainsAgree (s.placeTrain d).1 := by
  unfold State.placeTrain
  split
  · exact h
  · split
    · rename_i n b e hn _ _
      split
      · exact h
      · split
        · exact h
        · rename_i hfresh
          split
          · exact h
          · rename_i t ht
            split
            · exact h
            · rename_i hfree
              rw [Bool.or_eq_true, not_or, holder_isSome] at hfree
              have hfresh : s.slotOf n = none := by simpa using hfresh
              obtain ⟨rfl, hrange⟩ := inRange_eq_some.1 hn
              exact (((placed_agree h e hrange (slotOf_eq_none.1 hfresh) (freeSlot_free ht)
                (not_exists.1 hfree.2)).mark _).mark _).settlePanel
    · exact h

/-- A record becomes FREE, and the entries it had are bridged no more, and stray or not (R62). -/
theorem freed_agree {s w : State} (h : TrainsAgree s) (t : Fin 24) (ht : w.trains = tset s.trains t .free)
    (hin : ∀ b ∈ s.listOf t, w.bridged b = false)
    (hout : ∀ b, b ∉ s.listOf t → tget w.blockFlags b = tget s.blockFlags b) : TrainsAgree w := by
  obtain ⟨htr, hf⟩ := leaveLists_flags (s.listOf t) s
  generalize (s.listOf t).foldl State.leaveList s = u at htr hf
  have hlist : u.listOf = s.listOf := listOf_congr htr
  have hub {b : Fin 48} (hb : b ∉ s.listOf t) : tget u.blockFlags b = tget s.blockFlags b := by rw [hf, if_neg hb]
  have hu : TrainsAgree u := by
    refine h.putFlags htr (fun b hb => ?_) fun b hb => .inl ?_
    · rw [hf] at hb
      exact h.stray b (by split at hb <;> exact hb)
    · rw [State.bridged, hf] at hb
      split at hb
      · cases hb
      · exact hb
  have hv : TrainsAgree (u.putTrain t .free) := by
    refine hu.putTrain t .free (fun m hm => by cases hm) (fun m k v x hx => by cases hx) (fun a ha => by cases ha) fun a ha _ => ?_
    rw [hlist] at ha
    rw [State.bridged, hf, if_pos ha]
  refine hv.putFlags (by rw [ht, State.putTrain_trains, htr]) (fun b hb q hq => ?_) fun b hb => .inl ?_
  · rw [listOf_putTrain, hlist] at hq
    split at hq
    · cases hq
    · rename_i htq
      have hbt : b ∉ s.listOf t := fun hbt => h.apart t q htq b hbt hq
      exact h.stray b (by rw [← hout b hbt]; exact hb) q hq
  · have hbt : b ∉ s.listOf t := fun hbt => by
      rw [hin b hbt] at hb
      cases hb
    rw [State.bridged, State.putTrain_blockFlags, hub hbt, ← hout b hbt]
    exact hb

theorem freeTrain_agree {s : State} (h : TrainsAgree s) (t : Fin 24) : TrainsAgree (s.freeTrain t) := by
  obtain ⟨htr, -, hf⟩ := dropEntries_flags (s.listOf t) ((s.putTrain t .free).mark (.train t))
  generalize hu : (s.listOf t).foldl State.dropEntry ((s.putTrain t .free).mark (.train t)) = u at htr hf
  have hfreed : TrainsAgree u := freed_agree h t htr (fun b hb => by rw [State.bridged, hf, if_pos hb]) fun b hb => by
    rw [hf, if_neg hb]
    rfl
  subst hu
  exact ((handClear_follows _ _ _).trans (callExamine_follows _)).trainsStand.agree hfreed

theorem removeTrain_agree {s : State} (h : TrainsAgree s) (n : Nat) : TrainsAgree (s.removeTrain n).1 := by
  unfold State.removeTrain
  split
  · exact h
  · split
    · exact h
    · split
      · exact h
      · exact freeTrain_agree h _

theorem registerSpeed_agree {s : State} (h : TrainsAgree s) (b : Fin 48) (v : Nat) : TrainsAgree (s.registerSpeed b v) := by
  unfold State.registerSpeed
  split
  · rename_i t _
    split
    · rename_i n l speed o ht
      refine (h.putTrain t (.active n l (some v) o) (fun m hm => .inl ?_) (fun m k w x hx => ?_)
        (fun a ha => .inl ?_) fun a ha hx => absurd ?_ hx).mark _
      · rw [ht]
        exact hm
      · cases hx
        exact h.fits _ _ _ _ _ ht
      · rw [listOf_active ht]
        exact ha
      · rw [listOf_active ht] at ha
        exact ha
    · exact h
  · exact h

end Sys2Proof.Machine
end

section
/-! SUPPORT. What every request and every command keeps of the agreement of train records and block flags (`step_keepsTrains`),
and the invariant that follows (O8). -/

namespace Sys2Proof.Machine

/-- Where the train records agree before, they agree after. -/
def KeepsTrains (s t : State) : Prop := TrainsAgree s → TrainsAgree t

theorem KeepsTrains.refl (s : State) : KeepsTrains s s := id

theorem KeepsTrains.trans {s t u : State} (h : KeepsTrains s t) (k : KeepsTrains t u) : KeepsTrains s u := k ∘ h

theorem KeepsTrains.ite {p : Prop} [Decidable p] {s t u : State} (ht : p → KeepsTrains s t) (hu : ¬ p → KeepsTrains s u) :
    KeepsTrains s (if p then t else u) := by
  split
  · exact ht ‹_›
  · exact hu ‹_›

theorem TrainsStand.keeps {s t : State} (h : TrainsStand s t) : KeepsTrains s t := h.agree

theorem KeepsTrains.stand {s t u : State} (h : KeepsTrains s t) (k : TrainsStand t u) : KeepsTrains s u := h.trans k.keeps

theorem KeepsTrains.settle {s t : State} (h : KeepsTrains s t) : KeepsTrains s t.settle :=
  h.stand (settle_follows t).trainsStand

/-- No train is known and no block is flagged. -/
theorem trainsAgree_blank {s : State} (ht : s.trains = tfill 24 .free) (hf : s.blockFlags = tfill 48 BlockFlags.initial) :
    TrainsAgree s where
  fits t n l speed o h := by rw [ht, tget_tfill] at h; cases h
  inRange t n h := by rw [ht, tget_tfill] at h; cases h
  apart t u _ b h := by rw [State.listOf, ht, tget_tfill] at h; cases h
  numbers t u n h := by rw [ht, tget_tfill] at h; cases h
  stray b h := by rw [hf, tget_tfill] at h; cases h
  held b h := by rw [State.bridged, hf, tget_tfill] at h; cases h

/-! ## What the units do -/

/-- A change of occupancy (R33): the Train Register takes it, and what follows leaves the trains as they stand. -/
theorem occupancyChanged_keepsTrains (old : State) (b : Fin 48) (s : State) : KeepsTrains s (State.occupancyChanged old b s) := by
  unfold State.occupancyChanged
  extract_lets touched s1 s2
  refine .ite (fun _ h => ?_) fun _ h => ?_
  · exact ((((handClear_follows _ _ _).trans (routesTakeOccupied_follows _ _)).trans (approachTakes_follows _ _)).trans
      (setCuesFor_follows _ _)).trainsStand.agree (registerOccupied_agree h b)
  · exact (((handClear_follows _ _ _).trans (approachTakes_follows _ _)).trans (setCuesFor_follows _ _)).trainsStand.agree
      (registerCleared_agree h b)

theorem takeSample_keepsTrains (s : State) (b : Fin 48) (d : BlockDef) (level : Nat) : KeepsTrains s (s.takeSample b d level) := by
  unfold State.takeSample
  extract_lets old c c' s1 s2 s3 s4
  have h2 : TrainsStand s s2 :=
    (updChannel_trainsStand s b _).trans (.ite (fun _ => .refl _) fun _ => settlePanel_trainsStand _)
  have h3 : TrainsStand s s3 := h2.trans (.ite (fun _ => mark_trainsStand _ _) fun _ => .refl _)
  have h4 : TrainsStand s s4 := h3.trans (.ite (fun _ => takeOverload_trainsStand _ _ _) fun _ => .refl _)
  exact .ite (fun _ => h4.keeps) fun _ => h4.keeps.trans (occupancyChanged_keepsTrains _ _ _)

theorem channelGoesStale_trainsStand (s : State) (b : Fin 48) : TrainsStand s (s.channelGoesStale b) :=
  .ite (fun _ => updChannel_trainsStand s b _) fun _ => (updChannel_trainsStand s b _).trans (mark_trainsStand _ _)

theorem updTrap_trainsStand (s : State) (t : Fin 4) (f : TrapRec → TrapRec) : TrainsStand s (s.updTrap t f) := ⟨rfl, rfl⟩

theorem putFilter_trainsStand (s : State) (g : Fin 8) (x : Filter) : TrainsStand s (s.putFilter g x) := ⟨rfl, rfl⟩

theorem setText_trainsStand (s : State) (x : TextRec) : TrainsStand s { s with text := x } := ⟨rfl, rfl⟩

theorem displayResult_trainsStand (s : State) (v : Nat) : TrainsStand s (s.displayResult v) :=
  (setText_trainsStand s _).trans (settlePanel_trainsStand _)

/-- A result is handed on (R137): the Train Register takes the speed, and the others leave the trains as they stand. -/
theorem deliver_keepsTrains (s : State) (t : Fin 4) (d : TrapDef) (r : TrapResult) : KeepsTrains s (s.deliver t d r) := by
  unfold State.deliver
  extract_lets s1 s2 s3
  have h3 : TrainsStand s1 s3 := (aspectTakesResult_trainsStand _ _ _ _ _).trans (setCuesFor_follows _ _).trainsStand
  have hk : KeepsTrains s s3 := fun h => h3.agree (registerSpeed_agree h _ _)
  exact .ite (fun _ => hk.stand (displayResult_trainsStand _ _)) fun _ => hk

theorem startTiming_trainsStand (s : State) (t : Fin 4) (dir : TrapDir) (t0 : Stamp) (o : Bool) :
    TrainsStand s (s.startTiming t dir t0 o) := (updTrap_trainsStand s t _).trans (mark_trainsStand _ _)

theorem completeTiming_keepsTrains (s : State) (t : Fin 4) (d : TrapDef) (dir : TrapDir) (t0 : Stamp) (o : Bool) (x : Stamp) :
    KeepsTrains s (s.completeTiming t d dir t0 o x) := by
  unfold State.completeTiming
  extract_lets elapsed n r
  exact ((updTrap_trainsStand s t _).trans (mark_trainsStand _ _)).keeps.trans (deliver_keepsTrains _ _ _ _)

theorem trapHit_keepsTrains (s : State) (g : Fin 8) (d : TrapDef) (x : Stamp) : KeepsTrains s (s.trapHit g d x) := by
  unfold State.trapHit
  dsimp only
  split
  · exact (startTiming_trainsStand _ _ _ _ _).keeps
  · exact .ite (fun _ => (startTiming_trainsStand _ _ _ _ _).keeps) fun _ => completeTiming_keepsTrains _ _ _ _ _ _ _
  · exact .refl s

theorem takeEdge_keepsTrains (s : State) (g : Fin 8) (x : Stamp) : KeepsTrains s (s.takeEdge g x) := by
  unfold State.takeEdge
  refine .ite (fun _ => .refl s) fun _ => ?_
  split
  · exact .refl s
  · dsimp only
    exact (putFilter_trainsStand s g _).keeps.trans (.ite (fun _ => trapHit_keepsTrains _ _ _ _) fun _ => .refl _)

theorem goQuiet_trainsStand (s : State) (g : Fin 8) : TrainsStand s (s.goQuiet g) :=
  (putFilter_trainsStand s g _).trans
    (.ite (fun _ => (updTrap_trainsStand _ _ _).trans (mark_trainsStand _ _)) fun _ => .refl _)

theorem abandonTiming_trainsStand (s : State) (t : Fin 4) : TrainsStand s (s.abandonTiming t) :=
  (updTrap_trainsStand s t _).trans (mark_trainsStand _ _)

theorem markAll_trainsStand (s : State) (l : List Subject) : TrainsStand s (s.markAll l) := .foldl _ mark_trainsStand l s

/-- Entry into RUN blanks the flags (R47) and leaves the records; what follows touches neither. -/
theorem enterRun_keepsTrains (s : State) : KeepsTrains s s.enterRun := fun h => by
  unfold State.enterRun
  extract_lets s1 s2
  have h1 : TrainsStand s s1 := ⟨rfl, rfl⟩
  have hr : TrainsAgree s1.detectionRun.registerRun := by
    refine (h1.agree h).putFlags rfl (fun b hb => ?_) fun b hb => ?_
    · rw [State.registerRun, tget_tfill] at hb
      cases hb
    · rw [State.bridged, State.registerRun, tget_tfill] at hb
      cases hb
  have h2 : TrainsStand s1.detectionRun.registerRun s2 := by
    have hsignals (u : State) : TrainsStand u u.signalsRun :=
      (⟨rfl, rfl⟩ : TrainsStand u { u with signals := tfill 32 SignalRec.initial }).trans (markAll_trainsStand _ _)
    have hpanel (u : State) : TrainsStand u u.gatesInitial.panelRun := ⟨rfl, rfl⟩
    exact ((hsignals _).trans (hpanel _)).trans (markAll_trainsStand _ _)
  exact (((h2.trans (pointsRun_trainsStand _)).trans (deckRun_trainsStand _)).trans (endEntry_trainsStand _)).agree hr

theorem enterConfig_keepsTrains (s : State) : KeepsTrains s s.enterConfig := fun _ =>
  have h := (enterConfig_atRest s).1
  trainsAgree_blank h.trains h.blockFlags

theorem powerOn_keepsTrains (s : State) (c : Clock) : KeepsTrains s { s.powerOn with clock := c } := fun _ =>
  trainsAgree_blank rfl rfl

/-! ## Requests -/

theorem settleReply_keepsTrains {s : State} {x : State × Reply} (h : KeepsTrains s x.1) : KeepsTrains s (settleReply x).1 := by
  unfold settleReply
  split
  · exact h
  · exact h.settle

theorem defineEntry_trainsStand {n : Nat} {β : Type} (s : State) (index : Nat) (fields : Option β)
    (put : Tables → Fin n → β → Tables) : TrainsStand s (s.defineEntry index fields put).1 := by
  unfold State.defineEntry
  split
  · exact .refl s
  · split
    · exact ⟨rfl, rfl⟩
    · exact .refl s

theorem takeDefinePoint_trainsStand (d : DefPoint) (s : State) : TrainsStand s (takeDefinePoint d s).1 := by
  unfold takeDefinePoint
  extract_lets r
  have hr : TrainsStand s r.1 := defineEntry_trainsStand s _ _ _
  split
  · split
    · exact hr
    · exact hr.trans (mark_trainsStand _ _)
  · exact hr

theorem takeDefineStep_trainsStand (d : DefStep) (s : State) : TrainsStand s (takeDefineStep d s).1 := by
  unfold takeDefineStep
  split
  · exact .refl s
  · split
    · unfold State.putStep
      dsimp only
      split
      · exact ⟨rfl, rfl⟩
      · split
        · split
          · exact ⟨rfl, rfl⟩
          · exact .refl s
        · exact .refl s
    · exact .refl s

theorem takeErase_trainsStand (d : EraseReq) (s : State) : TrainsStand s (takeErase d s).1 := by
  unfold takeErase
  split
  · exact .refl s
  · split
    · rename_i t _
      have hput : TrainsStand s ({ s with tables := t }).dropUndefinedPoints.recomputeParts := ⟨rfl, rfl⟩
      exact hput.trans (markAll_trainsStand _ _)
    · exact .refl s

theorem takeSetParam_trainsStand (d : ParamReq) (s : State) : TrainsStand s (takeSetParam d s).1 := by
  unfold takeSetParam
  split
  · exact .refl s
  · extract_lets v s1 s2
    exact (⟨rfl, rfl⟩ : TrainsStand s s1).trans (.ite (fun _ => .refl _) fun _ => (expireStack_trainsStand _).settle)

theorem takeSetCaption_trainsStand (d : CaptionReq) (s : State) : TrainsStand s (takeSetCaption d s).1 := by
  unfold takeSetCaption
  split
  · split
    · exact ⟨rfl, rfl⟩
    · exact .refl s
  · exact .refl s

theorem takeSetText_trainsStand (l : List Byte) (s : State) : TrainsStand s (takeSetText l s).1 := by
  unfold takeSetText
  split
  · exact (putLine1_follows s _).trainsStand.trans (settlePanel_trainsStand _)
  · exact .refl s

theorem takeStartRun_keepsTrains (a : Unit) (s : State) : KeepsTrains s (takeStartRun a s).1 := by
  unfold takeStartRun
  split
  · exact .refl s
  · split
    · exact .refl s
    · dsimp only
      exact enterRun_keepsTrains s

theorem takeStopRun_keepsTrains (a : Unit) (s : State) : KeepsTrains s (takeStopRun a s).1 := by
  unfold takeStopRun
  split
  · exact .refl s
  · dsimp only
    exact enterConfig_keepsTrains s

theorem takeHalt_trainsStand (a : Unit) (s : State) : TrainsStand s (takeHalt a s).1 := by
  unfold takeHalt
  split
  · exact .refl s
  · dsimp only
    exact enterHalt_trainsStand s _
  · exact .refl s

theorem takeResume_trainsStand (a : Unit) (s : State) : TrainsStand s (takeResume a s).1 := by
  unfold takeResume
  split
  · dsimp only
    exact resumeRun_trainsStand s
  · exact .refl s

theorem takeReset_trainsStand (a : Unit) (s : State) : TrainsStand s (takeReset a s).1 := by
  unfold takeReset
  dsimp only
  exact updLink_trainsStand s _

theorem takeIsolateFeed_trainsStand (d : IsolateReq) (s : State) : TrainsStand s (takeIsolateFeed d s).1 := by
  unfold takeIsolateFeed
  split
  · exact .refl s
  · split
    · split
      · exact isolate_trainsStand s _ _
      · exact .refl s
    · exact .refl s

theorem takeRestoreFeed_trainsStand (n : Nat) (s : State) : TrainsStand s (takeRestoreFeed n s).1 := by
  unfold takeRestoreFeed
  split
  · exact .refl s
  · split
    · split
      · exact restore_trainsStand s _
      · exact .refl s
    · exact .refl s

theorem takeStopTurntable_trainsStand (a : Unit) (s : State) : TrainsStand s (takeStopTurntable a s).1 := by
  unfold takeStopTurntable
  split
  · exact .refl s
  · split
    · exact .refl s
    · exact (kill_trainsStand s).settle

theorem takeSetCue_trainsStand (n : Nat) (s : State) : TrainsStand s (takeSetCue n s).1 := by
  unfold takeSetCue
  split
  · exact (setCueFlag_follows s _).trainsStand.settle
  · exact .refl s

theorem takeClearCue_trainsStand (n : Nat) (s : State) : TrainsStand s (takeClearCue n s).1 := by
  unfold takeClearCue
  split
  · exact (putCue_follows s _ _).trainsStand
  · exact .refl s

theorem takeQuery_trainsStand (d : QueryReq) (s : State) : TrainsStand s (takeQuery d s).1 := by
  unfold takeQuery
  split
  · exact (updLink_trainsStand s _).trans (reported_trainsStand _ _)
  · exact .refl s

theorem takeDefine_keepsTrains {n : Nat} {β : Type} (index : Nat) (fields : Option β) (put : Tables → Fin n → β → Tables)
    (s : State) : KeepsTrains s (s.defineEntry index fields put).1 := (defineEntry_trainsStand s index fields put).keeps

theorem takePlaceTrain_keepsTrains (d : PlaceReq) (s : State) : KeepsTrains s (takePlaceTrain d s).1 :=
  settleReply_keepsTrains fun h => placeTrain_agree h d

theorem takeRemoveTrain_keepsTrains (n : Nat) (s : State) : KeepsTrains s (takeRemoveTrain n s).1 :=
  settleReply_keepsTrains fun h => removeTrain_agree h n

theorem takeThrowPoint_keepsTrains (d : ThrowReq) (s : State) : KeepsTrains s (takeThrowPoint d s).1 :=
  settleReply_keepsTrains (throwPoint_trainsStand s d).keeps

theorem takeRequestRoute_keepsTrains (n : Nat) (s : State) : KeepsTrains s (takeRequestRoute n s).1 :=
  settleReply_keepsTrains (requestRoute_follows s _ n).trainsStand.keeps

theorem takeCancelRoute_keepsTrains (n : Nat) (s : State) : KeepsTrains s (takeCancelRoute n s).1 :=
  settleReply_keepsTrains (cancelRoute_follows s n).trainsStand.keeps

theorem takeForceRelease_keepsTrains (n : Nat) (s : State) : KeepsTrains s (takeForceRelease n s).1 :=
  settleReply_keepsTrains (forceRelease_trainsStand s n).keeps

theorem takeTurn_keepsTrains (d : TurnReq) (s : State) : KeepsTrains s (takeTurn d s).1 :=
  settleReply_keepsTrains (turnRequest_trainsStand s d).keeps

theorem takeHome_keepsTrains (a : Unit) (s : State) : KeepsTrains s (takeHome a s).1 :=
  settleReply_keepsTrains (homeRequest_trainsStand s).keeps

theorem takeStartShow_keepsTrains (n : Nat) (s : State) : KeepsTrains s (takeStartShow n s).1 :=
  settleReply_keepsTrains (startShow_trainsStand s _ n).keeps

theorem takeStopShow_keepsTrains (n : Nat) (s : State) : KeepsTrains s (takeStopShow n s).1 :=
  settleReply_keepsTrains (stopShow_trainsStand s n).keeps

/-! ## Frames -/

theorem examineBody_keepsTrains {α : Type} (s : State) (tag : Byte) (body : Body α) {take : α → State → State × Reply}
    (h : ∀ a s, KeepsTrains s (take a s).1) : KeepsTrains s (s.examineBody tag body take) := by
  unfold State.examineBody
  refine .ite (fun _ => .refl s) fun _ => ?_
  split
  · exact (updLink_trainsStand s _).keeps
  · exact .ite (fun _ => (updLink_trainsStand s _).keeps) fun _ => (h _ s).stand (updLink_trainsStand _ _)

theorem examineUnknown_trainsStand (s : State) (tag : Byte) : TrainsStand s (s.examineUnknown tag) :=
  .ite (fun _ => .refl s) fun _ => updLink_trainsStand s _

theorem examineFrame_keepsTrains (s : State) (kind tag : Byte) (p : List Byte) : KeepsTrains s (s.examineFrame kind tag p) := by
  unfold State.examineFrame
  split
  · exact examineBody_keepsTrains s tag _ fun _ => takeDefine_keepsTrains _ _ _
  · exact examineBody_keepsTrains s tag _ fun d s => (takeDefinePoint_trainsStand d s).keeps
  · exact examineBody_keepsTrains s tag _ fun _ => takeDefine_keepsTrains _ _ _
  · exact examineBody_keepsTrains s tag _ fun _ => takeDefine_keepsTrains _ _ _
  · exact examineBody_keepsTrains s tag _ fun _ => takeDefine_keepsTrains _ _ _
  · exact examineBody_keepsTrains s tag _ fun _ => takeDefine_keepsTrains _ _ _
  · exact examineBody_keepsTrains s tag _ fun _ => takeDefine_keepsTrains _ _ _
  · exact examineBody_keepsTrains s tag _ fun _ => takeDefine_keepsTrains _ _ _
  · exact examineBody_keepsTrains s tag _ fun _ => takeDefine_keepsTrains _ _ _
  · exact examineBody_keepsTrains s tag _ fun _ => takeDefine_keepsTrains _ _ _
  · exact examineBody_keepsTrains s tag _ fun _ => takeDefine_keepsTrains _ _ _
  · exact examineBody_keepsTrains s tag _ fun _ => takeDefine_keepsTrains _ _ _
  · exact examineBody_keepsTrains s tag _ fun d s => (takeDefineStep_trainsStand d s).keeps
  · exact examineBody_keepsTrains s tag _ fun d s => (takeErase_trainsStand d s).keeps
  · exact examineBody_keepsTrains s tag _ fun d s => (takeSetParam_trainsStand d s).keeps
  · exact examineBody_keepsTrains s tag _ fun d s => (takeSetCaption_trainsStand d s).keeps
  · exact examineBody_keepsTrains s tag _ takeStartRun_keepsTrains
  · exact examineBody_keepsTrains s tag _ takeStopRun_keepsTrains
  · exact examineBody_keepsTrains s tag _ fun d s => (takeHalt_trainsStand d s).keeps
  · exact examineBody_keepsTrains s tag _ fun d s => (takeResume_trainsStand d s).keeps
  · exact examineBody_keepsTrains s tag _ fun d s => (takeReset_trainsStand d s).keeps
  · exact examineBody_keepsTrains s tag _ fun d s => (takeIsolateFeed_trainsStand d s).keeps
  · exact examineBody_keepsTrains s tag _ fun d s => (takeRestoreFeed_trainsStand d s).keeps
  · exact examineBody_keepsTrains s tag _ takePlaceTrain_keepsTrains
  · exact examineBody_keepsTrains s tag _ takeRemoveTrain_keepsTrains
  · exact examineBody_keepsTrains s tag _ takeThrowPoint_keepsTrains
  · exact examineBody_keepsTrains s tag _ takeRequestRoute_keepsTrains
  · exact examineBody_keepsTrains s tag _ takeCancelRoute_keepsTrains
  · exact examineBody_keepsTrains s tag _ takeForceRelease_keepsTrains
  · exact examineBody_keepsTrains s tag _ takeTurn_keepsTrains
  · exact examineBody_keepsTrains s tag _ takeHome_keepsTrains
  · exact examineBody_keepsTrains s tag _ fun d s => (takeStopTurntable_trainsStand d s).keeps
  · exact examineBody_keepsTrains s tag _ takeStartShow_keepsTrains
  · exact examineBody_keepsTrains s tag _ takeStopShow_keepsTrains
  · exact examineBody_keepsTrains s tag _ fun d s => (takeSetCue_trainsStand d s).keeps
  · exact examineBody_keepsTrains s tag _ fun d s => (takeClearCue_trainsStand d s).keeps
  · exact examineBody_keepsTrains s tag _ fun d s => (takeSetText_trainsStand d s).keeps
  · exact examineBody_keepsTrains s tag _ fun d s => (takeQuery_trainsStand d s).keeps
  · exact (examineUnknown_trainsStand s tag).keeps

/-- A byte that completes a frame has it examined; any other changes the assembler alone (R202). -/
theorem takeByte_keepsTrains (s : State) (b : Byte) : KeepsTrains s (s.takeByte b) := by
  have late : TrainsStand s s.abandonLate := by
    unfold State.abandonLate
    split
    · exact .ite (fun _ => updLink_trainsStand s _) fun _ => .refl s
    · exact .refl s
  unfold State.takeByte
  refine (late.trans (updLink_trainsStand _ fun l => { l with rx := l.rx.take b s.abandonLate.clock.us })).keeps.trans ?_
  dsimp only
  split
  · exact examineFrame_keepsTrains _ _ _ _
  · exact .refl _

/-! ## Commands -/

/-- A command completes and keeps the agreement. -/
def CommandKeepsTrains (s : State) (x : Host.Outcome State Fault Refusal) : Prop := ∃ t, x = .next t ∧ KeepsTrains s t

theorem CommandKeepsTrains.of_advance {s t : State} {dt : Nat} (h : KeepsTrains (s.advance dt) t) :
    CommandKeepsTrains s (.next t) := ⟨t, rfl, (advance_trainsStand s dt).keeps.trans h⟩

theorem CommandKeepsTrains.of_stand {s t : State} {dt : Nat} (h : TrainsStand (s.advance dt) t) :
    CommandKeepsTrains s (.next t) := .of_advance (dt := dt) h.keeps

theorem request_keepsTrains {α : Type} (s : State) (dt : Nat) (tag : Byte) (body : Body α)
    {take : α → State → State × Reply} (h : ∀ a s, KeepsTrains s (take a s).1) :
    CommandKeepsTrains s (s.request dt tag body take) :=
  .of_advance ((updLink_trainsStand (s.advance dt) fun l => { l with rx := .hunt }).keeps.trans
    (examineBody_keepsTrains _ tag body h))

theorem advanceTo_trainsStand (s : State) (e : Nat) : TrainsStand s (s.advanceTo e) := advance_trainsStand s _

theorem advanceToStamp_trainsStand (s : State) (e : Stamp) : TrainsStand s (s.advanceToStamp e) :=
  .ite (fun _ => advance_trainsStand s _) fun _ => .refl s

/-- An operation at an instant reached, and the end of the event. -/
theorem TrainsStand.at_expiry {s u : State} {e : Nat} (h : TrainsStand (s.advanceTo e) u) : TrainsStand s u.settle :=
  ((advanceTo_trainsStand s e).trans h).settle

/-- A module's timer comes due (R175, R180, R182). -/
theorem moduleDue_trainsStand (s : State) (e : Nat) (m : Fin 24) (f : ModuleRec → ModuleRec) :
    TrainsStand s (((s.advanceTo e).updModule m f).syncLists) :=
  ((advanceTo_trainsStand s e).trans (updModule_trainsStand _ m f)).trans (syncLists_follows _).trainsStand

theorem freeBus_trainsStand (s : State) : TrainsStand s s.freeBus := updBus_trainsStand s _

/-! ### Each command that waits on a timer, a record or the bus -/

theorem execFrameGapTimeout_keepsTrains (dt : Nat) (s : State) : CommandKeepsTrains s (execFrameGapTimeout dt s) := by
  refine .of_stand (dt := dt) ?_
  split
  · exact (advanceTo_trainsStand _ _).trans (updLink_trainsStand _ _)
  · exact .refl _

theorem execSendReport_keepsTrains (dt : Nat) (s : State) : CommandKeepsTrains s (execSendReport dt s) := by
  refine .of_stand (dt := dt) ?_
  unfold State.sendReport
  split
  · exact (updLink_trainsStand _ _).trans (reported_trainsStand _ _)
  · exact .refl _

theorem execLevelSample_keepsTrains (dt : Nat) (i : BitVec 7) (v : Byte) (k : BitVec 4) (s : State) :
    CommandKeepsTrains s (execLevelSample dt i v k s) := by
  refine .of_advance (dt := dt) ?_
  split
  · exact (takeSample_keepsTrains _ _ _ _).settle
  · exact .refl _

theorem execContactReading_keepsTrains (dt : Nat) (i : BitVec 7) (v : Byte) (k : BitVec 4) (s : State) :
    CommandKeepsTrains s (execContactReading dt i v k s) := by
  refine .of_stand (dt := dt) ?_
  split
  · exact (contactArrives_trainsStand _ _ _ _).settle
  · exact .refl _

theorem execChannelStale_keepsTrains (dt : Nat) (b : Fin 48) (s : State) : CommandKeepsTrains s (execChannelStale dt b s) := by
  refine .of_stand (dt := dt) ?_
  split
  · exact (advanceTo_trainsStand _ _).trans (channelGoesStale_trainsStand _ _)
  · exact .refl _

theorem execContactStale_keepsTrains (dt : Nat) (p : Fin 64) (s : State) : CommandKeepsTrains s (execContactStale dt p s) := by
  refine .of_stand (dt := dt) ?_
  split
  · exact .at_expiry (contactGoesStale_trainsStand _ _)
  · exact .refl _

theorem execFeedCoolExpiry_keepsTrains (dt : Nat) (b : Fin 48) (s : State) :
    CommandKeepsTrains s (execFeedCoolExpiry dt b s) := by
  refine .of_stand (dt := dt) ?_
  split
  · exact (((advanceTo_trainsStand _ _).trans (updFeed_trainsStand _ _ _)).trans
      (setFeedState_trainsStand _ _ _)).trans (settlePanel_trainsStand _)
  · exact .refl _

theorem execRestartDue_keepsTrains (dt : Nat) (b : Fin 48) (s : State) : CommandKeepsTrains s (execRestartDue dt b s) := by
  refine .of_stand (dt := dt) ?_
  split
  · exact ((advanceTo_trainsStand _ _).trans (updFeed_trainsStand _ _ _)).trans (feedFollow_follows _ _).trainsStand
  · exact .refl _

theorem execSetupEnd_keepsTrains (dt : Nat) (g : Fin 8) (s : State) : CommandKeepsTrains s (execSetupEnd dt g s) := by
  refine .of_stand (dt := dt) ?_
  split
  · exact .at_expiry (enterPulse_follows _ _).trainsStand
  · exact .refl _

theorem execPulseTimeEnd_keepsTrains (dt : Nat) (g : Fin 8) (s : State) : CommandKeepsTrains s (execPulseTimeEnd dt g s) := by
  refine .of_stand (dt := dt) ?_
  split
  · exact .at_expiry (pulseTimeOver_trainsStand _ _)
  · exact .refl _

theorem execFeedbackWindowEnd_keepsTrains (dt : Nat) (g : Fin 8) (s : State) :
    CommandKeepsTrains s (execFeedbackWindowEnd dt g s) := by
  refine .of_stand (dt := dt) ?_
  split
  · exact .at_expiry (windowOver_trainsStand _ _)
  · exact .refl _

theorem execConfirmWaitEnd_keepsTrains (dt : Nat) (g : Fin 8) (s : State) :
    CommandKeepsTrains s (execConfirmWaitEnd dt g s) := by
  refine .of_stand (dt := dt) ?_
  split
  · exact .at_expiry (confirmOver_trainsStand _ _)
  · exact .refl _

theorem execRecoveryEnd_keepsTrains (dt : Nat) (g : Fin 8) (s : State) : CommandKeepsTrains s (execRecoveryEnd dt g s) := by
  refine .of_stand (dt := dt) ?_
  split
  · exact .at_expiry ((updGroup_trainsStand _ g _).trans (testRecovery_trainsStand _ _))
  · exact .refl _

theorem execStackTimeoutExpiry_keepsTrains (dt : Nat) (r : Fin 64) (s : State) :
    CommandKeepsTrains s (execStackTimeoutExpiry dt r s) := by
  refine .of_stand (dt := dt) ?_
  split
  · exact .at_expiry (dropQueued_follows _ _ _).trainsStand
  · exact .refl _

theorem execOverlapTimerExpiry_keepsTrains (dt : Nat) (r : Fin 64) (s : State) :
    CommandKeepsTrains s (execOverlapTimerExpiry dt r s) := by
  refine .of_stand (dt := dt) ?_
  split
  · exact .at_expiry (overlapExpires_trainsStand _ _ _)
  · exact .refl _

theorem execApproachLockExpiry_keepsTrains (dt : Nat) (r : Fin 64) (s : State) :
    CommandKeepsTrains s (execApproachLockExpiry dt r s) := by
  refine .of_stand (dt := dt) ?_
  split
  · exact .at_expiry (freeHolding_follows _ _ _).trainsStand
  · exact .refl _

theorem execApproachTimerExpiry_keepsTrains (dt : Nat) (g : Fin 32) (s : State) :
    CommandKeepsTrains s (execApproachTimerExpiry dt g s) := by
  refine .of_stand (dt := dt) ?_
  split
  · exact .at_expiry (putSignal_follows _ g _ rfl rfl).trainsStand
  · exact .refl _

theorem execQuietTimerExpiry_keepsTrains (dt : Nat) (g : Fin 8) (s : State) :
    CommandKeepsTrains s (execQuietTimerExpiry dt g s) := by
  refine .of_stand (dt := dt) ?_
  split
  · exact (advanceToStamp_trainsStand _ _).trans (goQuiet_trainsStand _ _)
  · exact .refl _

theorem execTrapTimeout_keepsTrains (dt : Nat) (t : Fin 4) (s : State) : CommandKeepsTrains s (execTrapTimeout dt t s) := by
  refine .of_stand (dt := dt) ?_
  split
  · exact (advanceToStamp_trainsStand _ _).trans (abandonTiming_trainsStand _ _)
  · exact .refl _

theorem execBoltOutContact_keepsTrains (dt : Nat) (closed : Bool) (s : State) :
    CommandKeepsTrains s (execBoltOutContact dt closed s) := by
  refine .of_stand (dt := dt) (.ite (fun _ => .refl _) fun _ => ?_)
  split
  · exact (boltOutLevel_trainsStand _ _ _).settle
  · exact updDeck_trainsStand _ _

theorem execBoltInContact_keepsTrains (dt : Nat) (closed : Bool) (s : State) :
    CommandKeepsTrains s (execBoltInContact dt closed s) :=
  .of_stand (dt := dt) (.ite (fun _ => .refl _) fun _ => (boltInLevel_trainsStand _ _).settle)

theorem execBoltTimerExpiry_keepsTrains (dt : Nat) (s : State) : CommandKeepsTrains s (execBoltTimerExpiry dt s) := by
  refine .of_stand (dt := dt) ?_
  split
  · exact .at_expiry (enterFault_trainsStand _ _)
  · exact .at_expiry (enterFault_trainsStand _ _)
  · exact .at_expiry (enterFault_trainsStand _ _)
  · exact .refl _

theorem execDeadtimeExpiry_keepsTrains (dt : Nat) (s : State) : CommandKeepsTrains s (execDeadtimeExpiry dt s) := by
  refine .of_stand (dt := dt) ?_
  split
  · exact .at_expiry (issueStep_follows _ _ _ _).trainsStand
  · exact .at_expiry (updDeck_trainsStand _ _)
  · exact .refl _

theorem execStepComplete_keepsTrains (dt : Nat) (s : State) : CommandKeepsTrains s (execStepComplete dt s) := by
  refine .of_stand (dt := dt) ?_
  split
  · exact .at_expiry (rampStep_trainsStand _ _ _ _)
  · exact .refl _

theorem execReversalEnd_keepsTrains (dt : Nat) (s : State) : CommandKeepsTrains s (execReversalEnd dt s) := by
  refine .of_stand (dt := dt) ?_
  split
  · exact .at_expiry ((updDeck_trainsStand _ _).trans (mark_trainsStand _ _))
  · exact .refl _

theorem execCreepStepComplete_keepsTrains (dt : Nat) (s : State) : CommandKeepsTrains s (execCreepStepComplete dt s) := by
  refine .of_stand (dt := dt) ?_
  split
  · exact .at_expiry (creepStep_trainsStand _ _ _ _ _)
  · exact .refl _

theorem execHomingStepComplete_keepsTrains (dt : Nat) (s : State) : CommandKeepsTrains s (execHomingStepComplete dt s) := by
  refine .of_stand (dt := dt) ?_
  split
  · exact .at_expiry (homingStep_trainsStand _ _ _ _)
  · exact .refl _

theorem execIndexEdge_keepsTrains (dt : Nat) (s : State) : CommandKeepsTrains s (execIndexEdge dt s) := by
  refine .of_stand (dt := dt) ?_
  split
  · exact .ite (fun _ => .refl _) fun _ => (indexCapture_trainsStand _ _ _ _ _).settle
  · exact (homingDone_trainsStand _).settle
  · exact .refl _

theorem execSettleTimeExpiry_keepsTrains (dt : Nat) (s : State) : CommandKeepsTrains s (execSettleTimeExpiry dt s) := by
  refine .of_stand (dt := dt) ?_
  split
  · exact (advanceTo_trainsStand _ _).trans (updDeck_trainsStand _ _)
  · exact .refl _

theorem execRelayDeadtimeExpiry_keepsTrains (dt : Nat) (s : State) : CommandKeepsTrains s (execRelayDeadtimeExpiry dt s) := by
  refine .of_stand (dt := dt) ?_
  split
  · exact .at_expiry (enterLocking_trainsStand _ _ _)
  · exact .refl _

theorem execClockStretchTimeout_keepsTrains (dt : Nat) (s : State) : CommandKeepsTrains s (execClockStretchTimeout dt s) := by
  refine .of_stand (dt := dt) ?_
  split
  · exact (transactionFails_trainsStand _ _ _).settle
  · exact .refl _

theorem execBusRecoveryEnd_keepsTrains (dt : Nat) (s : State) : CommandKeepsTrains s (execBusRecoveryEnd dt s) := by
  refine .of_stand (dt := dt) ?_
  split
  · exact updBus_trainsStand _ _
  · exact .refl _

theorem execGeneralCallEnd_keepsTrains (dt : Nat) (o : WriteOutcome) (s : State) :
    CommandKeepsTrains s (execGeneralCallEnd dt o s) := by
  refine .of_stand (dt := dt) ?_
  split
  · exact (callEnds_trainsStand _ _ _).settle
  · exact .refl _

theorem execPartWriteEnd_keepsTrains (dt : Nat) (o : WriteOutcome) (s : State) :
    CommandKeepsTrains s (execPartWriteEnd dt o s) := by
  refine .of_stand (dt := dt) ?_
  split
  · exact ((freeBus_trainsStand _).trans (writeDone_trainsStand _ _ _)).settle
  · exact (transactionFails_trainsStand _ _ _).settle
  · exact .refl _

theorem execProbeEnd_keepsTrains (dt : Nat) (o : WriteOutcome) (s : State) : CommandKeepsTrains s (execProbeEnd dt o s) := by
  refine .of_stand (dt := dt) ?_
  split
  · exact ((freeBus_trainsStand _).trans (probeDone_trainsStand _ _)).settle
  · exact (transactionFails_trainsStand _ _ _).settle
  · exact .refl _

theorem execReadBackEnd_keepsTrains (dt : Nat) (o : ReadOutcome) (s : State) :
    CommandKeepsTrains s (execReadBackEnd dt o s) := by
  refine .of_stand (dt := dt) ?_
  split
  · exact ((freeBus_trainsStand _).trans (readBackDone_trainsStand _ _ _)).settle
  · exact (transactionFails_trainsStand _ _ _).settle
  · exact .refl _

theorem execKeyPollEnd_keepsTrains (dt : Nat) (o : ReadOutcome) (s : State) : CommandKeepsTrains s (execKeyPollEnd dt o s) := by
  refine .of_stand (dt := dt) ?_
  split
  · exact ((freeBus_trainsStand _).trans (pollDone_trainsStand _ _ _)).settle
  · exact (transactionFails_trainsStand _ _ _).settle
  · exact .refl _

theorem execProveTimerExpiry_keepsTrains (dt : Nat) (m : Fin 24) (s : State) :
    CommandKeepsTrains s (execProveTimerExpiry dt m s) := by
  refine .of_stand (dt := dt) ?_
  split
  · exact moduleDue_trainsStand _ _ _ _
  · exact .refl _

theorem execPollTimerExpiry_keepsTrains (dt : Nat) (m : Fin 24) (s : State) :
    CommandKeepsTrains s (execPollTimerExpiry dt m s) := by
  refine .of_stand (dt := dt) ?_
  split
  · exact moduleDue_trainsStand _ _ _ _
  · exact .refl _

theorem execProbeTimerExpiry_keepsTrains (dt : Nat) (m : Fin 24) (s : State) :
    CommandKeepsTrains s (execProbeTimerExpiry dt m s) := by
  refine .of_stand (dt := dt) ?_
  split
  · exact moduleDue_trainsStand _ _ _ _
  · exact .refl _

theorem execSpeedHoldExpiry_keepsTrains (dt : Nat) (s : State) : CommandKeepsTrains s (execSpeedHoldExpiry dt s) := by
  refine .of_stand (dt := dt) ?_
  split
  · exact ((advanceTo_trainsStand _ _).trans (setText_trainsStand _ _)).trans (settlePanel_trainsStand _)
  · exact .refl _

theorem execWaitTimerExpiry_keepsTrains (dt : Nat) (i : Fin 8) (s : State) :
    CommandKeepsTrains s (execWaitTimerExpiry dt i s) := by
  refine .of_stand (dt := dt) ?_
  split
  · split
    · exact .at_expiry (.ite (fun _ => (meetWait_follows _ _).trainsStand) fun _ => (noteAbort_follows _ _ _).trainsStand)
    · exact .refl _
  · exact .refl _

theorem execHoldOffExpiry_keepsTrains (dt : Nat) (k : Fin 64) (s : State) :
    CommandKeepsTrains s (execHoldOffExpiry dt k s) := by
  refine .of_stand (dt := dt) ?_
  split
  · exact (advanceTo_trainsStand _ _).trans ((updKey_trainsStand _ k _).shown _)
  · exact .refl _

/-! ### Every command -/

theorem exec_keepsTrains (c : Instr) (s : State) : CommandKeepsTrains s (exec c s) := by
  cases c with
  | powerOn dt => exact .of_advance (powerOn_keepsTrains _ _)
  | defineBlock dt tag body => exact request_keepsTrains s dt tag body fun _ => takeDefine_keepsTrains _ _ _
  | definePoint dt tag body => exact request_keepsTrains s dt tag body fun d s => (takeDefinePoint_trainsStand d s).keeps
  | defineGroup dt tag body => exact request_keepsTrains s dt tag body fun _ => takeDefine_keepsTrains _ _ _
  | defineSignal dt tag body => exact request_keepsTrains s dt tag body fun _ => takeDefine_keepsTrains _ _ _
  | defineRoute dt tag body => exact request_keepsTrains s dt tag body fun _ => takeDefine_keepsTrains _ _ _
  | defineTurntable dt tag body => exact request_keepsTrains s dt tag body fun _ => takeDefine_keepsTrains _ _ _
  | defineRoad dt tag body => exact request_keepsTrains s dt tag body fun _ => takeDefine_keepsTrains _ _ _
  | defineTrap dt tag body => exact request_keepsTrains s dt tag body fun _ => takeDefine_keepsTrains _ _ _
  | defineModule dt tag body => exact request_keepsTrains s dt tag body fun _ => takeDefine_keepsTrains _ _ _
  | defineKey dt tag body => exact request_keepsTrains s dt tag body fun _ => takeDefine_keepsTrains _ _ _
  | defineLed dt tag body => exact request_keepsTrains s dt tag body fun _ => takeDefine_keepsTrains _ _ _
  | defineCue dt tag body => exact request_keepsTrains s dt tag body fun _ => takeDefine_keepsTrains _ _ _
  | defineStep dt tag body => exact request_keepsTrains s dt tag body fun d s => (takeDefineStep_trainsStand d s).keeps
  | erase dt tag body => exact request_keepsTrains s dt tag body fun d s => (takeErase_trainsStand d s).keeps
  | setParam dt tag body => exact request_keepsTrains s dt tag body fun d s => (takeSetParam_trainsStand d s).keeps
  | setCaption dt tag body => exact request_keepsTrains s dt tag _ fun d s => (takeSetCaption_trainsStand d s).keeps
  | startRun dt tag body => exact request_keepsTrains s dt tag body takeStartRun_keepsTrains
  | stopRun dt tag body => exact request_keepsTrains s dt tag body takeStopRun_keepsTrains
  | haltLayout dt tag body => exact request_keepsTrains s dt tag body fun d s => (takeHalt_trainsStand d s).keeps
  | resume dt tag body => exact request_keepsTrains s dt tag body fun d s => (takeResume_trainsStand d s).keeps
  | reset dt tag body => exact request_keepsTrains s dt tag body fun d s => (takeReset_trainsStand d s).keeps
  | resetTakesEffect dt => exact .of_advance (dt := dt) (.ite (fun _ => powerOn_keepsTrains _ _) fun _ => .refl _)
  | isolateFeed dt tag body => exact request_keepsTrains s dt tag body fun d s => (takeIsolateFeed_trainsStand d s).keeps
  | restoreFeed dt tag body => exact request_keepsTrains s dt tag body fun d s => (takeRestoreFeed_trainsStand d s).keeps
  | placeTrain dt tag body => exact request_keepsTrains s dt tag body takePlaceTrain_keepsTrains
  | removeTrain dt tag body => exact request_keepsTrains s dt tag body takeRemoveTrain_keepsTrains
  | throwPoint dt tag body => exact request_keepsTrains s dt tag body takeThrowPoint_keepsTrains
  | requestRoute dt tag body => exact request_keepsTrains s dt tag body takeRequestRoute_keepsTrains
  | cancelRoute dt tag body => exact request_keepsTrains s dt tag body takeCancelRoute_keepsTrains
  | forceRelease dt tag body => exact request_keepsTrains s dt tag body takeForceRelease_keepsTrains
  | turn dt tag body => exact request_keepsTrains s dt tag body takeTurn_keepsTrains
  | home dt tag body => exact request_keepsTrains s dt tag body takeHome_keepsTrains
  | stopTurntable dt tag body => exact request_keepsTrains s dt tag body fun d s => (takeStopTurntable_trainsStand d s).keeps
  | startShow dt tag body => exact request_keepsTrains s dt tag body takeStartShow_keepsTrains
  | stopShow dt tag body => exact request_keepsTrains s dt tag body takeStopShow_keepsTrains
  | setCue dt tag body => exact request_keepsTrains s dt tag body fun d s => (takeSetCue_trainsStand d s).keeps
  | clearCue dt tag body => exact request_keepsTrains s dt tag body fun d s => (takeClearCue_trainsStand d s).keeps
  | setText dt tag body => exact request_keepsTrains s dt tag _ fun d s => (takeSetText_trainsStand d s).keeps
  | query dt tag body => exact request_keepsTrains s dt tag body fun d s => (takeQuery_trainsStand d s).keeps
  | unknownKind dt tag kind => exact .of_stand ((updLink_trainsStand _ _).trans (examineUnknown_trainsStand _ _))
  | badCheckFrame dt => exact .of_stand (updLink_trainsStand _ _)
  | framingError dt => exact .of_stand (updLink_trainsStand _ _)
  | frameGapTimeout dt => exact execFrameGapTimeout_keepsTrains dt s
  | frameSent dt => exact .of_stand (updLink_trainsStand _ _)
  | sendReport dt => exact execSendReport_keepsTrains dt s
  | levelSample dt i v k => exact execLevelSample_keepsTrains dt i v k s
  | contactReading dt i v k => exact execContactReading_keepsTrains dt i v k s
  | channelStale dt b => exact execChannelStale_keepsTrains dt b s
  | contactStale dt p => exact execContactStale_keepsTrains dt p s
  | feedCoolExpiry dt b => exact execFeedCoolExpiry_keepsTrains dt b s
  | restartDue dt b => exact execRestartDue_keepsTrains dt b s
  | setupEnd dt g => exact execSetupEnd_keepsTrains dt g s
  | pulseTimeEnd dt g => exact execPulseTimeEnd_keepsTrains dt g s
  | feedbackWindowEnd dt g => exact execFeedbackWindowEnd_keepsTrains dt g s
  | confirmWaitEnd dt g => exact execConfirmWaitEnd_keepsTrains dt g s
  | recoveryEnd dt g => exact execRecoveryEnd_keepsTrains dt g s
  | stackTimeoutExpiry dt r => exact execStackTimeoutExpiry_keepsTrains dt r s
  | overlapTimerExpiry dt r => exact execOverlapTimerExpiry_keepsTrains dt r s
  | approachLockExpiry dt r => exact execApproachLockExpiry_keepsTrains dt r s
  | approachTimerExpiry dt g => exact execApproachTimerExpiry_keepsTrains dt g s
  | gateEdge dt g level => exact .of_advance (dt := dt) (takeEdge_keepsTrains _ g _).settle
  | quietTimerExpiry dt g => exact execQuietTimerExpiry_keepsTrains dt g s
  | trapTimeout dt t => exact execTrapTimeout_keepsTrains dt t s
  | boltOutContact dt closed => exact execBoltOutContact_keepsTrains dt closed s
  | boltInContact dt closed => exact execBoltInContact_keepsTrains dt closed s
  | boltTimerExpiry dt => exact execBoltTimerExpiry_keepsTrains dt s
  | deadtimeExpiry dt => exact execDeadtimeExpiry_keepsTrains dt s
  | stepComplete dt => exact execStepComplete_keepsTrains dt s
  | reversalEnd dt => exact execReversalEnd_keepsTrains dt s
  | creepStepComplete dt => exact execCreepStepComplete_keepsTrains dt s
  | homingStepComplete dt => exact execHomingStepComplete_keepsTrains dt s
  | indexEdge dt => exact execIndexEdge_keepsTrains dt s
  | settleTimeExpiry dt => exact execSettleTimeExpiry_keepsTrains dt s
  | relayDeadtimeExpiry dt => exact execRelayDeadtimeExpiry_keepsTrains dt s
  | startTransaction dt high => exact .of_stand (dt := dt) (startNext_trainsStand _ high).settle
  | clockStretchTimeout dt => exact execClockStretchTimeout_keepsTrains dt s
  | busRecoveryEnd dt => exact execBusRecoveryEnd_keepsTrains dt s
  | generalCallEnd dt o => exact execGeneralCallEnd_keepsTrains dt o s
  | partWriteEnd dt o => exact execPartWriteEnd_keepsTrains dt o s
  | probeEnd dt o => exact execProbeEnd_keepsTrains dt o s
  | readBackEnd dt o => exact execReadBackEnd_keepsTrains dt o s
  | keyPollEnd dt o => exact execKeyPollEnd_keepsTrains dt o s
  | proveTimerExpiry dt m => exact execProveTimerExpiry_keepsTrains dt m s
  | pollTimerExpiry dt m => exact execPollTimerExpiry_keepsTrains dt m s
  | probeTimerExpiry dt m => exact execProbeTimerExpiry_keepsTrains dt m s
  | speedHoldExpiry dt => exact execSpeedHoldExpiry_keepsTrains dt s
  | waitTimerExpiry dt i => exact execWaitTimerExpiry_keepsTrains dt i s
  | holdOffExpiry dt k => exact execHoldOffExpiry_keepsTrains dt k s
  | receivedByte dt b => exact .of_advance (takeByte_keepsTrains _ b)

theorem step_keepsTrains {s t : State} (h : step s = .next t) : KeepsTrains s t := by
  unfold step at h
  split at h
  · cases h
    exact .refl s
  · rename_i c rest _
    obtain ⟨u, hu, hk⟩ := exec_keepsTrains c { s with pending := rest }
    rw [hu] at h
    cases h
    exact (⟨rfl, rfl⟩ : TrainsStand s { s with pending := rest }).keeps.trans hk

/-- Settles O8: only the Train Register's own operations and the changes of mode touch a record or a flag, and each of them
replaces one record at a time (`TrainsAgree.putTrain`) or the flags (`TrainsAgree.putFlags`) within the agreement. -/
theorem stepKeepsTrainsSound : Obligations.StepKeepsTrainsSound := by
  unfold Obligations.StepKeepsTrainsSound
  exact fun s t hs h => trainsSound_iff.2 (step_keepsTrains h (trainsSound_iff.1 hs))

end Sys2Proof.Machine
end

section
/-! SUPPORT. PLACE_TRAIN and REMOVE_TRAIN (R61, R62): the slot each finds, and what it leaves of the calm part. -/

namespace Sys2Proof.Machine
open Sys2Proof.Claims

/-- A request that a block carries out and that ends its event: what it comes to is read from the calm part before that end. -/
theorem request_settled {α : Type} {s v w u : State} {dt : Nat} {tag : Byte} {take : α → State → State × Reply} {a : α} {c : Instr}
    {r : Reply} {marks : List Subject} (hs : s.hears tag) (hc : exec c s = s.request dt tag (.fields a) take)
    (hx : take a (s.frameLost dt) = settleReply (w, r)) (hr : ∀ x, r ≠ .refused x) (hcalm : w.calm = v.calm)
    (hrx : v.link.rx = .hunt) (he : w.work.examine = false ∨ w.queue = []) (hw : w.work.wake = none)
    (hu : (v.replied tag r).calm = u.calm) (hm : ∀ x ∈ marks, x ∈ w.link.reports) : s.comesTo c u marks := by
  have hreply : settleReply (w, r) = (w.settle, r) := by
    cases r with
    | refused x => exact absurd rfl (hr x)
    | _ => rfl
  refine ⟨_, hc.trans (request_heard s dt tag take a hs), ?_, fun x hx' => ?_⟩
  · rw [hx, hreply]
    exact (pushReply_calm_of tag r ((settle_calm w he hw).trans hcalm) hrx).trans hu
  · rw [hx, hreply, pushReply_reports]
    exact (settle_follows w).marks x (hm x hx')

/-! ## The slots -/

/-- The search over all indices finds the lowest of which a test holds. -/
theorem find?_indices_lowest {n : Nat} {f : Fin n → Bool} {t : Fin n} (ht : f t = true)
    (hlow : ∀ q : Fin n, q.val < t.val → f q ≠ true) : (indices n).find? f = some t := by
  cases hf : (indices n).find? f with
  | none => exact absurd ht (List.find?_eq_none.1 hf t (mem_indices t))
  | some q =>
    obtain ⟨hq, as, bs, hsplit, has⟩ := List.find?_eq_some_iff_append.1 hf
    have hp := indices_ascend n
    have hmem := mem_indices t
    rw [hsplit] at hp hmem
    rcases List.mem_append.1 hmem with h | h
    · have := has t h
      rw [ht] at this
      cases this
    · rcases List.mem_cons.1 h with rfl | h
      · rfl
      · exact absurd hq (hlow q (List.rel_of_pairwise_cons (List.pairwise_append.1 hp).2.1 h))

theorem freeSlot_eq_some {s : State} {t : Fin 24} (ht : tget s.trains t = .free)
    (hlow : ∀ q : Fin 24, q.val < t.val → tget s.trains q ≠ .free) : s.freeSlot = some t :=
  find?_indices_lowest (by simpa using ht) fun q hq => by simpa using hlow q hq

theorem freeSlot_eq_none {s : State} : s.freeSlot = none ↔ ∀ t, tget s.trains t ≠ .free := by
  simp [State.freeSlot, List.find?_eq_none]

/-- Where the records agree, the slot found for a number is the one that holds it. -/
theorem TrainsAgree.slotOf_eq_some {s : State} (h : TrainsAgree s) {n : Nat} {t : Fin 24}
    (ht : Train.number (tget s.trains t) = some n) : s.slotOf n = some t :=
  (find?_indices_eq_some fun p q hp hq => h.numbers p q n (by simpa using hp) (by simpa using hq)).2 (by simpa using ht)

/-! ## PLACE_TRAIN (R61) -/

/-- A request as PLACE_TRAIN takes it: in service, a number in range, a defined block and an end. -/
structure State.placeMeant (s : State) (d : PlaceReq) (n : Nat) (b : Fin 48) (e : Side) : Prop where
  service : s.mode ≠ .config
  number : inRange 1 9999 d.number = some n
  block : index? 48 d.block = some b
  leading : Sent.required d.leading = some e
  defined : (s.blockDef b).isSome = true

/-- Train `n` placed in slot `t` on block `b`, which is stray no more (R61). -/
def State.trainPlaced (s : State) (t : Fin 24) (n : Nat) (b : Fin 48) (e : Side) : State :=
  ((((s.putTrain t (.active n [⟨b, e⟩] none false)).updFlags b fun f => { f with stray := none }).mark (.train t)).mark
    (.block b)).settlePanel

theorem trainPlaced_marks (s : State) (t : Fin 24) (n : Nat) (b : Fin 48) (e : Side) :
    ∀ x ∈ [Subject.train t, .block b], x ∈ (s.trainPlaced t n b e).link.reports := by
  intro x hx
  refine (settlePanel_follows _).marks x ?_
  rcases List.mem_cons.1 hx with rfl | hx
  · exact (mark_follows _ _).marks _ (mem_mark_self _ _)
  · obtain rfl := List.mem_singleton.1 hx
    exact mem_mark_self _ _

section
variable {s : State} {d : PlaceReq} {n : Nat} {b : Fin 48} {e : Side}

theorem placeTrain_meant (h : s.placeMeant d n b e) : s.placeTrain d =
    if (s.slotOf n).isSome then s.refuse .duplicate
    else match s.freeSlot with
      | none => s.refuse .tableFull
      | some t =>
        if !s.occupied b || (s.holder b).isSome then s.refuse .occupied
        else (s.trainPlaced t n b e, .ack [BitVec.ofNat 8 t.val]) := by
  have hd : (s.blockDef b).isNone = false := by rw [Option.isNone_eq_false_iff]; exact h.defined
  unfold State.placeTrain
  rw [if_neg h.service, h.number, h.block, h.leading]
  dsimp only
  rw [hd, if_neg Bool.false_ne_true]
  rfl

theorem placeTrain_duplicate (h : s.placeMeant d n b e) {t : Fin 24} (ht : Train.number (tget s.trains t) = some n) :
    s.placeTrain d = s.refuse .duplicate := by
  rw [placeTrain_meant h, if_pos]
  rw [Option.isSome_iff_ne_none, ne_eq, slotOf_eq_none]
  exact fun hn => hn t ht

/-- With the number in no record, the first FREE slot decides. -/
theorem placeTrain_fresh (h : s.placeMeant d n b e) (hn : ∀ t, Train.number (tget s.trains t) ≠ some n) : s.placeTrain d =
    match s.freeSlot with
    | none => s.refuse .tableFull
    | some t =>
      if !s.occupied b || (s.holder b).isSome then s.refuse .occupied
      else (s.trainPlaced t n b e, .ack [BitVec.ofNat 8 t.val]) := by
  rw [placeTrain_meant h, slotOf_eq_none.2 hn]
  rfl

end

theorem placeTrain_badValue {s : State} {n k : Nat} {e : Sent Side} (hm : s.mode ≠ .config)
    (h : n < 1 ∨ 9999 < n ∨ 48 ≤ k ∨ ∀ y, e ≠ .value y) : s.placeTrain ⟨n, k, e⟩ = s.refuse .badValue := by
  unfold State.placeTrain
  rw [if_neg hm]
  split
  · rename_i m b y hn hb he
    have hrange : n = m ∧ 1 ≤ m ∧ m ≤ 9999 := inRange_eq_some.1 hn
    have hk : k = b.val := index?_eq_some.1 hb
    have hlt := b.isLt
    rcases h with h | h | h | h
    · omega
    · omega
    · omega
    · exact absurd (required_eq_some.1 he) (h y)
  · rfl

theorem placeTrain_notDefined {s : State} {n : Nat} {b : Fin 48} {y : Side} (hm : s.mode ≠ .config) (hn : 1 ≤ n ∧ n ≤ 9999)
    (hd : tget s.tables.blocks b = none) : s.placeTrain ⟨n, b.val, .value y⟩ = s.refuse .notDefined := by
  have hnone : (s.blockDef b).isNone = true := by rw [State.blockDef, hd]; rfl
  unfold State.placeTrain
  rw [if_neg hm, inRange_eq_some.2 ⟨rfl, hn⟩, index?_val]
  exact if_pos hnone

theorem placeTrain_fills : placeTrainFillsASlot := by
  intro s dt tag n k e hs c refused
  have refuses {r : Reason} (h : (s.frameLost dt).placeTrain ⟨n, k, e⟩ = (s.frameLost dt).refuse r) : refused r := by
    refine request_refused s dt tag _ _ hs r ?_
    rw [takePlaceTrain, h]
    rfl
  refine ⟨fun hm => refuses (if_pos hm), fun hm h => refuses (placeTrain_badValue hm h), ?_⟩
  rintro b y hm h1 h2 rfl rfl
  refine ⟨fun hd => refuses (placeTrain_notDefined hm ⟨h1, h2⟩ hd), fun hd => ?_⟩
  have meant : (s.frameLost dt).placeMeant ⟨n, b.val, .value y⟩ n b y :=
    ⟨hm, inRange_eq_some.2 ⟨rfl, h1, h2⟩, index?_val b, rfl, hd⟩
  refine ⟨fun t ht => refuses (placeTrain_duplicate meant ht), fun hfresh => ?_⟩
  have hplace := placeTrain_fresh meant hfresh
  refine ⟨fun hfull => refuses ?_, fun t ht hlow => ?_⟩
  · rw [hplace, (freeSlot_eq_none (s := s.frameLost dt)).2 hfull]
  · rw [freeSlot_eq_some (s := s.frameLost dt) ht hlow] at hplace
    refine ⟨fun h => refuses ?_, fun ho hq hw => ?_⟩
    · rw [hplace]
      refine if_pos ?_
      rw [Bool.or_eq_true, holder_isSome]
      exact h.imp_left fun ho : (s.frameLost dt).occupied b = false => by rw [ho]; rfl
    · have hholder : (s.frameLost dt).holder b = none := holder_eq_none.2 hq
      have hocc : (s.frameLost dt).occupied b = true := ho
      rw [hholder, hocc] at hplace
      refine request_settled (v := { s.frameLost dt with
          trains := tset s.trains t (.active n [⟨b, y⟩] none false)
          blockFlags := tset s.blockFlags b { tget s.blockFlags b with stray := none } }) hs rfl
        (congrArg settleReply hplace) (fun x hx => by cases hx) ((settlePanel_calmly _).1.trans rfl) rfl (.inl ?_) ?_ rfl
        (trainPlaced_marks _ t n b y)
      · exact congrArg Work.examine hw
      · exact congrArg Work.wake hw

/-! ## REMOVE_TRAIN (R62) -/

/-- With no route that holds elements, a block that becomes clear gives the Route Interlock nothing but an examination to make. -/
theorem routesTakeClear_still {s : State} (h : ∀ r, (tget s.routes r).holds = false) (b : Fin 48) :
    s.routesTakeClear b = s.callExamine := by
  unfold State.routesTakeClear
  rw [List.foldl_fixed' (fun r => ?_)]
  have hr := h r
  cases hx : tget s.routes r with
  | entered x y m => rw [hx] at hr; cases hr
  | _ => split <;> simp_all

theorem handClear_still {s : State} (h : ∀ r, (tget s.routes r).holds = false) (old : State) (l : List (Fin 48)) :
    (State.handClear old l s).calm = s.calm := by
  unfold State.handClear
  induction l generalizing s with
  | nil => rfl
  | cons b l ih =>
    rw [List.foldl_cons]
    split
    · rw [routesTakeClear_still h]
      exact ih (s := s.callExamine) h
    · exact ih h

/-- Dealing with the entries of a removed train changes the block flags alone, and marks each block. -/
theorem dropEntries_calm (l : List (Fin 48)) (s : State) : (l.foldl State.dropEntry s).calm =
    { s.calm with blockFlags := (l.foldl State.dropEntry s).blockFlags } ∧
      (∀ x ∈ s.link.reports, x ∈ (l.foldl State.dropEntry s).link.reports) ∧
      ∀ b ∈ l, .block b ∈ (l.foldl State.dropEntry s).link.reports := by
  induction l generalizing s with
  | nil => exact ⟨rfl, fun _ h => h, fun _ h => by cases h⟩
  | cons b l ih =>
    obtain ⟨hc, hk, hm⟩ := ih (s.dropEntry b)
    have hb : (s.dropEntry b).calm = { s.calm with blockFlags := (s.dropEntry b).blockFlags } := (settlePanel_calmly _).1
    have hstep : ∀ x ∈ s.link.reports, x ∈ (s.dropEntry b).link.reports := fun x hx =>
      (settlePanel_follows _).marks x ((mark_follows _ _).marks x hx)
    refine ⟨?_, fun x hx => hk x (hstep x hx), fun a ha => ?_⟩
    · rw [List.foldl_cons, hc, hb]
    · rcases List.mem_cons.1 ha with rfl | ha
      · exact hk _ ((settlePanel_follows _).marks _ (mem_mark_self _ _))
      · exact hm a ha

/-- The block flags once each block of a removed train's list is dealt with by its channel (R62). -/
def State.flagsFreed (s : State) (t : Fin 24) : Tab BlockFlags 48 := tgen 48 fun b =>
  if b ∈ s.listOf t then ⟨if (tget s.channels b).occupied then some .removed else (tget s.blockFlags b).stray, false⟩
  else tget s.blockFlags b

theorem freeTrain_calm {s : State} (h : ∀ r, (tget s.routes r).holds = false) (t : Fin 24) :
    (s.freeTrain t).calm = ({ s with trains := tset s.trains t .free, blockFlags := s.flagsFreed t } : State).calm ∧
      ∀ x ∈ Subject.train t :: (s.listOf t).map .block, x ∈ (s.freeTrain t).link.reports := by
  obtain ⟨-, -, hf⟩ := dropEntries_flags (s.listOf t) ((s.putTrain t .free).mark (.train t))
  obtain ⟨hc, hk, hm⟩ := dropEntries_calm (s.listOf t) ((s.putTrain t .free).mark (.train t))
  have hfree : s.freeTrain t = (State.handClear s (s.listOf t)
    ((s.listOf t).foldl State.dropEntry ((s.putTrain t .free).mark (.train t)))).callExamine := rfl
  generalize (s.listOf t).foldl State.dropEntry ((s.putTrain t .free).mark (.train t)) = u at hf hc hk hm hfree
  have hflags : u.blockFlags = s.flagsFreed t := tab_ext fun b => by rw [hf, State.flagsFreed, tget_tgen]; rfl
  have hroutes : ∀ r, (tget u.routes r).holds = false := by
    rw [show u.routes = s.routes from (congrArg State.routes hc :)]
    exact h
  rw [hfree]
  refine ⟨(handClear_still hroutes _ _).trans (hc.trans (by rw [hflags]; rfl)), fun x hx => ?_⟩
  refine (handClear_follows _ _ _).marks x ?_
  rcases List.mem_cons.1 hx with rfl | hx
  · exact hk _ (mem_mark_self _ _)
  · obtain ⟨b, hb, rfl⟩ := List.mem_map.1 hx
    exact hm b hb

theorem removeTrain_frees : removeTrainFreesTheRecord := by
  intro s dt tag n hs c refused
  have refuses {r : Reason} (h : (s.frameLost dt).removeTrain n = (s.frameLost dt).refuse r) : refused r := by
    refine request_refused s dt tag _ _ hs r ?_
    rw [takeRemoveTrain, h]
    rfl
  have inService (hm : s.mode ≠ .config) (h1 : 1 ≤ n) (h2 : n ≤ 9999) : (s.frameLost dt).removeTrain n =
      match s.slotOf n with
      | none => (s.frameLost dt).refuse .notDefined
      | some t => ((s.frameLost dt).freeTrain t, Reply.done) := by
    unfold State.removeTrain
    rw [if_neg (show (s.frameLost dt).mode ≠ .config from hm), inRange_eq_some.2 ⟨rfl, h1, h2⟩]
    rfl
  refine ⟨fun hm => refuses (if_pos hm), fun hm h => refuses ?_, fun hm h1 h2 hnone => refuses ?_,
    fun t hm h1 h2 hsound hstill ht => ?_⟩
  · have hr : inRange 1 9999 n = none := by
      rw [Option.eq_none_iff_forall_ne_some]
      intro m hm
      obtain ⟨rfl, hlo, hhi⟩ := inRange_eq_some.1 hm
      omega
    unfold State.removeTrain
    rw [if_neg (show (s.frameLost dt).mode ≠ .config from hm), hr]
  · rw [inService hm h1 h2, slotOf_eq_none.2 hnone]
  · obtain ⟨⟨hq, -, hw⟩, hfree⟩ := hstill
    have hx := inService hm h1 h2
    rw [(trainsSound_iff.1 hsound).slotOf_eq_some ht] at hx
    obtain ⟨hcalm, hmarks⟩ := freeTrain_calm (s := s.frameLost dt) hfree t
    exact request_settled hs rfl (congrArg settleReply hx) (fun x hx => by cases hx) hcalm rfl
      (.inr ((congrArg State.queue hcalm :).trans hq))
      ((congrArg (fun u : State => u.work.wake) hcalm :).trans (congrArg Work.wake hw)) rfl hmarks

/-- Settles O29: each check is one branch of the request, and what a request carried out comes to is read from the calm part
before the end of its event (`request_settled`). -/
theorem trainsArePlacedAndRemoved : Obligations.TrainsArePlacedAndRemoved := by
  unfold Obligations.TrainsArePlacedAndRemoved
  exact ⟨placeTrain_fills, removeTrain_frees⟩

end Sys2Proof.Machine
end

section
/-! SUPPORT. A sample that makes a block CLEAR (O30): what the Train Register finds, and what it makes of the train whose list names
the block. -/

namespace Sys2Proof.Machine
open Sys2Proof.Claims

/-! ## The sample -/

/-- An ordinary sample below the release level, with the dwell count filled, clears its channel (R30, R31). -/
theorem sample_clears {c : Channel} {d : BlockDef} {f : FeedState} {n at' : Nat} (ho : c.occupied = true) (hh : c.held = false)
    (hn : n < d.releaseLevel) (hload : ¬ (n = 255 ∧ f = .on)) (hdwell : d.dwellOff ≤ (if c.stale then 0 else c.count) + 1) :
    (c.sample d f n at').occupied = false := by
  have hc : (c.fresh at').count = if c.stale then 0 else c.count := rfl
  unfold Channel.sample
  dsimp only
  rw [if_neg hload, if_neg (by rw [show (c.fresh at').held = c.held from rfl, hh]; decide), Channel.ordinary,
    if_pos (show (c.fresh at').occupied = true from ho), if_pos hn, hc, if_pos hdwell]

/-- A sample that changes its channel is taken as `State.sensed` says and the change handed on. -/
theorem takeSample_changes {s : State} {b : Fin 48} {d : BlockDef} {n : Nat}
    (hne : (s.channelTakes b d n).occupied ≠ (tget s.channels b).occupied) :
    s.takeSample b d n = State.occupancyChanged s b (s.sensed b d n) := by
  unfold State.takeSample
  extract_lets old c c' s1 s2 s3 s4
  have hne' : ¬ c'.occupied = c.occupied := hne
  have h2 : s2 = s1.settlePanel := if_neg hne'
  have h3 : s3 = s2.mark (.block b) := if_pos (.inl hne')
  have h4 : s4 = s.sensed b d n := by
    simp only [s4, h3, h2]
    rfl
  rw [if_neg hne', h4]

theorem sampled_sensed (s : State) (b : Fin 48) (d : BlockDef) (n : Nat) :
    Sensed b (s.sampled b d n) (s.sensed b d n) ∧ .block b ∈ (s.sensed b d n).link.reports := by
  have h := (settlePanel_sensed b (s.sampled b d n)).trans (mark_sensed b _ (.block b))
  have hm : .block b ∈ ((s.sampled b d n).settlePanel.mark (.block b)).link.reports := mem_mark_self _ _
  unfold State.sensed
  dsimp only
  split
  · have h' := takeOverload_sensed b ((s.sampled b d n).settlePanel.mark (.block b)) d.kill
    exact ⟨h.trans h', h'.marks _ hm⟩
  · exact ⟨h, hm⟩

/-- What the Train Register finds as block `b` becomes CLEAR: the records and flags of `s`. -/
structure FindsClear (b : Fin 48) (s w : State) : Prop where
  clock : w.clock = s.clock
  trains : w.trains = s.trains
  blockFlags : w.blockFlags = s.blockFlags
  clear : w.occupied b = false
  mark : .block b ∈ w.link.reports

/-- A sample that makes the block CLEAR: the Train Register takes the change from what it finds, and what comes after it follows. -/
theorem sample_registersClear {s : State} {dt : Nat} {b : Fin 48} {d : BlockDef} {value : Byte} (hm : s.mode ≠ .config)
    (hd : tget s.tables.blocks b = some d) (h : s.becomesClear b d value) :
    ∃ w u, exec (sampleOf dt b value) s = .next u ∧ FindsClear b (s.later dt) w ∧ Follows (w.registerCleared b) u := by
  obtain ⟨ho, hh, hlevel, hload, hdwell⟩ := h
  have hc : ((s.later dt).channelTakes b d value.toNat).occupied = false :=
    sample_clears ho hh hlevel (fun h => hload ⟨BitVec.eq_of_toNat_eq h.1, h.2⟩) hdwell
  have hx := exec_sampleOf (dt := dt) (value := value) hm hd
  rw [takeSample_changes (s := s.later dt) (by rw [hc]; exact fun h => Bool.noConfusion (h.trans ho))] at hx
  obtain ⟨hs, hmark⟩ := sampled_sensed (s.later dt) b d value.toNat
  generalize (s.later dt).sensed b d value.toNat = w at hx hs hmark
  have hclear : w.occupied b = false :=
    hs.occupied.trans ((congrArg Channel.occupied (tget_tupd_self _ _ _)).trans hc)
  refine ⟨w, _, hx, ⟨hs.clock, hs.trains, hs.blockFlags, hclear, hmark⟩, ?_⟩
  unfold State.occupancyChanged
  dsimp only
  rw [if_neg (by rw [hclear]; decide)]
  exact (((handClear_follows _ _ _).trans (approachTakes_follows _ _)).trans (setCuesFor_follows _ _)).trans (settle_follows _)

/-- What follows an event leaves whether a channel reads OCCUPIED. -/
theorem Follows.occupied {s t : State} (h : Follows s t) (b : Fin 48) : t.occupied b = s.occupied b := by
  rcases h.channel b with hc | ⟨-, hc⟩ <;> rw [State.occupied, hc] <;> rfl

section
variable {b : Fin 48} {s w u : State} {dt : Nat}

theorem FindsClear.marked (h : FindsClear b s w) (hu : Follows (w.registerCleared b) u) : .block b ∈ u.link.reports :=
  hu.marks _ ((registerCleared_registers w b).marks _ h.mark)

theorem FindsClear.stays (h : FindsClear b s w) (hu : Follows (w.registerCleared b) u) : u.occupied b = false := by
  rw [hu.occupied, State.occupied, (registerCleared_registers w b).channels]
  exact h.clear

theorem FindsClear.agree (h : FindsClear b (s.later dt) w) (hs : TrainsAgree s) : TrainsAgree w :=
  (⟨h.trains, h.blockFlags⟩ : TrainsStand s w).agree hs

end

/-- A block that reads CLEAR, is in no list and is not stray, is clear (R47). -/
theorem isClear_of {s : State} {b : Fin 48} (ho : s.occupied b = false) (hl : ∀ t, b ∉ s.listOf t)
    (hs : (tget s.blockFlags b).stray = none) : s.isClear b = true := by
  rw [State.isClear, ho, holder_eq_none.2 hl, hs]
  rfl

/-- A block in a list is not clear (R47). -/
theorem not_isClear_of_mem {s : State} {b : Fin 48} {t : Fin 24} (h : b ∈ s.listOf t) : s.isClear b = false := by
  obtain ⟨q, hq⟩ := Option.isSome_iff_exists.1 (holder_isSome.2 ⟨t, h⟩)
  simp [State.isClear, hq]

/-! ## What the Train Register makes of it -/

section
variable {s : State} {b : Fin 48} {t : Fin 24} {n : Nat} {speed : Option Nat} {overlong : Bool} {y : Side}

/-- The only block of a list clears (R58). -/
theorem registerCleared_last (h : TrainsAgree s) (ht : tget s.trains t = .active n [⟨b, y⟩] speed overlong) :
    s.registerCleared b = ((s.putTrain t (.lost n ⟨b, y, s.ms⟩ speed overlong)).mark (.train t)).mark (.block b) := by
  have hholder : s.holder b = some t := h.holder_eq_some.2 (by rw [listOf_active ht]; exact List.mem_singleton_self b)
  unfold State.registerCleared
  rw [hholder]
  dsimp only
  rw [ht]

/-- One of two or more blocks of a list clears (R57). -/
theorem registerCleared_leaves {l : List TrainBlock} (h : TrainsAgree s) (ht : tget s.trains t = .active n l speed overlong)
    (hb : b ∈ l.map (·.block)) (hl : 2 ≤ l.length) : s.registerCleared b = s.blockLeaves t n l speed overlong b := by
  have hholder : s.holder b = some t := h.holder_eq_some.2 (by rw [listOf_active ht]; exact hb)
  unfold State.registerCleared
  rw [hholder]
  dsimp only
  rw [ht]
  match l, hl with
  | _ :: _ :: _, _ => rfl

/-- A block in no list clears (R59). -/
theorem registerCleared_unlisted (h : ∀ t, b ∉ s.listOf t) : (s.registerCleared b).trains = s.trains ∧
    (s.registerCleared b).blockFlags = tset s.blockFlags b { tget s.blockFlags b with stray := none } := by
  unfold State.registerCleared
  rw [holder_eq_none.2 h]
  dsimp only
  split
  · exact ⟨rfl, rfl⟩
  · rename_i hs
    have hn : (tget s.blockFlags b).stray = none := by simpa using hs
    refine ⟨rfl, ?_⟩
    rw [← hn, tset_tget]

/-- The bridged entries at the front of a list, up to the first that is not. -/
theorem exposed_append {gone rest : List TrainBlock} {z : TrainBlock} (hg : s.allBridged gone) (hz : s.bridged z.block = false) :
    s.exposed (gone ++ z :: rest) = (gone.map (·.block), z :: rest) := by
  have hg : ∀ x ∈ gone, s.bridged x.block = true := hg
  rw [exposed_eq, List.takeWhile_append_of_pos hg, List.dropWhile_append_of_pos hg, List.takeWhile_cons_of_neg (by rw [hz]; decide),
    List.dropWhile_cons_of_neg (by rw [hz]; decide), List.append_nil]

/-- The block flags with those of some blocks bridged no more. -/
def State.flagsUnbridged (s : State) (l : List (Fin 48)) : Tab BlockFlags 48 := tgen 48 fun a =>
  if a ∈ l then { tget s.blockFlags a with bridged := false } else tget s.blockFlags a

/-- Entries that leave a list, the first of which is not bridged, and the list that is left. -/
theorem leaveLists_eqs {gone : List (Fin 48)} (hb : s.bridged b = false) (x : Train) :
    (((b :: gone).foldl State.leaveList s).putTrain t x).trains = tset s.trains t x ∧
      (((b :: gone).foldl State.leaveList s).putTrain t x).blockFlags = s.flagsUnbridged gone := by
  obtain ⟨htr, hf⟩ := leaveLists_flags (b :: gone) s
  refine ⟨?_, tab_ext fun a => ?_⟩
  · rw [State.putTrain_trains, htr]
  · rw [State.putTrain_blockFlags, hf, State.flagsUnbridged, tget_tgen]
    by_cases ha : a ∈ gone
    · rw [if_pos ha, if_pos (List.mem_cons_of_mem b ha)]
    · rw [if_neg ha]
      split
      · rename_i hm
        obtain rfl := (List.mem_cons.1 hm).resolve_right ha
        rw [← hb]
        rfl
      · rfl

theorem blockLeaves_head {l gone rest : List TrainBlock} {z : TrainBlock} (hl : l = ⟨b, y⟩ :: (gone ++ z :: rest))
    (hb : s.bridged b = false) (hg : s.allBridged gone) (hz : s.bridged z.block = false) :
    ∃ v : State, s.blockLeaves t n l speed overlong b = v.mark (.train t) ∧
      v.trains = tset s.trains t (.active n (z :: rest) speed overlong) ∧ v.blockFlags = s.flagsUnbridged (gone.map (·.block)) := by
  obtain ⟨h1, h2⟩ := leaveLists_eqs (t := t) (gone := gone.map (·.block)) hb (.active n (z :: rest) speed overlong)
  refine ⟨_, ?_, h1, h2⟩
  unfold State.blockLeaves
  rw [hl, if_pos (by rfl), List.tail_cons, exposed_append hg hz]

theorem blockLeaves_tail {l gone rest : List TrainBlock} {z : TrainBlock} (hl : l = rest ++ z :: gone ++ [⟨b, y⟩])
    (hb : s.bridged b = false) (hg : s.allBridged gone) (hz : s.bridged z.block = false) (hnd : (l.map (·.block)).Nodup) :
    ∃ v : State, s.blockLeaves t n l speed overlong b = v.mark (.train t) ∧
      v.trains = tset s.trains t (.active n (rest ++ [z]) speed overlong) ∧
      v.blockFlags = s.flagsUnbridged (gone.map (·.block)) := by
  obtain ⟨h1, h2⟩ := leaveLists_eqs (t := t) (gone := gone.reverse.map (·.block)) hb (.active n (rest ++ [z]) speed overlong)
  have hflags : s.flagsUnbridged (gone.reverse.map (·.block)) = s.flagsUnbridged (gone.map (·.block)) := by
    simp only [State.flagsUnbridged, List.map_reverse, List.mem_reverse]
  refine ⟨_, ?_, h1, h2.trans hflags⟩
  have hfront : ¬ l.head?.map (·.block) = some b := by
    intro h
    rw [hl] at h hnd
    rw [← List.head?_map, List.map_append, List.head?_append_of_ne_nil _ (by simp)] at h
    rw [List.map_append, List.nodup_append] at hnd
    exact hnd.2.2 b (List.mem_of_mem_head? h) b (by simp) rfl
  have hrev : l.reverse.tail = gone.reverse ++ z :: rest.reverse := by simp [hl]
  unfold State.blockLeaves
  rw [if_neg hfront, if_pos (by rw [hl, List.getLast?_concat]; rfl), hrev,
    exposed_append (fun x hx => hg x (List.mem_reverse.1 hx)) hz]
  simp

theorem blockLeaves_middle {l before after : List TrainBlock} (hl : l = before ++ ⟨b, y⟩ :: after) (hbefore : before ≠ [])
    (hafter : after ≠ []) (hnd : (l.map (·.block)).Nodup) : s.blockLeaves t n l speed overlong b =
      (s.updFlags b fun f => { f with bridged := true }).mark (.block b) := by
  subst hl
  rw [List.map_append, List.map_cons, List.nodup_append, List.nodup_cons] at hnd
  obtain ⟨-, ⟨hb, -⟩, hapart⟩ := hnd
  unfold State.blockLeaves
  rw [if_neg, if_neg]
  · rw [List.getLast?_append_of_ne_nil _ (List.cons_ne_nil _ _), List.getLast?_cons_of_ne_nil hafter, ← List.getLast?_map]
    exact fun h => hb (List.mem_of_getLast? h)
  · rw [List.head?_append_of_ne_nil _ hbefore, ← List.head?_map]
    exact fun h => hapart b (List.mem_of_mem_head? h) b List.mem_cons_self rfl

end

theorem lastBlockClears_holds : lastBlockClears := by
  intro s dt b d value t n front speed overlong hm hsound hd ho hh hlevel hload hdwell ht
  obtain ⟨w, u, hx, hw, hu⟩ := sample_registersClear (dt := dt) hm hd ⟨ho, hh, hlevel, hload, hdwell⟩
  have hs : TrainsAgree s := trainsSound_iff.1 hsound
  have hms : w.ms = (s.later dt).ms := congrArg (fun c : Clock => BitVec.ofNat 48 (c.us / 1000)) hw.clock
  have hocc := hw.stays hu
  have hmark := hw.marked hu
  rw [registerCleared_last (hw.agree hs) (by rw [hw.trains]; exact ht), hms] at hu
  have htrains : u.trains = tset s.trains t (.lost n ⟨b, front, (s.later dt).ms⟩ speed overlong) := by
    rw [hu.trains, State.mark_trains, State.mark_trains, State.putTrain_trains, hw.trains]
    rfl
  have hflags : u.blockFlags = s.blockFlags := hu.blockFlags.trans hw.blockFlags
  have hbt : b ∈ s.listOf t := by rw [listOf_active ht]; exact List.mem_singleton_self b
  have hlist : ∀ q, b ∉ u.listOf q := fun q hq => by
    rw [State.listOf, htrains, tget_tset] at hq
    split at hq
    · cases hq
    · exact hs.apart t q ‹_› b hbt hq
  have hstray : (tget u.blockFlags b).stray = none := by
    rw [hflags, ← Option.not_isSome_iff_eq_none]
    exact fun h => hs.stray b h t hbt
  exact ⟨u, hx, htrains, hflags, holder_eq_none.2 hlist, isClear_of hocc hlist hstray,
    hu.marks _ ((mark_follows _ _).marks _ (mem_mark_self _ _)), hmark⟩

theorem blockLeavesItsTrain_holds : blockLeavesItsTrain := by
  intro s dt b d value hm hsound hd hc unbridged
  obtain ⟨w, u, hx, hw, hu⟩ := sample_registersClear (dt := dt) hm hd hc
  have hs : TrainsAgree s := trainsSound_iff.1 hsound
  have htrains : w.trains = s.trains := hw.trains
  have hflags : w.blockFlags = s.blockFlags := hw.blockFlags
  have hbridged : w.bridged = s.bridged := funext fun a => by simp only [State.bridged, hflags]
  have hall (l : List TrainBlock) (h : s.allBridged l) : w.allBridged l := by
    simp only [State.allBridged, hflags]
    exact h
  have hunbridged (l : List TrainBlock) : w.flagsUnbridged (l.map (·.block)) = unbridged l := by
    simp only [State.flagsUnbridged, hflags, unbridged]
  have hocc := hw.stays hu
  have hmark := hw.marked hu
  refine ⟨fun t n l speed overlong y ht => ?_, fun hb => ?_⟩
  · obtain ⟨-, -, hnd, hhead, hlast⟩ := hs.fits t n l speed overlong ht
    have hleaves (hb : b ∈ l.map (·.block)) (hl : 2 ≤ l.length) := registerCleared_leaves (hw.agree hs) (htrains ▸ ht) hb hl
    have leaves {v : State} {l' : List TrainBlock} {gone : List TrainBlock} (hv : w.registerCleared b = v.mark (.train t))
        (h1 : v.trains = tset w.trains t (.active n l' speed overlong)) (h2 : v.blockFlags = w.flagsUnbridged (gone.map (·.block))) :
        ∃ u, exec (sampleOf dt b value) s = .next u ∧ u.trains = tset s.trains t (.active n l' speed overlong) ∧
          u.blockFlags = unbridged gone ∧ .train t ∈ u.link.reports ∧ .block b ∈ u.link.reports := by
      rw [hv] at hu
      exact ⟨u, hx, hu.trains.trans (h1.trans (by rw [htrains])), hu.blockFlags.trans (h2.trans (hunbridged gone)),
        hu.marks _ (mem_mark_self _ _), hmark⟩
    refine ⟨fun gone z rest hl hg hz => ?_, fun rest z gone hl hg hz => ?_, fun before after hl hbefore hafter => ?_⟩
    · obtain ⟨v, hv, h1, h2⟩ := blockLeaves_head (t := t) (n := n) (speed := speed) (overlong := overlong) hl
        (by rw [hbridged]; exact hhead _ (by rw [hl]; rfl)) (hall gone hg) (by rw [hbridged]; exact hz)
      exact leaves ((hleaves (by simp [hl]) (by simp only [hl, List.length_append, List.length_cons]; omega)).trans hv) h1 h2
    · obtain ⟨v, hv, h1, h2⟩ := blockLeaves_tail (t := t) (n := n) (speed := speed) (overlong := overlong) hl
        (by rw [hbridged]; exact hlast _ (by rw [hl, List.getLast?_concat])) (hall gone hg) (by rw [hbridged]; exact hz) hnd
      exact leaves ((hleaves (by simp [hl]) (by simp only [hl, List.length_append, List.length_cons]; omega)).trans hv) h1 h2
    · have hlen : 2 ≤ l.length := by
        have := List.length_pos_of_ne_nil hbefore
        have := List.length_pos_of_ne_nil hafter
        simp only [hl, List.length_append, List.length_cons]
        omega
      have hbt : b ∈ s.listOf t := by rw [listOf_active ht]; simp [hl]
      rw [hleaves (by simp [hl]) hlen, blockLeaves_middle hl hbefore hafter hnd] at hu
      have hu1 : u.trains = s.trains := hu.trains.trans htrains
      refine ⟨u, hx, hu1, hu.blockFlags.trans ?_, hmark, not_isClear_of_mem (t := t) (by rw [listOf_congr hu1]; exact hbt)⟩
      rw [← hflags]
      rfl
  · obtain ⟨h1, h2⟩ := registerCleared_unlisted (s := w) (b := b) (by rw [listOf_congr htrains]; exact hb)
    have hu1 : u.trains = s.trains := hu.trains.trans (h1.trans htrains)
    have hu2 : u.blockFlags = tset s.blockFlags b { tget s.blockFlags b with stray := none } := by
      rw [hu.blockFlags, h2, hflags]
    exact ⟨u, hx, hu1, hu2, hmark,
      isClear_of hocc (by rw [listOf_congr hu1]; exact hb) (by rw [hu2, tget_tset_self])⟩

/-- Settles O30: what the Train Register makes of a block that becomes CLEAR stands to the end of the event, since all that comes
after it follows (`sample_registersClear`). -/
theorem singleBlockClearsAndTrainIsLost : Obligations.SingleBlockClearsAndTrainIsLost := by
  unfold Obligations.SingleBlockClearsAndTrainIsLost
  exact ⟨lastBlockClears_holds, blockLeavesItsTrain_holds⟩

end Sys2Proof.Machine
end

section
/-! SUPPORT. The takeable test (R89, R90) in the terms of the claims, condition by condition, and a request that is queued (R87). -/

namespace Sys2Proof.Machine
open Sys2Proof.Claims

/-! ## The conditions of R89 -/

theorem lie_ne_iff {k l : Lie} : k ≠ l ↔ k = Lie.other l := by cases k <;> cases l <;> decide

/-- No other route that holds elements has the entrance signal of `d` (R89, condition 1). -/
theorem entranceFree_iff {s : State} {r : Fin 64} {d : RouteDef} : s.entranceFree r d = true ↔
    ∀ q x, q ≠ r → tget s.tables.routes q = some x → (tget s.routes q).holds = true → x.entrance ≠ d.entrance := by
  unfold State.entranceFree State.routeDef
  rw [List.all_eq_true]
  constructor
  · intro h q x hq hx hh he
    have := h q (mem_indices q)
    simp [hq, hh, hx, he] at this
  · intro h q _
    by_cases hq : q = r
    · simp [hq]
    · cases hh : (tget s.routes q).holds with
      | false => simp
      | true =>
        cases hx : tget s.tables.routes q with
        | none => simp
        | some x => simp [h q x hq hx hh]

/-- Each path and overlap block has no reserver and is clear (R89, condition 2). -/
theorem blocksFree_iff {s : State} {d : RouteDef} :
    d.blocks.all (fun b => (tget s.reservers b).isNone && s.isClear b) = true ↔
      ∀ b ∈ d.path ++ d.overlap, tget s.reservers b = none ∧ s.standsClear b := by
  simp only [RouteDef.blocks, List.all_eq_true, Bool.and_eq_true, Option.isNone_iff_eq_none, isClear_iff]

/-- Each route that locks the point requires the same lie (R89, condition 4). -/
theorem lockAgrees_iff {s : State} {p : Fin 64} {l : Lie} :
    s.lockAgrees p l = true ↔ (tget s.points p).locks = 0 ∨ ∀ q k, s.keepsPoint q p k → k = l := by
  unfold State.lockAgrees
  rw [Bool.or_eq_true, beq_iff_eq]
  refine or_congr Iff.rfl ?_
  simp only [List.all_eq_true, Bool.or_eq_true, bne_iff_ne, beq_iff_eq, ← mem_lockedBy]
  constructor
  · intro h q k hk
    exact (h q (mem_indices q) _ hk).resolve_left fun hp => hp rfl
  · rintro h q - ⟨p', k⟩ hx
    by_cases hp : p' = p
    · subst hp
      exact .inr (h q k hx)
    · exact .inl hp

/-- The leg blocks of a point are those its three links name (R78). -/
theorem mem_legBlocks {d : PointDef} {b : Fin 48} : b ∈ d.legBlocks ↔ ∃ g y, d.link g = .blockEnd b y := by
  unfold PointDef.legBlocks
  rw [List.mem_filterMap]
  constructor
  · rintro ⟨k, hk, h⟩
    obtain ⟨y, rfl⟩ : ∃ y, k = .blockEnd b y := by
      cases k with
      | blockEnd a y => exact ⟨y, by rw [Option.some.inj h]⟩
      | _ => cases h
    rcases List.mem_cons.1 hk with hk | hk
    · exact ⟨.toe, y, hk.symm⟩
    · rcases List.mem_cons.1 hk with hk | hk
      · exact ⟨.normal, y, hk.symm⟩
      · exact ⟨.reverse, y, (List.mem_singleton.1 hk).symm⟩
  · rintro ⟨g, y, h⟩
    refine ⟨d.link g, ?_, by rw [h]⟩
    cases g <;> simp [PointDef.link]

/-- Every leg block of a point is clear, which holds of a point that is not defined (R79, R89). -/
theorem legsClear_iff {s : State} {p : Fin 64} : s.legsClear p = true ↔
    ∀ x g b y, tget s.tables.points p = some x → x.link g = .blockEnd b y → s.standsClear b := by
  unfold State.legsClear State.pointDef
  cases tget s.tables.points p with
  | none => simp
  | some d =>
    simp only [List.all_eq_true, isClear_iff, mem_legBlocks, Option.some.injEq]
    constructor
    · rintro h x g b y rfl hg
      exact h b ⟨g, y, hg⟩
    · rintro h b ⟨g, y, hg⟩
      exact h d g b y rfl hg

/-- A point must change lie where it does not lie so, or is to lie otherwise (R89). -/
theorem mustChange_iff {s : State} {p : Fin 64} {l : Lie} : s.mustChange p l = true ↔
    (tget s.points p).lie ≠ some l ∨ ∃ k, k ≠ l ∧ (s.movingTo p k ∨ s.waitsFor p k) := by
  unfold State.mustChange
  simp only [Bool.or_eq_true, bne_iff_ne, beq_iff_eq, movingTarget_eq_some, queuedTarget_eq_some, lie_ne_iff,
    exists_eq_left, or_assoc]

/-- Conditions 3 to 6 of R89 for one point. -/
theorem pointTakeable_iff {s : State} {p : Fin 64} {l : Lie} : s.pointTakeable p l = true ↔ s.pointAllows p l := by
  have hmoving : s.movingTarget p ≠ some (Lie.other l) ↔ ∀ k, s.movingTo p k → k = l := by
    rw [ne_eq, movingTarget_eq_some]
    constructor
    · intro h k hk
      by_contra hne
      rw [lie_ne_iff.1 hne] at hk
      exact h hk
    · exact fun h hk => lie_ne_iff.2 rfl (h _ hk)
  unfold State.pointTakeable State.pointAllows
  rw [← mustChange_iff, ← legsClear_iff, ← lockAgrees_iff, ← hmoving]
  cases s.mustChange p l <;> simp [and_assoc]

/-- The deck block has another route over it (R143). -/
theorem deckHeldByRoute_eq_false {s : State} {b : Fin 48} {r : Fin 64} : s.deckHeldByRoute b (.route r) = false ↔
    ∀ a d, a ≠ r → tget s.tables.routes a = some d → (tget s.routes a).holds = true → b ∉ d.path := by
  unfold State.deckHeldByRoute State.routeDef
  rw [List.any_eq_false]
  constructor
  · intro h a d ha hd hh hb
    have hne : (TurnOrigin.route r == .route a) = false := by simpa using Ne.symm ha
    exact h a (mem_indices a) (by rw [hh, hne, hd]; simpa using hb)
  · intro h a _ hx
    cases hd : tget s.tables.routes a with
    | none => simp [hd] at hx
    | some d =>
      simp only [hd, Bool.and_eq_true, Bool.not_eq_true', beq_eq_false_iff_ne, ne_eq, TurnOrigin.route.injEq,
        List.contains_eq_mem, decide_eq_true_eq] at hx
      obtain ⟨⟨hh, hr⟩, hb⟩ := hx
      exact h a d (Ne.symm hr) hd hh hb

/-- The drive takes a TURN in RUN from IDLE and STOPPED, with no other route over the deck block (R90). -/
theorem wouldTurn_iff {s : State} {r : Fin 64} {t : TurntableDef} (ht : s.tables.turntable = some t) : s.wouldTurn r = true ↔
    s.mode = .run ∧ (s.deck.state = .idle ∨ s.deck.state = .stopped) ∧
      ∀ a d, a ≠ r → tget s.tables.routes a = some d → (tget s.routes a).holds = true → t.deckBlock ∉ d.path := by
  unfold State.wouldTurn
  rw [ht, ← deckHeldByRoute_eq_false]
  dsimp only
  cases s.deck.state <;> simp [DeckState.busy]

/-- The turntable condition of a route that has a requirement (R90). -/
theorem deckTakeable_iff {s : State} {r : Fin 64} {d : RouteDef} :
    s.deckTakeable r d = true ↔ ∀ q, d.turntable = some q → s.deckAllows r q := by
  unfold State.deckTakeable State.deckAllows State.deckBlock
  cases d.turntable with
  | none => simp
  | some q =>
    cases ht : s.tables.turntable with
    | none => simp
    | some t =>
      have hat : s.deck.at' q = true ↔ s.deck.state = .idle ∧ s.deck.align = some q ∧ s.deck.locked = true := by
        rw [Deck.at', beq_iff_eq, joined_eq_some]
        tauto
      simp [wouldTurn_iff ht, hat]

theorem takeableTest_holds : takeableTest := by
  intro s r
  unfold State.takeable State.routeDef
  refine ⟨fun h => by rw [h], fun d hd => ?_⟩
  have hlocks : d.locks.all (fun x => s.pointTakeable x.1 x.2) = true ↔
      (∀ x ∈ d.points, s.pointAllows x.point x.lie) ∧ ∀ x ∈ d.flank, s.pointAllows x.point x.lie := by
    simp [RouteDef.locks, pointTakeable_iff]
  rw [hd]
  simp only [Bool.and_eq_true, entranceFree_iff, blocksFree_iff, deckTakeable_iff, hlocks, and_assoc]

/-- The takeable test reads the mode, the tables, the routes with their reservers and locks, the points and groups, the channels,
the trains, the block flags and the deck. -/
theorem takeable_congr {s t : State} (hm : t.mode = s.mode) (ht : t.tables = s.tables) (hr : t.routes = s.routes)
    (hv : t.reservers = s.reservers) (hp : t.points = s.points) (hg : t.groups = s.groups) (hc : t.channels = s.channels)
    (htr : t.trains = s.trains) (hf : t.blockFlags = s.blockFlags) (hd : t.deck = s.deck) : t.takeable = s.takeable := by
  cases s; cases t
  cases hm; cases ht; cases hr; cases hv; cases hp; cases hg; cases hc; cases htr; cases hf; cases hd
  rfl

/-! ## REQUEST_ROUTE (R87) -/

/-- A FREE route that becomes QUEUED is marked and shown; no signal, cue or waiting run takes the change (R84, R107). -/
theorem setRoute_queued {s : State} {r : Fin 64} {x : FreeReason} (h : tget s.routes r = .free x) (c : RouteClass) (m : MsCount) :
    s.setRoute r (.queued c m) = ((s.putRoute r (.queued c m)).mark (.route r)).settlePanel := by
  have hnote (u : State) : u.noteRoute r (.queued c m) = u := by
    unfold State.noteRoute
    split
    · split
      · split <;> simp_all
      · rfl
    · rfl
  unfold State.setRoute
  rw [h]
  dsimp only
  rw [hnote]
  split
  · rfl
  · rfl

/-- Route `r` QUEUED by the host at the tail of the request queue, as an examination finds it (R87). -/
def State.routeWaits (s : State) (r : Fin 64) : State :=
  { ((s.putRoute r (.queued .host s.ms)).mark (.route r)).settlePanel with queue := s.queue ++ [r] }

theorem routeWaits_calm (s : State) (r : Fin 64) : (s.routeWaits r).calm =
    ({ s with routes := tset s.routes r (.queued .host s.ms), queue := s.queue ++ [r] } : State).calm := by
  have h := (settlePanel_calmly ((s.putRoute r (.queued .host s.ms)).mark (.route r))).1
  exact congrArg (fun t : State => ({ t with queue := s.queue ++ [r] } : State)) h

theorem queueRoute_host {s : State} {r : Fin 64} {d : RouteDef} {x : FreeReason} (h : tget s.routes r = .free x)
    (hq : s.queue.length < 16) : s.queueRoute .host r d = ((s.routeWaits r).examineQueue.settleSignals, .accepted) := by
  have hfree : (!(tget s.routes r).isFree) = false := by rw [h]; rfl
  unfold State.queueRoute
  rw [hfree, if_neg Bool.false_ne_true, if_neg (show ¬ Config.queueRoom ≤ _ from Nat.not_le.2 hq), if_neg (by simp),
    if_neg (by simp)]
  dsimp only
  rw [setRoute_queued h]
  rfl

theorem queueRoute_full {s : State} {r : Fin 64} {d : RouteDef} {x : FreeReason} (h : tget s.routes r = .free x)
    (hq : 16 ≤ s.queue.length) : s.queueRoute .host r d = s.refuse .queueFull := by
  have hfree : (!(tget s.routes r).isFree) = false := by rw [h]; rfl
  unfold State.queueRoute
  rw [hfree, if_neg Bool.false_ne_true]
  exact if_pos hq

/-- An examination outside RUN answers the call for it and takes nothing (R88). -/
theorem examineQueue_idle {s : State} (h : s.mode ≠ .run) : s.examineQueue = s.updWork fun w => { w with examine := false } := by
  unfold State.examineQueue
  exact if_neg h

/-- An examination with one HOST entry in the queue, which is not takeable, takes nothing (R88). -/
theorem examineQueue_single {s : State} {r : Fin 64} {m : MsCount} (hq : s.queue = [r]) (hr : tget s.routes r = .queued .host m)
    (ht : s.takeable r = false) : s.examineQueue = s.updWork fun w => { w with examine := false } := by
  unfold State.examineQueue
  extract_lets u v
  have hclass : u.queuedClass r = some .host := by
    have hu : tget u.routes r = .queued .host m := hr
    rw [State.queuedClass, hu]
  have hentries (c : RouteClass) : u.entriesOf c = if c = .host then [r] else [] := by
    have hu : u.queue = [r] := hq
    rw [State.entriesOf, hu, List.filter_singleton, hclass]
    cases c <;> rfl
  have htake : u.examineEntry r = u := by
    have hu : u.takeable = s.takeable := takeable_congr rfl rfl rfl rfl rfl rfl rfl rfl rfl rfl
    rw [State.examineEntry, hu, ht]
    rfl
  have hv : v = u := by
    simp only [v, hentries, if_true, List.foldl_cons, List.foldl_nil, htake]
  rw [hv, hentries]
  exact ite_self _

theorem requestRoute_defined {s : State} {r : Fin 64} {d : RouteDef} (hm : s.mode ≠ .config) (hd : tget s.tables.routes r = some d) :
    s.requestRoute .host r.val = s.queueRoute .host r d := by
  unfold State.requestRoute
  rw [if_neg (by simp [hm]), index?_val]
  dsimp only
  rw [State.routeDef, hd]

theorem requestRoute_badValue {s : State} {n : Nat} (hm : s.mode ≠ .config) (hn : 64 ≤ n) :
    s.requestRoute .host n = s.refuse .badValue := by
  unfold State.requestRoute
  rw [if_neg (by simp [hm]), index?_none _ hn]

theorem requestRoute_notDefined {s : State} {r : Fin 64} (hm : s.mode ≠ .config) (hd : tget s.tables.routes r = none) :
    s.requestRoute .host r.val = s.refuse .notDefined := by
  unfold State.requestRoute
  rw [if_neg (by simp [hm]), index?_val]
  dsimp only
  rw [State.routeDef, hd]

theorem queueRoute_duplicate {s : State} {r : Fin 64} {d : RouteDef} (h : ∀ x, tget s.routes r ≠ .free x) :
    s.queueRoute .host r d = s.refuse .duplicate := by
  refine if_pos ?_
  cases hx : tget s.routes r with
  | free x => exact absurd hx (h x)
  | _ => rfl

/-- A request of a FREE route with room in the queue, whose examination takes nothing (R87, R88). -/
theorem requestRoute_waits {s : State} {dt : Nat} {tag : Byte} {r : Fin 64} {d : RouteDef} {x : FreeReason} (hs : s.hears tag)
    (hm : s.mode ≠ .config) (hd : tget s.tables.routes r = some d) (hfree : tget s.routes r = .free x)
    (hroom : s.queue.length < 16) (hw : s.work = Work.none)
    (hex : ((s.frameLost dt).routeWaits r).examineQueue =
      ((s.frameLost dt).routeWaits r).updWork fun w => { w with examine := false }) :
    s.comesTo (.requestRoute dt tag (.fields r.val)) { s.answered dt tag .accepted with
      routes := tset s.routes r (.queued .host (s.later dt).ms), queue := s.queue ++ [r] } [.route r] := by
  have hreq : (s.frameLost dt).requestRoute .host r.val = (s.frameLost dt).queueRoute .host r d := requestRoute_defined hm hd
  rw [queueRoute_host (s := s.frameLost dt) hfree hroom, hex] at hreq
  have hsettled := settleSignals_calmly (((s.frameLost dt).routeWaits r).updWork fun w => { w with examine := false })
  obtain ⟨hcalm, hwork⟩ := hsettled
  refine request_settled (v := { s.frameLost dt with
      routes := tset s.routes r (.queued .host (s.later dt).ms), queue := s.queue ++ [r] }) hs rfl
    (congrArg settleReply hreq) (fun x hx => by cases hx) (hcalm.trans (routeWaits_calm (s.frameLost dt) r)) rfl (.inl ?_) ?_ rfl
    fun y hy => ?_
  · rw [hwork]
    rfl
  · rw [hwork]
    exact congrArg Work.wake hw
  · rw [List.mem_singleton.1 hy]
    exact (settleSignals_follows _).marks _ ((settlePanel_follows _).marks _ (mem_mark_self _ _))

theorem requestIsCheckedAndQueued_holds : requestIsCheckedAndQueued := by
  intro s dt tag n hs c refused
  have refuses {r : Reason} (h : (s.frameLost dt).requestRoute .host n = (s.frameLost dt).refuse r) : refused r := by
    refine request_refused s dt tag _ _ hs r ?_
    rw [takeRequestRoute, h]
    rfl
  refine ⟨fun hm => refuses (if_pos (.inl hm)), fun hm hn => refuses (requestRoute_badValue hm hn), ?_⟩
  rintro r hm rfl
  refine ⟨fun hd => refuses (requestRoute_notDefined hm hd), fun hd => ?_⟩
  obtain ⟨d, hd⟩ := Option.isSome_iff_exists.1 hd
  have hreq : (s.frameLost dt).requestRoute .host r.val = (s.frameLost dt).queueRoute .host r d := requestRoute_defined hm hd
  refine ⟨fun hbusy => refuses (hreq.trans (queueRoute_duplicate (s := s.frameLost dt) hbusy)),
    fun x hfree => ⟨fun hfull => refuses (hreq.trans (queueRoute_full (s := s.frameLost dt) hfree hfull)), fun hroom => ?_⟩⟩
  refine ⟨fun hhalt hw => requestRoute_waits hs hm hd hfree hroom hw (examineQueue_idle fun h => ?_), fun hrun hquiet hno => ?_⟩
  · rw [show s.mode = .run from h] at hhalt
    cases hhalt
  · obtain ⟨hq, -, hw⟩ := hquiet
    refine requestRoute_waits hs hm hd hfree hroom hw (examineQueue_single (r := r) (m := (s.later dt).ms) ?_ ?_ ?_)
    · show s.queue ++ [r] = [r]
      rw [hq]
      rfl
    · exact tget_tset_self _ _ _
    · rw [← hno]
      exact congrFun (takeable_congr rfl rfl rfl rfl rfl rfl rfl rfl rfl rfl) r

/-- Settles O35: each condition of the test is an equivalence, and a request that is queued changes the calm part only by its
record and the queue. -/
theorem routeRequestIsQueued : Obligations.RouteRequestIsQueued := by
  unfold Obligations.RouteRequestIsQueued
  exact ⟨takeableTest_holds, requestIsCheckedAndQueued_holds⟩

end Sys2Proof.Machine
end

section
/-! SUPPORT. Gate edges and the results of timings (O45): what each unit that takes a result changes of the calm part. -/

namespace Sys2Proof.Machine
open Sys2Proof.Claims

/-- A command that ends its event with no note left, and whose effect before that end is `u` but for marks and images. -/
theorem comesTo_calmly {s w u : State} {c : Instr} {marks : List Subject} (hx : exec c s = .next w.settle) (h : Calmly u w)
    (hw : u.work = Work.none) (hm : ∀ y ∈ marks, y ∈ w.link.reports) : s.comesTo c u marks := by
  have hwork : w.work = Work.none := h.2.trans hw
  exact ⟨_, hx, (settle_calm w (.inl (by rw [hwork]; rfl)) (by rw [hwork]; rfl)).trans h.1,
    fun y hy => (settle_follows w).marks y (hm y hy)⟩

/-! ## The filter and the trap (R126, R128, R131, R132, R134) -/

theorem exec_gateEdge (s : State) (dt : Nat) (g : Fin 8) (level : Bool) : exec (.gateEdge dt g level) s =
    .next ((s.later dt).takeEdge g (s.clock.base + BitVec.ofNat 32 dt)).settle := rfl

/-- An edge in CONFIG, or of a gate without a trap, is discarded. -/
theorem takeEdge_discarded {s : State} {g : Fin 8} {x : Stamp} (h : s.mode = .config ∨ s.trapDef (trapOf g) = none) :
    s.takeEdge g x = s := by
  unfold State.takeEdge
  split
  · rfl
  · rename_i hm
    rw [h.resolve_left hm]

section
variable {s : State} {g : Fin 8} {x : Stamp} {d : TrapDef}

/-- An edge of a gate with a trap goes through the gate's filter, and a hit on to the trap. -/
theorem takeEdge_heard (hm : s.mode ≠ .config) (hd : s.trapDef (trapOf g) = some d) {f : Filter} {hit : Bool}
    (hf : (tget s.filters g).takeEdge d.edges (stampAfter x (1000 * d.quiet)) = (f, hit)) :
    s.takeEdge g x = if hit then (s.putFilter g f).trapHit g d x else s.putFilter g f := by
  unfold State.takeEdge
  rw [if_neg hm, hd]
  dsimp only
  rw [hf]

theorem filter_counts {n : Nat} {e y : Stamp} {k : Nat} (h : n + 1 < k) :
    (Filter.counting n e).takeEdge k y = (.counting (n + 1) y, false) := if_neg (Nat.not_le.2 h)

theorem filter_begins {y : Stamp} {k : Nat} (h : 1 < k) : Filter.quiet.takeEdge k y = (.counting 1 y, false) :=
  if_neg (Nat.not_le.2 h)

/-- The last edge that the trap counts, be it the first, gives a hit. -/
theorem filter_hits {f : Filter} {y : Stamp} {k : Nat}
    (h : (f = .quiet ∧ k ≤ 1) ∨ ∃ n e, f = .counting n e ∧ k ≤ n + 1) : f.takeEdge k y = (.spent y, true) := by
  rcases h with ⟨rfl, hk⟩ | ⟨n, e, rfl, hk⟩ <;> exact if_pos hk

theorem takeEdge_hit (hm : s.mode ≠ .config) (hd : s.trapDef (trapOf g) = some d)
    (h : (tget s.filters g = .quiet ∧ d.edges ≤ 1) ∨ ∃ n e, tget s.filters g = .counting n e ∧ d.edges ≤ n + 1) :
    s.takeEdge g x = (s.putFilter g (.spent (stampAfter x (1000 * d.quiet)))).trapHit g d x := by
  rw [takeEdge_heard hm hd (filter_hits h)]
  rfl

end

theorem trapHit_idle {s : State} {g : Fin 8} {d : TrapDef} {x : Stamp} (h : (tget s.traps (trapOf g)).state = .idle) :
    s.trapHit g d x = s.startTiming (trapOf g) (startDir g) x false := by
  unfold State.trapHit
  dsimp only
  rw [h]

theorem trapHit_timing {s : State} {g : Fin 8} {d : TrapDef} {x t0 e : Stamp} {dir : TrapDir} {o : Bool}
    (h : (tget s.traps (trapOf g)).state = .timing dir t0 o e) : s.trapHit g d x =
      if dir = startDir g then s.startTiming (trapOf g) dir x true else s.completeTiming (trapOf g) d dir t0 o x := by
  unfold State.trapHit
  dsimp only
  rw [h]

theorem trapHit_holdoff {s : State} {g : Fin 8} {d : TrapDef} {x : Stamp} (h : (tget s.traps (trapOf g)).state = .holdoff) :
    s.trapHit g d x = s := by
  unfold State.trapHit
  dsimp only
  rw [h]

theorem gateEdgesAreFiltered_holds : gateEdgesAreFiltered := by
  intro s dt g level hw c stamp trap
  have comes {w u : State} {marks : List Subject} (hx : (s.later dt).takeEdge g stamp = w) (hc : Calmly u w)
      (hu : u.work = s.work) (hm : ∀ y ∈ marks, y ∈ w.link.reports) : s.comesTo c u marks :=
    comesTo_calmly ((exec_gateEdge s dt g level).trans (congrArg (fun v : State => Host.Outcome.next v.settle) hx)) hc
      (hu.trans hw) hm
  refine ⟨fun h => comes (takeEdge_discarded (s := s.later dt) h) (.refl _) rfl (by simp), fun d hm hd => ?_⟩
  intro expiry put
  have heard {f f' : Filter} {hit : Bool} (hf : tget s.filters g = f) (ht : f.takeEdge d.edges expiry = (f', hit)) :=
    takeEdge_heard (s := s.later dt) (x := stamp) hm hd (hf ▸ ht)
  refine ⟨fun hq hk => comes (heard hq (filter_begins hk)) (.refl _) rfl (by simp),
    fun n e hn hk => comes (heard hn (filter_counts hk)) (.refl _) rfl (by simp),
    fun e he => comes (heard he rfl) (.refl _) rfl (by simp), fun hhit => ?_⟩
  intro x dir timing
  have hedge := takeEdge_hit (s := s.later dt) (x := stamp) hm hd hhit
  refine ⟨fun hx => comes (hedge.trans (trapHit_idle hx)) (mark_calmly _ _) rfl ?_,
    fun t0 o e hx => comes (hedge.trans ((trapHit_timing (s := put (.spent expiry)) hx).trans (if_pos rfl))) (mark_calmly _ _) rfl ?_,
    fun hx => comes (hedge.trans (trapHit_holdoff hx)) (.refl _) rfl (by simp)⟩
  all_goals
    intro y hy
    rw [List.mem_singleton.1 hy]
    exact mem_mark_self _ _

/-! ## The Train Register takes a speed (R63) -/

/-- The train records once the ACTIVE train that holds block `b` has taken speed `v`. -/
def State.trainsTimed (s : State) (b : Fin 48) (v : Nat) : Tab Train 24 :=
  match s.holder b with
  | some q =>
    match tget s.trains q with
    | .active n l _ o => tset s.trains q (.active n l (some v) o)
    | _ => s.trains
  | none => s.trains

theorem registerSpeed_calmly (s : State) (b : Fin 48) (v : Nat) :
    Calmly { s with trains := s.trainsTimed b v } (s.registerSpeed b v) := by
  unfold State.registerSpeed State.trainsTimed
  cases s.holder b with
  | none => exact .refl s
  | some q =>
    dsimp only
    cases tget s.trains q with
    | active n l k o => exact ⟨rfl, rfl⟩
    | _ => exact .refl s

theorem registerSpeed_marks (s : State) (b : Fin 48) (v : Nat) :
    ∀ y ∈ s.link.reports, y ∈ (s.registerSpeed b v).link.reports := by
  unfold State.registerSpeed
  split
  · split
    · exact (mark_follows (s.putTrain _ _) _).marks
    · exact fun _ h => h
  · exact fun _ h => h

/-! ## The signals take a result (R119) -/

theorem Calmly.signals {s t : State} (h : Calmly s t) (x : Tab SignalRec 32) :
    Calmly { s with signals := x } { t with signals := x } :=
  ⟨congrArg (fun c : State => ({ c with signals := x.map fun y => { y with aspect := .dark, cleared := false } } : State)) h.1,
    h.2⟩

/-- `t` is `s` but for its signals, marks made, and what the end of an event changes. -/
structure SignalsChange (s t : State) : Prop where
  calmly : Calmly { s with signals := t.signals } t
  marks : ∀ y ∈ s.link.reports, y ∈ t.link.reports
  deck : t.deck = s.deck
  points : t.points = s.points
  groups : t.groups = s.groups
  tables : t.tables = s.tables

theorem SignalsChange.refl (s : State) : SignalsChange s s := ⟨.refl s, fun _ h => h, rfl, rfl, rfl, rfl⟩

theorem SignalsChange.trans {s t u : State} (h : SignalsChange s t) (k : SignalsChange t u) : SignalsChange s u where
  calmly := (h.calmly.signals u.signals).trans k.calmly
  marks y hy := k.marks y (h.marks y hy)
  deck := k.deck.trans h.deck
  points := k.points.trans h.points
  groups := k.groups.trans h.groups
  tables := k.tables.trans h.tables

theorem updSignal_signalsChange (s : State) (g : Fin 32) (f : SignalRec → SignalRec) :
    SignalsChange s ((s.updSignal g f).mark (.signal g)) :=
  ⟨⟨rfl, rfl⟩, (mark_follows (s.updSignal g f) _).marks, rfl, rfl, rfl, rfl⟩

theorem offerResult_signalsChange (s : State) (t : Fin 4) (b : Fin 48) (e : Side) (v : Nat) (g : Fin 32) :
    SignalsChange s (s.offerResult t b e v g) := by
  unfold State.offerResult
  split
  · split
    · split
      · unfold State.releaseApproach State.putSignal
        split
        · exact .refl s
        · exact updSignal_signalsChange s g _
      · exact updSignal_signalsChange s g _
    · exact .refl s
  · exact .refl s

theorem aspectTakesResult_signalsChange (s : State) (t : Fin 4) (b : Fin 48) (e : Side) (v : Nat) :
    SignalsChange s (s.aspectTakesResult t b e v) := by
  unfold State.aspectTakesResult
  generalize indices 32 = l
  induction l generalizing s with
  | nil => exact .refl s
  | cons g l ih => exact (offerResult_signalsChange s t b e v g).trans (ih _)

/-- What an offer reads: the signals, the tables, and what stands between blocks (R48, R119). -/
structure OffersAlike (s t : State) : Prop where
  signals : t.signals = s.signals
  tables : t.tables = s.tables
  deck : t.deck = s.deck
  points : t.points = s.points
  groups : t.groups = s.groups

theorem OffersAlike.neighbour {s t : State} (h : OffersAlike s t) : t.neighbour = s.neighbour :=
  neighbour_congr h.tables h.deck h.points h.groups

theorem OffersAlike.offerResult {s u : State} (h : OffersAlike s u) (t : Fin 4) (b : Fin 48) (e : Side) (v : Nat) (g : Fin 32) :
    OffersAlike (s.offerResult t b e v g) (u.offerResult t b e v g) := by
  have hs := offerResult_signalsChange s t b e v g
  have hu := offerResult_signalsChange u t b e v g
  have hawait : u.awaitingRelease g = s.awaitingRelease g := by
    simp only [State.awaitingRelease, State.signalDef, State.routeDef, h.signals, h.tables]
  have htoward (d : SignalDef) : u.towardSignal d b e = s.towardSignal d b e := by
    simp only [State.towardSignal, h.neighbour]
  refine ⟨?_, hu.tables.trans (h.tables.trans hs.tables.symm), hu.deck.trans (h.deck.trans hs.deck.symm),
    hu.points.trans (h.points.trans hs.points.symm), hu.groups.trans (h.groups.trans hs.groups.symm)⟩
  have hupd (f : SignalRec → SignalRec) : ((u.updSignal g f).mark (.signal g)).signals =
      ((s.updSignal g f).mark (.signal g)).signals := congrArg (fun x => tupd x g f) h.signals
  have hput (f : SignalRec → SignalRec) : (u.putSignal g f).signals = (s.putSignal g f).signals := by
    unfold State.putSignal
    rw [h.signals]
    split
    · exact h.signals
    · exact hupd f
  unfold State.offerResult
  rw [hawait]
  split
  · rw [htoward]
    split
    · split
      · exact hput _
      · exact hupd _
    · exact h.signals
  · exact h.signals

theorem aspectTakesResult_signals {s u : State} (h : OffersAlike s u) (t : Fin 4) (b : Fin 48) (e : Side) (v : Nat) :
    (u.aspectTakesResult t b e v).signals = (s.aspectTakesResult t b e v).signals := by
  unfold State.aspectTakesResult
  generalize indices 32 = l
  induction l generalizing s u with
  | nil => exact h.signals
  | cons g l ih => exact ih (h.offerResult t b e v g)

theorem registerSpeed_offersAlike (s : State) (b : Fin 48) (v : Nat) : OffersAlike s (s.registerSpeed b v) := by
  unfold State.registerSpeed
  split
  · split
    · exact ⟨rfl, rfl, rfl, rfl, rfl⟩
    · exact ⟨rfl, rfl, rfl, rfl, rfl⟩
  · exact ⟨rfl, rfl, rfl, rfl, rfl⟩

/-! ## The cues (R196) -/

theorem Calmly.cues {s t : State} (h : Calmly s t) (x : Tab Bool 16) : Calmly { s with cues := x } { t with cues := x } :=
  ⟨congrArg (fun c : State => ({ c with cues := x } : State)) h.1, h.2⟩

theorem putCue_calmly (s : State) (c : Fin 16) (v : Bool) : Calmly { s with cues := (s.putCue c v).cues } (s.putCue c v) := by
  unfold State.putCue
  split
  · exact .refl s
  · exact ⟨rfl, rfl⟩

theorem putCue_cues (s : State) (c : Fin 16) (v : Bool) : (s.putCue c v).cues = tset s.cues c v := by
  unfold State.putCue
  split
  · rename_i h
    rw [← h, tset_tget]
  · rfl

/-- With no show running, the cues of a list that a selector names are set, and nothing else is changed. -/
theorem setCuesIn_calmly (x : Selector) (l : List (Fin 16)) (s : State) (h : s.runningShow = none) :
    let t := l.foldl (fun s c => if tget s.tables.cues c = x then s.setCueFlag c else s) s
    Calmly { s with cues := t.cues } t ∧
      ∀ c, tget t.cues c = if c ∈ l ∧ tget s.tables.cues c = x then true else tget s.cues c := by
  induction l generalizing s with
  | nil => exact ⟨.refl s, fun c => by simp⟩
  | cons a l ih =>
    dsimp only
    rw [List.foldl_cons]
    split
    · rename_i ha
      rw [setCueFlag_noShow s a h]
      have hp := putCue_calmly s a true
      have htables : (s.putCue a true).tables = s.tables := (congrArg State.tables hp.1 :)
      obtain ⟨hk, hc⟩ := ih (s.putCue a true) ((runningShow_congr (congrArg State.shows hp.1 :)).trans h)
      refine ⟨(hp.cues _).trans hk, fun c => ?_⟩
      rw [hc, htables, putCue_cues, tget_tset]
      by_cases hca : a = c
      · subst hca
        simp [ha]
      · simp [hca, Ne.symm hca]
    · rename_i ha
      obtain ⟨hk, hc⟩ := ih s h
      refine ⟨hk, fun c => ?_⟩
      rw [hc]
      by_cases hca : c = a
      · subst hca
        simp [ha]
      · simp [hca]

/-- With no show running the cues of a selector are set, and no run takes note of it. -/
theorem setCuesFor_calmly {s : State} (h : s.runningShow = none) (x : Selector) :
    Calmly { s with cues := s.cued x } (s.setCuesFor x) := by
  obtain ⟨hk, hc⟩ := setCuesIn_calmly x (indices 16) s h
  have hcues : (s.setCuesFor x).cues = s.cued x := tab_ext fun c => by
    rw [State.cued, tget_tgen]
    exact (hc c).trans (if_congr (and_iff_right (mem_indices c)) rfl rfl)
  rw [← hcues]
  exact hk

/-! ## A timing completes (R132, R135 to R137, R186) -/

/-- Text line 2 with a result shown, where the display trap names the trap (R186). -/
def State.textShown (s : State) (t : Fin 4) (v : Nat) : TextRec :=
  if s.params.displayTrap = some t then
    { s.text with line2 := speedLine v, hold := some (s.clock.us + 1000000 * s.params.speedHold) }
  else s.text

theorem displayResult_calmly (s : State) (t : Fin 4) (v : Nat) : Calmly { s with text := s.textShown t v }
    (if s.params.displayTrap = some t then s.displayResult v else s) := by
  have hafter : s.after (1000 * s.params.speedHold) = s.clock.us + 1000000 * s.params.speedHold := by
    rw [State.after]
    omega
  unfold State.textShown
  split
  · unfold State.displayResult
    rw [hafter]
    exact settlePanel_calmly _
  · exact .refl s

theorem Calmly.text {s t : State} (h : Calmly s t) (x : TextRec) : Calmly { s with text := x } { t with text := x } :=
  ⟨congrArg (fun c : State => ({ c with text := x } : State)) h.1, h.2⟩

/-- The state after a result has been handed on, but for marks and what the end of the event changes (R137). -/
def State.resultTaken (s : State) (t : Fin 4) (b : Fin 48) (e : Side) (v : Nat) : State :=
  { s with
    trains := s.trainsTimed b v
    signals := (s.aspectTakesResult t b e v).signals
    cues := s.cued (.trapResult t)
    text := s.textShown t v }

theorem deliver_calmly {s : State} (h : s.runningShow = none) (t : Fin 4) (d : TrapDef) (r : TrapResult) :
    Calmly (s.resultTaken t d.block r.toward r.speed) (s.deliver t d r) ∧
      ∀ y ∈ s.link.reports, y ∈ (s.deliver t d r).link.reports := by
  unfold State.deliver
  dsimp only
  have h1 := registerSpeed_calmly s d.block r.speed
  have ha := registerSpeed_offersAlike s d.block r.speed
  have hm1 := registerSpeed_marks s d.block r.speed
  generalize s.registerSpeed d.block r.speed = s1 at h1 ha hm1
  have h2 := aspectTakesResult_signalsChange s1 t d.block r.toward r.speed
  have hsignals := aspectTakesResult_signals ha t d.block r.toward r.speed
  generalize s1.aspectTakesResult t d.block r.toward r.speed = s2 at h2 hsignals
  have h3 (hr : s2.runningShow = none) := setCuesFor_calmly hr (.trapResult t)
  have hm3 := (setCuesFor_follows s2 (.trapResult t)).marks
  generalize s2.setCuesFor (.trapResult t) = s3 at h3 hm3
  have h4 := displayResult_calmly s3 t r.speed
  have h12 := (h1.signals s2.signals).trans h2.calmly
  have hcues : s2.cues = s.cues := (congrArg State.cues h12.1 :)
  have htables : s2.tables = s.tables := (congrArg State.tables h12.1 :)
  have h123 := (h12.cues _).trans (h3 ((runningShow_congr (congrArg State.shows h12.1 :)).trans h))
  have htext : s3.textShown t r.speed = s.textShown t r.speed := by
    have hp : s3.params = s.params := (congrArg State.params h123.1 :)
    have ht : s3.text = s.text := (congrArg State.text h123.1 :)
    have hk : s3.clock = s.clock := (congrArg State.clock h123.1 :)
    simp only [State.textShown, hp, ht, hk]
  have hcued : s2.cued (.trapResult t) = s.cued (.trapResult t) := by simp only [State.cued, htables, hcues]
  have hall := (h123.text _).trans h4
  rw [htext, hcued, hsignals] at hall
  refine ⟨hall, fun y hy => ?_⟩
  have hy3 := hm3 y (h2.marks y (hm1 y hy))
  split
  · exact hy3
  · exact hy3

theorem trainsTimed_congr {s u : State} (h : u.trains = s.trains) (b : Fin 48) (v : Nat) :
    u.trainsTimed b v = s.trainsTimed b v := by
  have hh : u.holder b = s.holder b := by
    unfold State.holder
    rw [h]
  unfold State.trainsTimed
  rw [hh, h]

/-- A mark made before a result is handed on is no more than a mark. -/
theorem resultTaken_mark (s : State) (y : Subject) (t : Fin 4) (b : Fin 48) (e : Side) (v : Nat) :
    Calmly (s.resultTaken t b e v) ((s.mark y).resultTaken t b e v) := by
  have ha : OffersAlike s (s.mark y) := ⟨rfl, rfl, rfl, rfl, rfl⟩
  have hsignals := aspectTakesResult_signals ha t b e v
  unfold State.resultTaken
  rw [hsignals, trainsTimed_congr (s := s) (u := s.mark y) rfl]
  exact ⟨rfl, rfl⟩

/-- The result of a timing that completes in trap `t` at `x` (R135, R136). -/
def State.timed (s : State) (t : Fin 4) (d : TrapDef) (dir : TrapDir) (t0 x : Stamp) (o : Bool) : TrapResult :=
  ⟨scaleSpeed d.distance s.params.scaleDivisor (x - t0).toNat, d.toward dir, (x - t0).toNat, o, (tget s.traps t).results + 1⟩

/-- A timing of trap `t` is over: its record holds the result (R132, R135). -/
def State.timingOver (s : State) (t : Fin 4) (r : TrapResult) : State :=
  { s with traps := tset s.traps t { tget s.traps t with
      state := .holdoff, last := some r, results := (tget s.traps t).results + 1, outcome := some .result } }

theorem completeTiming_eq (s : State) (t : Fin 4) (d : TrapDef) (dir : TrapDir) (t0 x : Stamp) (o : Bool) :
    s.completeTiming t d dir t0 o x =
      ((s.timingOver t (s.timed t d dir t0 x o)).mark (.trap t)).deliver t d (s.timed t d dir t0 x o) := rfl

theorem completeTiming_calmly {s : State} (h : s.runningShow = none) (t : Fin 4) (d : TrapDef) (dir : TrapDir) (t0 x : Stamp)
    (o : Bool) {r : TrapResult} (hr : s.timed t d dir t0 x o = r) :
    Calmly ((s.timingOver t r).resultTaken t d.block r.toward r.speed) (s.completeTiming t d dir t0 o x) ∧
      .trap t ∈ (s.completeTiming t d dir t0 o x).link.reports := by
  have hrun : ((s.timingOver t r).mark (.trap t)).runningShow = none := h
  obtain ⟨hc, hm⟩ := deliver_calmly hrun t d r
  rw [completeTiming_eq, hr]
  exact ⟨(resultTaken_mark _ _ t d.block r.toward r.speed).trans hc, hm _ (mem_mark_self _ _)⟩

theorem timingCompletes_holds : timingCompletes := by
  intro s dt g level t0 e overwritten d hrun hm hd hhit trap stamp x hx v toward r
  obtain ⟨hshow, hw⟩ := hrun
  let put : State := (s.later dt).putFilter g (.spent (stampAfter stamp (1000 * d.quiet)))
  have hother : ¬ (if g.val % 2 = 0 then TrapDir.ba else .ab) = startDir g := by
    unfold startDir
    split <;> simp
  have htoward : d.toward (if g.val % 2 = 0 then TrapDir.ba else .ab) = toward := by
    simp only [toward]
    split <;> rfl
  have hr : put.timed trap d (if g.val % 2 = 0 then TrapDir.ba else .ab) t0 stamp overwritten = r := by
    unfold State.timed
    rw [htoward]
    rfl
  have hedge := (takeEdge_hit (s := s.later dt) (x := stamp) hm hd hhit).trans
    ((trapHit_timing (s := put) hx).trans (if_neg hother))
  obtain ⟨hc, hmark⟩ := completeTiming_calmly (s := put) hshow trap d _ t0 stamp overwritten hr
  have hx' : exec (.gateEdge dt g level) s = .next (put.completeTiming trap d
      (if g.val % 2 = 0 then TrapDir.ba else .ab) t0 overwritten stamp).settle := by
    rw [exec_gateEdge]
    exact congrArg (fun w : State => Host.Outcome.next w.settle) hedge
  have ha : OffersAlike s (put.timingOver trap r) := ⟨rfl, rfl, rfl, rfl, rfl⟩
  have hsignals := aspectTakesResult_signals ha trap d.block toward v
  obtain ⟨t, ht, hcalm, hmarks⟩ := comesTo_calmly (marks := [.trap trap]) hx' hc hw
    (fun y hy => List.mem_singleton.1 hy ▸ hmark)
  refine ⟨t, ht, hmarks _ (List.mem_singleton_self _), hcalm.trans ?_⟩
  unfold State.resultTaken
  rw [show r.speed = v from rfl, show r.toward = toward from rfl, hsignals,
    trainsTimed_congr (s := s) (u := put.timingOver trap r) rfl]
  rfl

/-- Settles O45: the filter and the trap take an edge case by case, and each unit that a result is handed to changes its own part
alone (`deliver_calmly`). -/
theorem gateEdgesTimeTrains : Obligations.GateEdgesTimeTrains := by
  unfold Obligations.GateEdgesTimeTrains
  exact ⟨gateEdgesAreFiltered_holds, timingCompletes_holds⟩

end Sys2Proof.Machine
end

section
/-! SUPPORT. The moves of a drive group while no route holds elements (R69 to R74): each phase changes one point and its group alone
(`PointStands`), and the start of the next move is `State.moveStarts` in the calm part. -/

namespace Sys2Proof.Machine

theorem atPoint_ownContact (s : State) (p : Fin 64) (x : PointRec) (g : Fin 8) (h : GroupRec) :
    s.atPoint p (tget s.contacts p) x g h = { s with groups := tset s.groups g h, points := tset s.points p x } := by
  unfold State.atPoint
  rw [tset_tget]

theorem atPoint_own (s : State) (p : Fin 64) (g : Fin 8) (h : GroupRec) :
    s.atPoint p (tget s.contacts p) (tget s.points p) g h = { s with groups := tset s.groups g h } := by
  rw [atPoint_ownContact, tset_tget]

/-- The start of a move leaves nothing of its group's record but what it is given. -/
theorem moveStarts_overGroup (s : State) (g : Fin 8) (h k : GroupRec) (p : Fin 64) (l : Lie) (rest : List (Fin 64 × Lie)) :
    ({ s with groups := tset s.groups g h } : State).moveStarts g k p l rest = s.moveStarts g k p l rest :=
  congrArg (fun t => ({ s.moveStarts g k p l rest with groups := t } : State)) (tupd_tset s.groups g h fun _ => _)

theorem pointStands_self (s : State) (p : Fin 64) (g : Fin 8) :
    PointStands s p (tget s.contacts p) (tget s.points p) g (tget s.groups g) [] s where
  calm := by rw [atPoint_own, tset_tget]
  marks := by simp

/-- The record of a group whose move `m` enters PULSE (R71, R72). -/
def State.groupPulses (s : State) (g : Fin 8) (h : GroupRec) (m : Move) : GroupRec :=
  { h with
    phase := .pulse, current := some { m with phaseAt := s.clock.us, pulseAt := some s.clock.us }
    phaseTimer := some (s.after (tget s.tables.groups g).pulse)
    windowTimer := if s.feedback m.point = .hold then some (s.after (tget s.tables.groups g).window) else none }

/-- The record of a group that begins a move in SETUP (R69, R71). -/
def State.groupSetsUp (s : State) (g : Fin 8) (h : GroupRec) (p : Fin 64) (l : Lie) (rest : List (Fin 64 × Lie)) : GroupRec :=
  { h with
    phase := .setup, current := some ⟨p, l, s.clock.us, none⟩, outcome := none, queue := rest
    phaseTimer := some (s.after (tget s.tables.groups g).setup), windowTimer := none }

/-- A move begins in SETUP, and with a setup time of 0 its PULSE follows within the event (R69). -/
theorem groupStarts_phases (s : State) (g : Fin 8) (h : GroupRec) (p : Fin 64) (l : Lie) (rest : List (Fin 64 × Lie)) :
    s.groupStarts g h p l rest =
      if (tget s.tables.groups g).setup = 0 then
        s.groupPulses g (s.groupSetsUp g h p l rest) ⟨p, l, s.clock.us, none⟩
      else s.groupSetsUp g h p l rest := rfl

section
variable {s t : State} {p : Fin 64} {c : Contact} {x : PointRec} {g : Fin 8} {h : GroupRec} {marks : List Subject}

theorem PointStands.profile (k : PointStands s p c x g h marks t) (j : Fin 8) : t.profile j = tget s.tables.groups j := by
  rw [State.profile, k.tables]

theorem PointStands.after (k : PointStands s p c x g h marks t) : t.after = s.after := by
  funext ms
  rw [State.after, State.after, k.clock]

theorem PointStands.feedback (k : PointStands s p c x g h marks t) : t.feedback = s.feedback := by
  funext q
  simp only [State.feedback, State.pointDef, k.tables]

theorem PointStands.mode (k : PointStands s p c x g h marks t) : t.mode = s.mode := (congrArg State.mode k.calm :)

/-! ## SETUP and PULSE (R69, R71) -/

theorem PointStands.enterPulse (k : PointStands s p c x g h marks t) (free : s.unheld) {m : Move} (hm : h.current = some m)
    (hp : m.point = p) :
    PointStands s p c { x with lie := none } g (s.groupPulses g h m) [.point p] (t.enterPulse g) := by
  subst hp
  have hgroup := k.updGroup (y := s.groupPulses g h m) (f := fun y =>
    { y with
      phase := .pulse, current := some { m with phaseAt := t.clock.us, pulseAt := some t.clock.us }
      phaseTimer := some (t.after (t.profile g).pulse)
      windowTimer := if t.feedback m.point = .hold then some (t.after (t.profile g).window) else none })
    (by simp only [State.groupPulses, k.clock, k.after, k.profile, k.feedback])
  rw [enterPulse_eq (by rw [k.group]; exact hm)]
  exact PointStands.watchProof (f := fun u => (u.pulseBegun g m).showPoint m.point)
    (hgroup.updPoint (f := fun y => { y with lie := none }) rfl).showPoint free m.point

theorem PointStands.enterSetup (k : PointStands s p c x g h marks t) (free : s.unheld) (l : Lie) (rest : List (Fin 64 × Lie)) :
    PointStands s p c { x with disagree := 0, asFound := false } g (s.groupSetsUp g h p l rest) [.point p]
      (t.watchProof p fun u => (u.setupBegun g p l rest).showPoint p) := by
  have hgroup := k.updGroup (y := s.groupSetsUp g h p l rest) (f := fun y =>
    { y with
      phase := .setup, current := some ⟨p, l, t.clock.us, none⟩, outcome := none, queue := rest
      phaseTimer := some (t.after (t.profile g).setup), windowTimer := none })
    (by simp only [State.groupSetsUp, k.clock, k.after, k.profile])
  exact PointStands.watchProof (f := fun u => (u.setupBegun g p l rest).showPoint p)
    (hgroup.updPoint (f := fun y => { y with disagree := 0, asFound := false }) rfl).showPoint free p

theorem PointStands.startMove (k : PointStands s p c x g h marks t) (free : s.unheld) {l : Lie} {rest : List (Fin 64 × Lie)}
    (hq : h.queue = (p, l) :: rest) (hi : h.phase = .idle) (hp : h.paused = false) (hm : s.mode = .run) :
    PointStands s p c (s.pointStarts g x) g (s.groupStarts g h p l rest) [.point p] (t.startMove g) := by
  have hsetup := k.enterSetup free l rest
  rw [startMove_eq (by rw [k.group]; exact hq) (by rw [k.group]; exact hi) (by rw [k.group]; exact hp) (k.mode.trans hm),
    hsetup.profile, groupStarts_phases, State.pointStarts]
  split
  · exact hsetup.enterPulse free rfl rfl
  · exact hsetup

/-- The next move of a group that stands free for it, whatever point it moves (R69). -/
theorem PointStands.startNext (k : PointStands s p c x g h marks t) (free : s.unheld) {q : Fin 64} {l : Lie}
    {rest : List (Fin 64 × Lie)} (hq : h.queue = (q, l) :: rest) (hi : h.phase = .idle) (hp : h.paused = false)
    (hm : s.mode = .run) :
    (t.startMove g).calm = ((s.atPoint p c x g h).moveStarts g h q l rest).calm ∧
      ∀ y ∈ marks ++ [.point q], y ∈ (t.startMove g).link.reports := by
  have hstart := (pointStands_self t q g).startMove (k.unheld free) (by rw [k.group]; exact hq) (by rw [k.group]; exact hi)
    (by rw [k.group]; exact hp) (k.mode.trans hm)
  refine ⟨?_, fun y hy => ?_⟩
  · have hmove : (t.startMove g).calm = (t.moveStarts g h q l rest).calm := by
      rw [hstart.calm, atPoint_ownContact, k.group]
      rfl
    exact hmove.trans (congrArg (fun u : State => u.moveStarts g h q l rest) k.calm)
  · rcases List.mem_append.1 hy with hy | hy
    · exact (startMove_follows t g).marks y (k.marks y hy)
    · exact hstart.marks y hy

/-! ## Decisions and RECOVERY (R70 to R74) -/

/-- A move decided as FAILED (R70, R93). -/
theorem PointStands.decideFailed (k : PointStands s p c x g h marks t) (free : s.unheld) {m : Move} (hm : h.current = some m)
    (hp : m.point = p) :
    PointStands s p c { x with lie := none, failed := true } g { h with outcome := some .failed } [.point p]
      (t.decideMove g .failed) := by
  subst hp
  have hset := k.updGroup (f := fun y => { y with outcome := some .failed }) rfl
  have hlie := (hset.updPoint (f := fun y => { y with lie := none, failed := true }) rfl).showPoint
  have hwatch := PointStands.watchProof (t := t) (f := fun u => ((((u.updGroup g fun y =>
    { y with outcome := some .failed }).updPoint m.point fun y => { y with lie := none, failed := true }).mark
      (.point m.point)).settlePanel)) hlie free m.point
  unfold State.decideMove
  rw [show (tget t.groups g).current = some m by rw [k.group]; exact hm]
  exact (hwatch.routesTakeFailed free m.point).callExamine

/-- The record of a group whose RECOVERY has ended (R74). -/
def GroupRec.idled (h : GroupRec) : GroupRec := { h with phase := .idle, current := none, outcome := none, windowTimer := none }

/-- A RECOVERY whose time is over and whose move is decided: its group is IDLE, and may begin its next move (R74). -/
theorem testRecovery_over {u : State} (hp : (tget u.groups g).phase = .recovery) (ht : (tget u.groups g).phaseTimer = none)
    (ho : (tget u.groups g).outcome ≠ none) : u.testRecovery g = (u.updGroup g GroupRec.idled).startMove g :=
  if_pos ⟨hp, ht, Option.isSome_iff_ne_none.2 ho⟩

/-- A RECOVERY whose move is undecided lasts (R74). -/
theorem testRecovery_undecided {u : State} (ho : (tget u.groups g).outcome = none) : u.testRecovery g = u :=
  if_neg (by simp [ho])

/-- RECOVERY over, with no move to begin. -/
theorem PointStands.recoveryIdles (k : PointStands s p c x g h marks t) (hp : h.phase = .recovery) (ht : h.phaseTimer = none)
    (ho : h.outcome ≠ none) (hn : h.queue = [] ∨ h.paused = true ∨ s.mode ≠ .run) :
    PointStands s p c x g h.idled marks (t.testRecovery g) := by
  have hidle : PointStands s p c x g h.idled marks (t.updGroup g GroupRec.idled) := k.updGroup rfl
  rw [← k.group] at hp ht ho
  rw [testRecovery_over hp ht ho, startMove_none (by rw [hidle.group, hidle.mode]; exact hn.imp_right .inr)]
  exact hidle

/-- RECOVERY over, with a move to begin. -/
theorem PointStands.recoveryStarts (k : PointStands s p c x g h marks t) (free : s.unheld) (hp : h.phase = .recovery)
    (ht : h.phaseTimer = none) (ho : h.outcome ≠ none) {q : Fin 64} {l : Lie} {rest : List (Fin 64 × Lie)}
    (hq : h.queue = (q, l) :: rest) (hpause : h.paused = false) (hm : s.mode = .run) :
    (t.testRecovery g).calm = ((s.atPoint p c x g h.idled).moveStarts g h.idled q l rest).calm ∧
      ∀ y ∈ marks ++ [.point q], y ∈ (t.testRecovery g).link.reports := by
  have hidle : PointStands s p c x g h.idled marks (t.updGroup g GroupRec.idled) := k.updGroup rfl
  rw [← k.group] at hp ht ho
  rw [testRecovery_over hp ht ho]
  exact hidle.startNext free hq rfl hpause hm

/-- The pulse of a move ends with its decision SET (R71, R72). -/
theorem PointStands.endPulseSet (k : PointStands s p c x g h marks t) (free : s.unheld)
    (hr : 0 < (tget s.tables.groups g).recovery) {m : Move} (hm : h.current = some m) (hp : m.point = p) :
    PointStands s p c { x with lie := some m.target, failed := false } g
      { h with
        phase := .recovery, current := some { m with phaseAt := s.clock.us }, outcome := some .isSet
        queue := h.queue.filter fun e => !(e == (p, m.target))
        phaseTimer := some (s.after (tget s.tables.groups g).recovery), windowTimer := none } [.point p]
      (t.endPulse g .isSet) := by
  have hend := (k.decideIsSet free hm hp).enterRecovery hr none
  simp only [hm, Option.map_some] at hend
  exact hend

/-- The pulse of a move ends with its decision FAILED (R72). -/
theorem PointStands.endPulseFailed (k : PointStands s p c x g h marks t) (free : s.unheld)
    (hr : 0 < (tget s.tables.groups g).recovery) {m : Move} (hm : h.current = some m) (hp : m.point = p) :
    PointStands s p c { x with lie := none, failed := true } g
      { h with
        phase := .recovery, current := some { m with phaseAt := s.clock.us }, outcome := some .failed
        phaseTimer := some (s.after (tget s.tables.groups g).recovery), windowTimer := none } [.point p]
      (t.endPulse g .failed) := by
  have hend := (k.decideFailed free hm hp).enterRecovery hr none
  simp only [hm, Option.map_some] at hend
  exact hend

end

/-! ## The timers' commands -/

/-- The part as a timer that expires at `e` has run out: time passes, and up to the expiry where it lies ahead (log entry 1). -/
def State.dueAt (s : State) (dt e : Nat) : State := { s with clock := (s.clock.plus dt).upTo e }

/-- Group `g`'s phase timer stops (R71, R74). -/
def State.phaseOver (s : State) (g : Fin 8) : State := s.updGroup g fun x => { x with phaseTimer := none }

/-- Group `g`'s feedback window or confirm wait stops (R72, R73). -/
def State.windowDone (s : State) (g : Fin 8) : State := s.updGroup g fun x => { x with windowTimer := none }

theorem phaseOver_stands (s : State) (p : Fin 64) (g : Fin 8) :
    PointStands s p (tget s.contacts p) (tget s.points p) g { tget s.groups g with phaseTimer := none } [] (s.phaseOver g) :=
  (pointStands_self s p g).updGroup rfl

theorem windowDone_stands (s : State) (p : Fin 64) (g : Fin 8) :
    PointStands s p (tget s.contacts p) (tget s.points p) g { tget s.groups g with windowTimer := none } [] (s.windowDone g) :=
  (pointStands_self s p g).updGroup rfl

/-- What an expiry comes to that changes one point and its group. -/
theorem expiry_comesTo {s w : State} {dt e : Nat} {i : Instr} {p : Fin 64} {x : PointRec} {g : Fin 8} {h : GroupRec}
    {marks : List Subject} (hs : s.still) (hx : exec i s = .next w.settle)
    (k : PointStands (s.dueAt dt e) p (tget s.contacts p) x g h marks w) :
    s.comesTo i { s.dueAt dt e with groups := tset s.groups g h, points := tset s.points p x } marks := by
  obtain ⟨⟨hq, -, hw⟩, -⟩ := hs
  exact comesTo_settled hx (k.calm.trans (congrArg State.calm (atPoint_ownContact (s.dueAt dt e) p x g h))) hq hw k.marks

/-- A command that names a timer `t` of a group in phase `x`: in phase `f`, with the timer running, it does `act` at the expiry
and ends the event; otherwise time passes (log entry 3). -/
def State.ranOut (s : State) (dt : Nat) (x f : GroupPhase) (t : Timer) (act : State → State) : State :=
  match t with
  | some e => if x = f then (act (s.dueAt dt e)).settle else s.later dt
  | none => s.later dt

section
variable (s : State) (dt : Nat) (g : Fin 8)

theorem exec_setupEnd : exec (.setupEnd dt g) s =
    .next (s.ranOut dt (tget s.groups g).phase .setup (tget s.groups g).phaseTimer fun u => u.enterPulse g) := by
  show execSetupEnd dt g s = _
  unfold execSetupEnd State.ranOut
  simp only [State.advance_groups]
  cases (tget s.groups g).phase <;> cases (tget s.groups g).phaseTimer <;> rfl

theorem exec_pulseTimeEnd : exec (.pulseTimeEnd dt g) s =
    .next (s.ranOut dt (tget s.groups g).phase .pulse (tget s.groups g).phaseTimer fun u => u.pulseTimeOver g) := by
  show execPulseTimeEnd dt g s = _
  unfold execPulseTimeEnd State.ranOut
  simp only [State.advance_groups]
  cases (tget s.groups g).phase <;> cases (tget s.groups g).phaseTimer <;> rfl

theorem exec_feedbackWindowEnd : exec (.feedbackWindowEnd dt g) s =
    .next (s.ranOut dt (tget s.groups g).phase .pulse (tget s.groups g).windowTimer fun u => u.windowOver g) := by
  show execFeedbackWindowEnd dt g s = _
  unfold execFeedbackWindowEnd State.ranOut
  simp only [State.advance_groups]
  cases (tget s.groups g).phase <;> cases (tget s.groups g).windowTimer <;> rfl

theorem exec_confirmWaitEnd : exec (.confirmWaitEnd dt g) s =
    .next (s.ranOut dt (tget s.groups g).phase .recovery (tget s.groups g).windowTimer fun u => u.confirmOver g) := by
  show execConfirmWaitEnd dt g s = _
  unfold execConfirmWaitEnd State.ranOut
  simp only [State.advance_groups]
  cases (tget s.groups g).phase <;> cases (tget s.groups g).windowTimer <;> rfl

theorem exec_recoveryEnd : exec (.recoveryEnd dt g) s =
    .next (s.ranOut dt (tget s.groups g).phase .recovery (tget s.groups g).phaseTimer fun u => (u.phaseOver g).testRecovery g) := by
  show execRecoveryEnd dt g s = _
  unfold execRecoveryEnd State.ranOut
  simp only [State.advance_groups]
  cases (tget s.groups g).phase <;> cases (tget s.groups g).phaseTimer <;> rfl

end

section
variable {s : State} {dt e : Nat} {i : Instr} {x f : GroupPhase} {t : Timer} {act : State → State}

theorem exec_due (h : exec i s = .next (s.ranOut dt x f t act)) (hx : x = f) (ht : t = some e) {w : State}
    (hw : act (s.dueAt dt e) = w) : exec i s = .next w.settle := by
  subst ht hw
  exact h.trans (congrArg _ (if_pos hx))

theorem exec_idle (h : exec i s = .next (s.ranOut dt x f t act)) (hn : x ≠ f ∨ t = none) : exec i s = .next (s.later dt) := by
  refine h.trans (congrArg _ ?_)
  cases t with
  | none => rfl
  | some e => exact if_neg (hn.resolve_right (by simp))

end

/-! ## The pulse time (R70 to R73) -/

section
variable {s : State} {g : Fin 8} {m : Move}

theorem pulseTimeOver_none (hm : (tget s.groups g).current = some m) (hf : s.feedback m.point = .none) :
    s.pulseTimeOver g = (s.phaseOver g).endPulse g .isSet := by
  have hf' : (s.phaseOver g).feedback m.point = .none := hf
  unfold State.pulseTimeOver
  rw [hm]
  dsimp only
  rw [← State.phaseOver, hf']

theorem pulseTimeOver_confirm (hm : (tget s.groups g).current = some m) (hf : s.feedback m.point = .confirm) :
    s.pulseTimeOver g = (s.phaseOver g).enterRecovery g (some (s.after (tget s.tables.groups g).window)) := by
  have hf' : (s.phaseOver g).feedback m.point = .confirm := hf
  unfold State.pulseTimeOver
  rw [hm]
  dsimp only
  rw [← State.phaseOver, hf']
  rfl

/-- A HOLD move at the end of its pulse time: by its contact, and then by its window (R72). -/
theorem pulseTimeOver_hold (hm : (tget s.groups g).current = some m) (hf : s.feedback m.point = .hold) :
    s.pulseTimeOver g =
      if s.contactReads m.point m.target then (s.phaseOver g).endPulse g .isSet
      else
        match (tget s.groups g).windowTimer with
        | none => (s.phaseOver g).endPulse g .failed
        | some w => if w ≤ s.clock.us then (s.phaseOver g).endPulse g .failed else s.phaseOver g := by
  have hf' : (s.phaseOver g).feedback m.point = .hold := hf
  have hw : (tget (s.phaseOver g).groups g).windowTimer = (tget s.groups g).windowTimer := by
    rw [State.phaseOver, State.updGroup_groups, tget_tupd_self]
  unfold State.pulseTimeOver
  rw [hm]
  dsimp only
  rw [← State.phaseOver, hf']
  dsimp only
  rw [hw]
  rfl

theorem pulseTimeOver_hold_windowOver (hm : (tget s.groups g).current = some m) (hf : s.feedback m.point = .hold)
    (hc : ¬ s.contactReads m.point m.target = true) (hw : ∀ w, (tget s.groups g).windowTimer = some w → w ≤ s.clock.us) :
    s.pulseTimeOver g = (s.phaseOver g).endPulse g .failed := by
  rw [pulseTimeOver_hold hm hf, if_neg hc]
  split
  · rfl
  · rename_i w h
    exact if_pos (hw w h)

theorem pulseTimeOver_hold_windowRuns (hm : (tget s.groups g).current = some m) (hf : s.feedback m.point = .hold)
    (hc : ¬ s.contactReads m.point m.target = true) {w : Nat} (hw : (tget s.groups g).windowTimer = some w)
    (hlt : s.clock.us < w) : s.pulseTimeOver g = s.phaseOver g := by
  rw [pulseTimeOver_hold hm hf, if_neg hc, hw]
  exact if_neg (Nat.not_le.2 hlt)

end

theorem contactReads_iff {s : State} {p : Fin 64} {l : Lie} : s.contactReads p l = true ↔
    (tget s.contacts p).stale = false ∧ (tget s.contacts p).reading = Lie.reading l := by
  simp [State.contactReads]

/-- Settles O33: the feedback mode, and for HOLD the contact and the window, choose how the pulse ends, and each end changes the
point and its group alone (`PointStands`). -/
theorem pulseTimeEnds : Obligations.PulseTimeEnds := by
  unfold Obligations.PulseTimeEnds
  intro s dt g e m x hs hp ht hm ho hr now recovery u y reads c set fails
  have free : (s.dueAt dt e).unheld := hs.2
  have due : PointStands (s.dueAt dt e) m.point (tget s.contacts m.point) y g { x with phaseTimer := none } []
      ((s.dueAt dt e).phaseOver g) := phaseOver_stands (s.dueAt dt e) m.point g
  have ends {w : State} (h : (s.dueAt dt e).pulseTimeOver g = w) : exec c s = .next w.settle :=
    exec_due (exec_pulseTimeEnd s dt g) hp ht h
  have isSet (h : (s.dueAt dt e).pulseTimeOver g = ((s.dueAt dt e).phaseOver g).endPulse g .isSet) : set :=
    expiry_comesTo hs (ends h) (due.endPulseSet free hr hm rfl)
  refine ⟨fun hf => isSet (pulseTimeOver_none hm hf), fun hf => ?_, fun hf => ?_⟩
  · refine ⟨fun hreads => isSet ?_, fun hreads hwindow => ?_, fun w hreads hw hlt => ?_⟩
    · exact (pulseTimeOver_hold (s := s.dueAt dt e) hm hf).trans (if_pos (contactReads_iff.2 hreads))
    · exact expiry_comesTo hs (ends (pulseTimeOver_hold_windowOver hm hf (mt contactReads_iff.1 hreads) hwindow))
        (due.endPulseFailed free hr hm rfl)
    · exact expiry_comesTo hs (ends (pulseTimeOver_hold_windowRuns hm hf (mt contactReads_iff.1 hreads) hw hlt)) due
  · have hrecovery := due.enterRecovery hr (some ((s.dueAt dt e).after (tget s.tables.groups g).window))
    simp only [hm, ho, Option.map_some] at hrecovery
    exact expiry_comesTo hs (ends (pulseTimeOver_confirm hm hf)) hrecovery

/-! ## Setup and recovery times (R71, R74) -/

theorem setupAndRecoveryEnd_holds : Sys2Proof.Claims.setupAndRecoveryEnd := by
  intro s dt g x
  refine ⟨exec_idle (exec_setupEnd s dt g), exec_idle (exec_recoveryEnd s dt g), fun e m hs hp ht hm => ?_,
    fun e hs hp ht => ?_⟩
  · exact expiry_comesTo hs (exec_due (exec_setupEnd s dt g) hp ht rfl)
      ((pointStands_self (s.dueAt dt e) m.point g).enterPulse hs.2 hm rfl)
  · intro u idle
    obtain ⟨⟨hq, -, hw⟩, free⟩ := id hs
    have ends : exec (.recoveryEnd dt g) s = .next ((u.phaseOver g).testRecovery g).settle :=
      exec_due (exec_recoveryEnd s dt g) hp ht rfl
    have due (p : Fin 64) : PointStands u p (tget s.contacts p) (tget s.points p) g { x with phaseTimer := none } []
        (u.phaseOver g) := phaseOver_stands u p g
    refine ⟨fun ho => ?_, fun ho hn => ?_, fun p l rest ho hqueue hpause hrun => ?_⟩
    · rw [testRecovery_undecided (by rw [(due 0).group]; exact ho)] at ends
      exact comesTo_settled ends rfl hq hw (by simp)
    · have k := expiry_comesTo hs ends ((due 0).recoveryIdles hp rfl ho hn)
      rwa [tset_tget] at k
    · obtain ⟨hcalm, hmarks⟩ := (due p).recoveryStarts free hp rfl ho hqueue hpause hrun
      rw [atPoint_own u p, moveStarts_overGroup] at hcalm
      exact comesTo_settled ends hcalm hq hw hmarks

/-! ## Feedback windows and confirm waits (R72 to R74) -/

theorem windowOver_eq {s : State} {g : Fin 8} : s.windowOver g =
    if (tget s.groups g).phaseTimer = none then (s.windowDone g).endPulse g .failed else s.windowDone g := by
  have hw : (tget (s.windowDone g).groups g).phaseTimer = (tget s.groups g).phaseTimer := by
    rw [State.windowDone, State.updGroup_groups, tget_tupd_self]
  rw [← hw]
  rfl

theorem feedbackRunsOut_holds : Sys2Proof.Claims.feedbackRunsOut := by
  intro s dt g x
  refine ⟨exec_idle (exec_feedbackWindowEnd s dt g), exec_idle (exec_confirmWaitEnd s dt g), fun e m hs ht hm ho hr => ?_⟩
  intro now u y failed
  obtain ⟨⟨hq, -, hw⟩, free⟩ := id hs
  have due : PointStands (s.dueAt dt e) m.point (tget s.contacts m.point) y g { x with windowTimer := none } []
      ((s.dueAt dt e).windowDone g) := windowDone_stands (s.dueAt dt e) m.point g
  have windowEnds (hp : x.phase = .pulse) {w : State} (h : (s.dueAt dt e).windowOver g = w) :
      exec (.feedbackWindowEnd dt g) s = .next w.settle := exec_due (exec_feedbackWindowEnd s dt g) hp ht h
  have confirmEnds (hp : x.phase = .recovery) : exec (.confirmWaitEnd dt g) s =
      .next ((((s.dueAt dt e).windowDone g).decideMove g .failed).testRecovery g).settle :=
    exec_due (exec_confirmWaitEnd s dt g) hp ht rfl
  have decided := due.decideFailed free hm rfl
  refine ⟨fun hp hphase => ?_, fun hp hphase => ?_, fun hp hphase => ?_, fun hp hphase => ?_⟩
  · exact expiry_comesTo hs (windowEnds hp (windowOver_eq.trans (if_pos hphase))) (due.endPulseFailed free hr hm rfl)
  · exact expiry_comesTo hs (windowEnds hp (windowOver_eq.trans (if_neg hphase))) due
  · refine expiry_comesTo hs (confirmEnds hp) ?_
    rw [decided.recoveryLasts hphase]
    exact decided
  · intro idle
    refine ⟨fun hn => ?_, fun p l rest hqueue hpause hrun => ?_⟩
    · exact expiry_comesTo hs (confirmEnds hp) (decided.recoveryIdles hp hphase (by simp) hn)
    · obtain ⟨hcalm, hmarks⟩ := decided.recoveryStarts free hp hphase (by simp) hqueue hpause hrun
      refine comesTo_settled (confirmEnds hp) (hcalm.trans ?_) hq hw hmarks
      exact congrArg (fun v : State => (v.moveStarts g idle p l rest).calm) (atPoint_ownContact (s.dueAt dt e) m.point _ g _)

/-- Settles O34: each expiry that finds its timer changes the point and its group alone, and a RECOVERY that is over lets the group
begin its next move (`PointStands.recoveryStarts`). -/
theorem pointTimersEnd : Obligations.PointTimersEnd := ⟨setupAndRecoveryEnd_holds, feedbackRunsOut_holds⟩

end Sys2Proof.Machine
end

section
/-! SUPPORT. THROW_POINT (O32): what a request makes of its group's move queue (R68), the checks (R79), and the move that a group
standing idle begins at once. -/

namespace Sys2Proof.Machine

/-! ## The move queue (R68) -/

/-- Whether a point lies, or is moving, where a request would have it (R68). -/
def State.headsFor (s : State) (p : Fin 64) (l : Lie) : Bool :=
  match s.movingTarget p with
  | some t => t == l
  | none => (tget s.points p).lie == some l

theorem headsFor_iff {s : State} {p : Fin 64} {l : Lie} : s.headsFor p l = true ↔
    s.movingTarget p = some l ∨ (s.movingTarget p = none ∧ (tget s.points p).lie = some l) := by
  unfold State.headsFor
  cases s.movingTarget p <;> simp

/-- A move queue after a request for point `p` to lie `l`; `there` says that the point heads for that lie already (R68). -/
def askedQueue (there : Bool) (p : Fin 64) (l : Lie) (q : List (Fin 64 × Lie)) : List (Fin 64 × Lie) :=
  match there, (q.find? fun e => e.1 == p).map (·.2) with
  | true, none => q
  | false, none => q ++ [(p, l)]
  | true, some _ => q.filter fun e => e.1 != p
  | false, some t => if t = l then q else retarget p l q

theorem askedQueue_new {p : Fin 64} {q : List (Fin 64 × Lie)} (h : ∀ e ∈ q, e.1 ≠ p) (there : Bool) (l : Lie) :
    askedQueue there p l q = if there then q else q ++ [(p, l)] := by
  have hfind : q.find? (fun e => e.1 == p) = none := by simpa [List.find?_eq_none] using h
  unfold askedQueue
  rw [hfind]
  cases there <;> rfl

theorem retarget_others {p : Fin 64} {q : List (Fin 64 × Lie)} (h : ∀ e ∈ q, e.1 ≠ p) (l : Lie) : retarget p l q = q := by
  refine (List.map_congr_left (g := id) fun e he => ?_).trans (List.map_id q)
  exact if_neg (h e he)

/-- The one entry of a point in its group's queue is kept, replaced in its place, or removed. -/
theorem askedQueue_entry {p : Fin 64} {k : Lie} {before after : List (Fin 64 × Lie)} (h : ∀ e ∈ before ++ after, e.1 ≠ p)
    (there : Bool) (l : Lie) : askedQueue there p l (before ++ (p, k) :: after) =
      if there then before ++ after
      else if k = l then before ++ (p, k) :: after else before ++ (p, l) :: after := by
  obtain ⟨hb, ha⟩ := List.forall_mem_append.1 h
  have hfind : (before ++ (p, k) :: after).find? (fun e => e.1 == p) = some (p, k) := by
    rw [List.find?_append, List.find?_eq_none.2 (by simpa using hb)]
    simp
  have hfilter : (before ++ (p, k) :: after).filter (fun e => e.1 != p) = before ++ after := by
    rw [List.filter_append, List.filter_cons_of_neg (by simp), List.filter_eq_self.2 (by simpa using hb),
      List.filter_eq_self.2 (by simpa using ha)]
  have hretarget : retarget p l (before ++ (p, k) :: after) = before ++ (p, l) :: after := by
    rw [retarget, List.map_append, List.map_cons, if_pos rfl]
    exact congrArg₂ (· ++ (p, l) :: ·) (retarget_others hb l) (retarget_others ha l)
  unfold askedQueue
  rw [hfind]
  cases there
  · simp [hretarget]
  · simp [hfilter]

/-- What a request for point `p` of group `g` makes of the group's queue, before the group may begin a move (R68). -/
def State.asks (s : State) (g : Fin 8) (p : Fin 64) (l : Lie) : State :=
  let queues (f : List (Fin 64 × Lie) → List (Fin 64 × Lie)) : State :=
    (s.updGroup g fun x => { x with queue := f x.queue }).mark (.point p)
  match s.headsFor p l, s.queuedTarget p with
  | true, none => s
  | false, none => queues (· ++ [(p, l)])
  | true, some _ => queues fun q => q.filter fun e => e.1 != p
  | false, some t => if t = l then s else queues (retarget p l)

theorem moveRequest_eq {s : State} {p : Fin 64} {d : PointDef} (hd : tget s.tables.points p = some d) (l : Lie) :
    s.moveRequest p l = (s.asks d.group p l).startMove d.group := by
  unfold State.moveRequest
  rw [State.pointDef, hd]
  rfl

theorem PointStands.asks {s t : State} {p : Fin 64} {c : Contact} {x : PointRec} {h : GroupRec} {marks : List Subject}
    {d : PointDef} (k : PointStands s p c x d.group h marks t) (hd : tget s.tables.points p = some d) (l : Lie) :
    PointStands s p c x d.group { h with queue := askedQueue (t.headsFor p l) p l h.queue } marks (t.asks d.group p l) := by
  have hqueued : t.queuedTarget p = (h.queue.find? fun e => e.1 == p).map (·.2) := by
    rw [State.queuedTarget, State.pointDef, k.tables, hd, ← k.group]
  have queues (f : List (Fin 64 × Lie) → List (Fin 64 × Lie)) : PointStands s p c x d.group { h with queue := f h.queue } marks
      ((t.updGroup d.group fun y => { y with queue := f y.queue }).mark (.point p)) := by
    have hqueue := (k.updGroup (f := fun y => { y with queue := f y.queue }) rfl).mark (.point p)
    exact ⟨hqueue.calm, fun y hy => hqueue.marks y (List.mem_cons_of_mem _ hy)⟩
  unfold State.asks askedQueue
  rw [hqueued]
  cases t.headsFor p l <;> cases (h.queue.find? fun e => e.1 == p).map (·.2)
  case true.none => exact k
  case false.none => exact queues (· ++ [(p, l)])
  case true.some => exact queues fun q => q.filter fun e => e.1 != p
  case false.some =>
    dsimp only
    split
    · exact k
    · exact queues (retarget p l)

/-! ## The request (R79) -/

theorem mem_links {d : PointDef} {x : Link} : x ∈ [d.toe, d.normal, d.reverse] ↔ ∃ g, d.link g = x := by
  constructor
  · simp only [List.mem_cons, List.not_mem_nil, or_false]
    rintro (rfl | rfl | rfl)
    exacts [⟨.toe, rfl⟩, ⟨.normal, rfl⟩, ⟨.reverse, rfl⟩]
  · rintro ⟨g, rfl⟩
    cases g <;> simp [PointDef.link]

theorem legsClear_of_links {s : State} {p : Fin 64} {d : PointDef} (hd : tget s.tables.points p = some d) :
    s.legsClear p = true ↔ ∀ b y, .blockEnd b y ∈ [d.toe, d.normal, d.reverse] → s.isClear b = true := by
  rw [State.legsClear, State.pointDef, hd, List.all_eq_true]
  refine forall_congr' fun b => ⟨fun h y hy => ?_, fun h hb => ?_⟩
  · obtain ⟨g, hg⟩ := mem_links.1 hy
    exact h (mem_legBlocks.2 ⟨g, y, hg⟩)
  · obtain ⟨g, y, hg⟩ := mem_legBlocks.1 hb
    exact h y (mem_links.2 ⟨g, hg⟩)

theorem throwPoint_badValue {s : State} {k : Nat} {e : Sent Lie} (hm : s.mode = .run) (h : 64 ≤ k ∨ ∀ l, e ≠ .value l) :
    s.throwPoint ⟨k, e⟩ = s.refuse .badValue := by
  unfold State.throwPoint
  rw [if_neg (by simp [hm])]
  split
  · rename_i p l hk he
    have hk : k = p.val := index?_eq_some.1 hk
    rcases h with h | h
    · omega
    · exact absurd (required_eq_some.1 he) (h l)
  · rfl

theorem throwPoint_notDefined {s : State} {p : Fin 64} {l : Lie} (hm : s.mode = .run) (hd : tget s.tables.points p = none) :
    s.throwPoint ⟨p.val, .value l⟩ = s.refuse .notDefined := by
  unfold State.throwPoint
  rw [if_neg (by simp [hm]), index?_val]
  exact if_pos (by rw [State.pointDef, hd]; rfl)

theorem throwPoint_defined {s : State} {p : Fin 64} {l : Lie} {d : PointDef} (hm : s.mode = .run)
    (hd : tget s.tables.points p = some d) : s.throwPoint ⟨p.val, .value l⟩ =
      if 0 < (tget s.points p).locks then s.refuse .locked
      else if s.legsClear p then (((s.mark (.point p)).asks d.group p l).startMove d.group, .accepted)
      else s.refuse .occupied := by
  rw [← moveRequest_eq (s := s.mark (.point p)) hd]
  unfold State.throwPoint
  rw [if_neg (by simp [hm]), index?_val]
  exact if_neg (by rw [State.pointDef, hd]; simp)

/-! ## An accepted throw -/

section
variable {s : State} {dt : Nat} {tag : Byte} {p : Fin 64} {l : Lie} {d : PointDef}

/-- A throw that is accepted in RUN: the point is defined and not locked, and its leg blocks are clear (R79). Nothing else waits on the
event, and no route holds elements. -/
structure State.throwAccepted (s : State) (tag : Byte) (p : Fin 64) (d : PointDef) : Prop where
  heard : s.hears tag
  running : s.mode = .run
  defined : tget s.tables.points p = some d
  unlocked : (tget s.points p).locks = 0
  clear : s.legsClear p = true
  still : s.still

/-- The record of the point's group with its queue as the request leaves it (R68). -/
def State.askedGroup (s : State) (p : Fin 64) (l : Lie) (g : Fin 8) : GroupRec :=
  { tget s.groups g with queue := askedQueue (s.headsFor p l) p l (tget s.groups g).queue }

/-- An accepted throw comes to what its group makes of the queue it is left. -/
theorem throw_comesTo (h : s.throwAccepted tag p d) {v : State} (hrx : v.link.rx = .hunt) (hq : v.queue = [])
    (hw : v.work = Work.none)
    (hv : ∀ w, PointStands (s.frameLost dt) p (tget s.contacts p) (tget s.points p) d.group (s.askedGroup p l d.group)
        [.point p] w →
      (w.startMove d.group).calm = v.calm ∧ ∀ x ∈ [Subject.point p], x ∈ (w.startMove d.group).link.reports) :
    s.comesTo (.throwPoint dt tag (.fields ⟨p.val, .value l⟩)) (v.replied tag .accepted) [.point p] := by
  have k : PointStands (s.frameLost dt) p (tget s.contacts p) (tget s.points p) d.group (s.askedGroup p l d.group) [.point p]
      (((s.frameLost dt).mark (.point p)).asks d.group p l) :=
    ((pointStands_self (s.frameLost dt) p d.group).mark (.point p)).asks h.defined l
  obtain ⟨hcalm, hmarks⟩ := hv _ k
  have hthrow := throwPoint_defined (s := s.frameLost dt) (l := l) h.running h.defined
  rw [if_neg (by rw [show (tget (s.frameLost dt).points p).locks = 0 from h.unlocked]; decide),
    if_pos (show (s.frameLost dt).legsClear p = true from h.clear)] at hthrow
  exact request_settled h.heard rfl (congrArg settleReply hthrow) (fun x hx => by cases hx) hcalm hrx
    (.inr ((congrArg State.queue hcalm :).trans hq))
    ((congrArg (fun u : State => u.work.wake) hcalm :).trans (congrArg Work.wake hw)) rfl hmarks

/-- A throw after which its group begins no move: the queue alone is changed (R68). -/
theorem throw_waits (h : s.throwAccepted tag p d) (hn : askedQueue (s.headsFor p l) p l (tget s.groups d.group).queue = [] ∨
      (tget s.groups d.group).phase ≠ .idle ∨ (tget s.groups d.group).paused = true) :
    s.comesTo (.throwPoint dt tag (.fields ⟨p.val, .value l⟩))
      { s.answered dt tag .accepted with groups := tset s.groups d.group (s.askedGroup p l d.group) } [.point p] := by
  refine throw_comesTo (v := { s.frameLost dt with groups := tset s.groups d.group (s.askedGroup p l d.group) }) h rfl
    h.still.1.1 h.still.1.2.2 fun w k => ?_
  rw [startMove_none (by rw [k.group]; exact hn.imp_right (·.imp_right .inl))]
  exact ⟨k.calm.trans (congrArg State.calm (atPoint_own (s.frameLost dt) p d.group _)), k.marks⟩

/-- A throw of a point to another lie whose group stands idle with nothing queued: the move begins at once (R69, R71). -/
theorem throw_begins (h : s.throwAccepted tag p d) (ha : s.headsFor p l = false) (hq : (tget s.groups d.group).queue = [])
    (hi : (tget s.groups d.group).phase = .idle) (hp : (tget s.groups d.group).paused = false) :
    s.comesTo (.throwPoint dt tag (.fields ⟨p.val, .value l⟩))
      ((s.answered dt tag .accepted).moveStarts d.group (tget s.groups d.group) p l []) [.point p] := by
  refine throw_comesTo (v := (s.frameLost dt).moveStarts d.group (tget s.groups d.group) p l []) h rfl h.still.1.1
    h.still.1.2.2 fun w k => ?_
  have hqueue : (s.askedGroup p l d.group).queue = [(p, l)] := by
    rw [State.askedGroup, hq, ha]
    rfl
  have hstart := k.startMove h.still.2 hqueue hi hp h.running
  refine ⟨hstart.calm.trans ?_, hstart.marks⟩
  rw [State.askedGroup, groupStarts_setQueue]
  exact congrArg State.calm (atPoint_ownContact (s.frameLost dt) p _ _ _)

end

/-- Settles O32: each check is one branch of the request, an accepted throw changes its group's queue (`askedQueue`), and a group
that stands idle begins the move. -/
theorem throwPointAsksAMove : Obligations.ThrowPointAsksAMove := by
  unfold Obligations.ThrowPointAsksAMove
  intro s dt tag k e hs c refused
  have refuses {r : Reason} (h : (s.frameLost dt).throwPoint ⟨k, e⟩ = (s.frameLost dt).refuse r) : refused r := by
    refine request_refused s dt tag _ _ hs r ?_
    rw [takeThrowPoint, h]
    rfl
  refine ⟨fun hm => refuses (if_pos hm), fun hm h => refuses (throwPoint_badValue hm h), ?_⟩
  rintro p l hm rfl rfl
  refine ⟨fun hd => refuses (throwPoint_notDefined hm hd), fun d hd => ?_⟩
  intro clear
  have hthrow := throwPoint_defined (s := s.frameLost dt) (l := l) hm hd
  have hclear : s.legsClear p = true ↔ clear := legsClear_of_links hd
  refine ⟨fun hl => refuses (hthrow.trans (if_pos hl)), fun hl hc => refuses ?_, fun hl hc hstill => ?_⟩
  · exact hthrow.trans ((if_neg (Nat.not_lt.2 hl.le)).trans (if_neg (mt hclear.1 hc)))
  · intro g u there queues waits
    have h : s.throwAccepted tag p d := ⟨hs, hm, hd, hl, hclear.2 hc, hstill⟩
    have hthere : s.headsFor p l = true ↔ there := headsFor_iff
    have away (ha : ¬ there) : s.headsFor p l = false := Bool.eq_false_iff.2 (mt hthere.1 ha)
    have asked {q : List (Fin 64 × Lie)} (hq : askedQueue (s.headsFor p l) p l g.queue = q) (hw : q = [] ∨ waits) :
        queues q [.point p] := hq ▸ throw_waits h (hq ▸ hw)
    have stands (hq : askedQueue (s.headsFor p l) p l g.queue = g.queue) (hw : g.queue = [] ∨ waits) : s.comesTo c u [] := by
      obtain ⟨t, hx, hcalm, -⟩ := asked hq hw
      rw [tset_tget] at hcalm
      exact ⟨t, hx, hcalm, by simp⟩
    refine ⟨fun ht hnew hw => ?_, fun ha hnew hw => ?_, fun before after' k hq hothers hw => ?_, fun ha hq hw => ?_⟩
    · exact stands (by rw [askedQueue_new hnew, hthere.2 ht]; rfl) hw.symm
    · exact asked (by rw [askedQueue_new hnew, away ha]; rfl) (.inr hw)
    · have hasked := askedQueue_entry (k := k) hothers (s.headsFor p l) l
      rw [← hq] at hasked
      refine ⟨fun ht => asked ?_ (.inr hw), fun ha hk => asked ?_ (.inr hw), fun ha hk => stands ?_ (.inr hw)⟩
      · rw [hasked, hthere.2 ht]
        rfl
      · rw [hasked, away ha]
        exact if_neg hk
      · rw [hasked, away ha, hq]
        exact if_pos hk
    · obtain ⟨hi, hp⟩ := not_or.1 hw
      exact throw_begins h (away ha) hq (not_not.1 hi) (Bool.eq_false_iff.2 hp)

end Sys2Proof.Machine
end
